-- ==== Sys2Proof/Word.lean ====
section
/-! DEFINITION. The word types of the Varyen X8 and the plainest arithmetic on them (R2, R6). -/

namespace Sys2Proof

/-- A 64-bit register value. -/
abbrev Word := BitVec 64

/-- One byte of memory. -/
abbrev Byte := BitVec 8

/-- One 32-bit slot word of a bundle (R20). -/
abbrev SlotWord := BitVec 32

/-- The number of a core, stack, home or slice, 0 to 7 (R1). -/
abbrev CoreId := Fin 8

/-- A sparse map from keys to values, a list of pairs in ascending key order. -/
abbrev Table (β : Type) := List (Nat × β)

end Sys2Proof
end

