-- ==== Sys2Proof/Syntax.lean ====
section
/-! DEFINITION. The instructions and events of the Varyen X8: one constructor for each row of
spec/opcode_table.json; the rows that only the outside raises come last. The encoded rows carry the fields of their slot word (R26 to R29);
the event rows carry what their rule says takes part in the event. -/

namespace Sys2Proof

/-- What a peer device asks over UALink (R84). -/
inductive PeerReq where
  /-- Read len bytes at a peer offset. -/
  | read (off len : Nat)
  /-- Write the bytes at a peer offset. -/
  | write (off : Nat) (data : List Byte)
  /-- An atomic function code of R205 on 4 or 8 bytes. -/
  | atom (off : Nat) (f : BitVec 4) (wide : Bool) (b : Word)
  /-- Compare and swap on 4 or 8 bytes (R206). -/
  | cas (off : Nat) (wide : Bool) (expect new : Word)
deriving DecidableEq, Repr

/-- The values a rank's strike request carries (R383). -/
structure StrikeDesc where
  op : Nat
  fmt : Nat
  red : Nat
  n : Nat
  root : Nat
  failed : Bool
deriving DecidableEq, Repr

/-- A firmware image in board flash (R404): its bytes, whether its signature verifies under the Wekor key of the boot ROM, and
its security version. -/
structure FirmwareImage where
  body : List Byte
  signed : Bool
  security : Nat
deriving DecidableEq, Repr

/-- A register reached by the row REGISTER_WRITE (R4). -/
inductive RegTarget where
  /-- Control register of a stream or of the task or core that holds it (R163). -/
  | ctl (core : CoreId) (sec : Bool) (reg : BitVec 12)
  /-- Control BAR register at a byte offset, written with 4 or 8 bytes (R80). -/
  | bar (off size : Nat)
deriving DecidableEq, Repr

/-- Where a soft error strikes (R366). -/
inductive SoftError where
  /-- An 8-byte word of HBM at an IA, or of a home's copy of a page (2^52 × (home + 1) above it); correctable or not. -/
  | hbm (word : Nat) (fatal : Bool)
  /-- A word of slice core at word offset; correctable or not. -/
  | slice (core : CoreId) (word : Nat) (fatal : Bool)
  /-- A scalar register of a stream. -/
  | scalar (core : CoreId) (sec : Bool) (r : BitVec 6)
  /-- A vector register. -/
  | vector (core : CoreId) (r : BitVec 6)
  /-- A predicate of a stream. -/
  | pred (core : CoreId) (sec : Bool) (n : BitVec 3)
  /-- A mask register. -/
  | mask (core : CoreId) (r : BitVec 3)
  /-- A stream register. -/
  | streamReg (core : CoreId) (n : BitVec 4)
  /-- A landing latch or a result in flight of a stream, by the number of the register, predicate or accumulator that the
  result names. -/
  | latch (core : CoreId) (sec : Bool) (r : BitVec 6)
  /-- A ring entry of a stream, by its place. -/
  | ring (core : CoreId) (sec : Bool) (place : BitVec 3)
  /-- An accumulator element: accumulator 0 to 4 and element number. -/
  | acc (core : CoreId) (n : BitVec 3) (elem : Nat) (fatal : Bool)
  /-- A plane sum of a cell: its value becomes the given one. -/
  | plane (core : CoreId) (cell : Nat) (value : BitVec 16)
deriving DecidableEq, Repr

/-- One row of the table of instructions and events. -/
inductive Instr where
  /-- NOP (R22). An all-zero slot word does nothing. -/
  | nop
  /-- BR (R183). Branches to pc + 32 x offset if the predicate (optionally negated) is true. -/
  | br (p : BitVec 3) (neg : Bool) (off : BitVec 22)
  /-- CALL (R183). If taken, writes the link pc + 32 into s62 and branches as BR does. -/
  | call (p : BitVec 3) (neg : Bool) (off : BitVec 22)
  /-- RET (R183). If taken, transfers to the address in s62 as read at issue. -/
  | ret (p : BitVec 3) (neg : Bool)
  /-- JIND (R183). Writes the link pc + 32 into s_d and transfers to the address in s_a. -/
  | jind (d : BitVec 6) (a : BitVec 6)
  /-- LOOP (R185). Sets up a hardware loop level with the count in s_a, or skips the body when the count is zero. -/
  | loop (level : BitVec 6) (a : BitVec 6) (dist : BitVec 14)
  /-- WAITC (R188). Freezes the stream until each named outstanding-operation counter is at or below its field. -/
  | waitc (ld : BitVec 5) (st : BitVec 5) (cp : BitVec 5) (tl : BitVec 5) (at_ : BitVec 5)
  /-- WAITT (R189). Freezes the stream until no tag named in the mask is BUSY, or until the timeout. -/
  | waitt (d : BitVec 6) (a : BitVec 6) (b : BitVec 6) (clr : Bool)
  /-- WAITANY (R189). Freezes the stream until some tag named in the mask is DONE or none is BUSY, or until the timeout. -/
  | waitany (d : BitVec 6) (a : BitVec 6) (b : BitVec 6) (clr : Bool)
  /-- WAIT_TIMEOUT (R189). The timeout of a WAITT or WAITANY elapses and the stream wakes. -/
  | waitTimeout (core : CoreId) (sec : Bool)
  /-- PMODE (R191). Drains fixed-latency results, then switches the stream between exposed and interlocked mode. -/
  | pmode (inter : Bool)
  /-- HALT (R192). Stops the stream's issue and keeps its code for the task's completion. -/
  | halt (code : BitVec 14)
  /-- PHASE (R310). Holds the stream at a phase boundary of the named level: drain, arrival, then completion. -/
  | phase (d : BitVec 6) (level : BitVec 3)
  /-- PHASE_ARRIVAL (R310). After its drain, a stream (or a halted stream) arrives at its matching boundary. -/
  | phaseArrival (core : CoreId) (sec : Bool)
  /-- PHASE_BOUNDARY_COMPLETE (R310). All members have arrived and their checks have passed; every member is released and its snapshot point is set. -/
  | phaseBoundaryComplete (core : CoreId) (sec : Bool)
  /-- REL (R312). Holds the bundle until ld, st and at are zero and shadow checks have reported, plus the host flush with .sys. -/
  | rel (scope : BitVec 3)
  /-- ACQ (R312). Sets the stream's snapshot point at issue. -/
  | acq (scope : BitVec 3)
  /-- WADDR (R315). Freezes the stream until the newest value of a word differs from s_b, the timeout elapses, or a trap becomes pending. -/
  | waddr (d : BitVec 6) (a : BitVec 6) (b : BitVec 6) (n : BitVec 6)
  /-- WADDR_WAKE (R315). A watched word changes at its home or bank, and the waiting stream wakes with the word. -/
  | waddrWake (core : CoreId) (sec : Bool)
  /-- WADDR_POLL (R315). The core polls a watched host- or peer-window word every 1,600 cycles. -/
  | waddrPoll (core : CoreId) (sec : Bool)
  /-- WADDR_TIMEOUT (R315). The WADDR timeout of 2^N live cycles elapses and the stream wakes. -/
  | waddrTimeout (core : CoreId) (sec : Bool)
  /-- STRT_HDR (R340). Starts the secondary stream at the secondary entry of the header. -/
  | strtHdr (d : BitVec 6)
  /-- STRT_REG (R340). Starts the secondary stream at the VA held in s_a. -/
  | strtReg (d : BitVec 6) (a : BitVec 6)
  /-- YIELD (R341). Asks the scheduler whether a READY task of priority F or above would take this core. -/
  | yieldCore (d : BitVec 6) (floor : BitVec 6)
  /-- YIELD_ANSWER (R341). The scheduler's answer arrives: the status lands, or the task is swapped out. -/
  | yieldAnswer (core : CoreId) (sec : Bool)
  /-- DOMJ (R342). Sets or clears the task's membership at a domain level, and resets that level's boundary count. -/
  | domj (d : BitVec 6) (a : BitVec 6) (off : Bool) (level : BitVec 3)
  /-- TRAP (R355). Raises the software trap, cause 0x0B, with s_a and the code. -/
  | trap (a : BitVec 6) (code : BitVec 14)
  /-- TRET (R355). Returns from a handler: restores the status, reinstates the latches and resumes at ctl.tpc. -/
  | tret
  /-- RDCTL (R356). Reads a control register into s_d. -/
  | rdctl (d : BitVec 6) (reg : BitVec 12)
  /-- WRCTL (R356). Writes s_a into a control register under its access codes. -/
  | wrctl (a : BitVec 6) (reg : BitVec 12)
  /-- RANGE (R59). Probes the translation of a range without faulting, and returns a status word or the IA. -/
  | range (d : BitVec 6) (a : BitVec 6) (b : BitVec 6) (w : Bool) (r : Bool) (t : Bool)
  /-- SWPREP (R365). Stages a saved context image in the shadow bank and records the outgoing save area. -/
  | swprep (d : BitVec 6) (a : BitVec 6) (b : BitVec 6)
  /-- SWPREP_STAGING_END (R365). Staging ends and the SWPREP status lands. -/
  | swprepStagingEnd (core : CoreId) (sec : Bool)
  /-- SWAP (R365). Swaps the live context with a staged shadow-bank context. -/
  | swap (d : BitVec 6)
  /-- CHKPT (R373). A phase boundary that also commits a checkpoint of every member's context. -/
  | chkpt (d : BitVec 6) (level : BitVec 3)
  /-- CHECKPOINT_COPY_DONE (R373). The archivist finishes copying the contexts; ICNT advances and a new interval opens. -/
  | checkpointCopyDone (task : Nat)
  /-- ADD (R167). Adds two scalar registers, optionally 32-bit or saturating. -/
  | add (d : BitVec 6) (a : BitVec 6) (b : BitVec 6) (sat : Bool) (w : Bool)
  /-- SUB (R167). Subtracts two scalar registers, optionally 32-bit or saturating. -/
  | sub (d : BitVec 6) (a : BitVec 6) (b : BitVec 6) (sat : Bool) (w : Bool)
  /-- ADDI (R170). Adds a signed 14-bit immediate to s_a. -/
  | addi (d : BitVec 6) (a : BitVec 6) (imm : BitVec 14)
  /-- MUL (R167). Writes the low bits of the product of two scalar registers. -/
  | mul (d : BitVec 6) (a : BitVec 6) (b : BitVec 6) (w : Bool)
  /-- MULH (R167). Writes bits 127:64 of the signed, unsigned or mixed 128-bit product. -/
  | mulh (d : BitVec 6) (a : BitVec 6) (b : BitVec 6) (f : BitVec 2)
  /-- AND (R168). Bitwise AND of two scalar registers. -/
  | and (d : BitVec 6) (a : BitVec 6) (b : BitVec 6)
  /-- OR (R168). Bitwise OR of two scalar registers. -/
  | or (d : BitVec 6) (a : BitVec 6) (b : BitVec 6)
  /-- XOR (R168). Bitwise XOR of two scalar registers. -/
  | xor (d : BitVec 6) (a : BitVec 6) (b : BitVec 6)
  /-- ANDN (R168). s_a AND NOT s_b. -/
  | andn (d : BitVec 6) (a : BitVec 6) (b : BitVec 6)
  /-- SHL (R168). Shifts left by a register amount. -/
  | shl (d : BitVec 6) (a : BitVec 6) (b : BitVec 6) (w : Bool)
  /-- SHR (R168). Shifts right logically by a register amount. -/
  | shr (d : BitVec 6) (a : BitVec 6) (b : BitVec 6) (w : Bool)
  /-- SAR (R168). Shifts right arithmetically by a register amount. -/
  | sar (d : BitVec 6) (a : BitVec 6) (b : BitVec 6) (w : Bool)
  /-- SHI (R169). Shifts or rotates by an immediate amount. -/
  | shi (d : BitVec 6) (a : BitVec 6) (w : Bool) (k : BitVec 2) (n : BitVec 6)
  /-- CLZ (R168). Counts leading zeros. -/
  | clz (d : BitVec 6) (a : BitVec 6) (w : Bool)
  /-- POPC (R168). Counts one bits. -/
  | popc (d : BitVec 6) (a : BitVec 6) (w : Bool)
  /-- MIN (R168). Signed minimum. -/
  | min (d : BitVec 6) (a : BitVec 6) (b : BitVec 6)
  /-- MAX (R168). Signed maximum. -/
  | max (d : BitVec 6) (a : BitVec 6) (b : BitVec 6)
  /-- MINU (R168). Unsigned minimum. -/
  | minu (d : BitVec 6) (a : BitVec 6) (b : BitVec 6)
  /-- MAXU (R168). Unsigned maximum. -/
  | maxu (d : BitVec 6) (a : BitVec 6) (b : BitVec 6)
  /-- CMP (R173). Compares two registers under a condition and writes a predicate. -/
  | cmp (p : BitVec 3) (cond : BitVec 4) (a : BitVec 6) (b : BitVec 6) (w : Bool)
  /-- CMPI (R173). Compares a register with a signed immediate and writes a predicate. -/
  | cmpi (p : BitVec 3) (cond : BitVec 4) (a : BitVec 6) (imm : BitVec 13)
  /-- S_SEL (R174). Selects s_a or s_b by a predicate, optionally negated. -/
  | sSel (d : BitVec 6) (a : BitVec 6) (b : BitVec 6) (neg : Bool) (n : BitVec 3)
  /-- MOVI (R171). Writes a sign-extended 20-bit immediate. -/
  | movi (d : BitVec 6) (imm : BitVec 20)
  /-- MOVHI (R171). Replaces one 16-bit chunk of s_d. -/
  | movhi (d : BitVec 6) (q : BitVec 2) (chunk : BitVec 16)
  /-- LEA (R170). Writes s_a + (s_b << sh). -/
  | lea (d : BitVec 6) (a : BitVec 6) (b : BitVec 6) (sh : BitVec 3)
  /-- BFX (R172). Extracts a bit field, zero- or sign-extended. -/
  | bfx (d : BitVec 6) (a : BitVec 6) (s : Bool) (w : BitVec 6) (pos : BitVec 6)
  /-- BFI (R172). Inserts a bit field into s_d. -/
  | bfi (d : BitVec 6) (a : BitVec 6) (w : BitVec 6) (pos : BitVec 6)
  /-- PLOG (R175). Combines two predicates with AND, OR or XOR. -/
  | plog (p : BitVec 3) (op : BitVec 4) (na : Bool) (a : BitVec 3) (nb : Bool) (b : BitVec 3)
  /-- PMOV_SET (R176). Sets a predicate to (s_a != 0). -/
  | pmovSet (p : BitVec 3) (a : BitVec 6)
  /-- PMOV_PACK (R176). Packs p0 to p7 into a scalar register. -/
  | pmovPack (b : BitVec 6)
  /-- PMOV_UNPK (R176). Writes p0 to p6 from the low bits of s_a. -/
  | pmovUnpk (a : BitVec 6)
  /-- CHKS (R177). Raises a duplication-mismatch trap when DUP is set and s_a differs from s_b. -/
  | chks (a : BitVec 6) (b : BitVec 6)
  /-- RDSYS (R178). Reads the system value that the selector names. -/
  | rdsys (d : BitVec 6) (sel : BitVec 14)
  /-- TFIRST (R179). Finds the lowest DONE tag in a mask, and optionally clears it. -/
  | tfirst (d : BitVec 6) (a : BitVec 6) (clr : Bool)
  /-- STSET (R180). Writes one word of a stream register. -/
  | stset (a : BitVec 6) (w : BitVec 3) (n : BitVec 4)
  /-- STGET (R180). Reads one word of a stream register. -/
  | stget (d : BitVec 6) (w : BitVec 3) (n : BitVec 4)
  /-- LD (R196). Loads snapshot bytes into a scalar register, zero-extended. -/
  | ld (d : BitVec 6) (base : BitVec 6) (cls : BitVec 3) (sz : BitVec 2) (off : BitVec 9)
  /-- ST (R196). Stores the low bytes of a scalar register. -/
  | st (d : BitVec 6) (base : BitVec 6) (cls : BitVec 3) (sz : BitVec 2) (off : BitVec 9)
  /-- LDV (R199). Loads a 1 KiB vector image, flagging absent shares in a mask. -/
  | ldv (d : BitVec 6) (base : BitVec 6) (cls : BitVec 3) (m : BitVec 3) (sz : BitVec 2) (off : BitVec 6)
  /-- STV (R199). Stores the enabled elements of a vector register's image. -/
  | stv (d : BitVec 6) (base : BitVec 6) (cls : BitVec 3) (m : BitVec 3) (sz : BitVec 2) (off : BitVec 6)
  /-- LDVS (R199). Loads vector elements at a register stride. -/
  | ldvs (d : BitVec 6) (base : BitVec 6) (cls : BitVec 3) (m : BitVec 3) (sz : BitVec 2) (k : BitVec 6)
  /-- STVS (R199). Stores vector elements at a register stride. -/
  | stvs (d : BitVec 6) (base : BitVec 6) (cls : BitVec 3) (m : BitVec 3) (sz : BitVec 2) (k : BitVec 6)
  /-- LDG (R196). Loads the newest bytes at the location. -/
  | ldg (d : BitVec 6) (base : BitVec 6) (cls : BitVec 3) (sz : BitVec 2) (off : BitVec 9)
  /-- STG (R203). Stores at the newest value, as an atomic is applied. -/
  | stg (d : BitVec 6) (base : BitVec 6) (cls : BitVec 3) (sz : BitVec 2) (off : BitVec 9)
  /-- STNT (R196). Stores without allocating in the memory-side cache. -/
  | stnt (d : BitVec 6) (base : BitVec 6) (cls : BitVec 3) (sz : BitVec 2) (off : BitVec 9)
  /-- ATOM (R205). Performs an indivisible read-modify-write at the newest value. -/
  | atom (d : BitVec 6) (a : BitVec 6) (b : BitVec 6) (f : BitVec 4) (scope : BitVec 3) (w : Bool)
  /-- CAS (R206). Indivisible compare-and-swap at the newest value. -/
  | cas (d : BitVec 6) (a : BitVec 6) (b : BitVec 6) (scope : BitVec 3) (w : Bool)
  /-- PGREQ (R208). Asks for a range to be made resident. -/
  | pgreq (d : BitVec 6) (a : BitVec 6) (b : BitVec 6) (wr : Bool)
  /-- PAGE_REQUEST_SETTLED (R208). A page request is settled, and its status lands in s_d. -/
  | pageRequestSettled (core : CoreId) (id : Nat) (declined : Bool)
  /-- FADD (R212). Vector floating add. -/
  | fadd (d : BitVec 6) (a : BitVec 7) (b : BitVec 7) (m : BitVec 3) (t : Bool)
  /-- FSUB (R212). Vector floating subtract. -/
  | fsub (d : BitVec 6) (a : BitVec 7) (b : BitVec 7) (m : BitVec 3) (t : Bool)
  /-- FMUL (R212). Vector floating multiply. -/
  | fmul (d : BitVec 6) (a : BitVec 7) (b : BitVec 7) (m : BitVec 3) (t : Bool)
  /-- FMA (R213). Fused a x b + c. -/
  | fma (d : BitVec 6) (a : BitVec 7) (b : BitVec 7) (c : BitVec 5) (t : Bool)
  /-- FMS (R213). Fused a x b − c. -/
  | fms (d : BitVec 6) (a : BitVec 7) (b : BitVec 7) (c : BitVec 5) (t : Bool)
  /-- FNMA (R213). Fused c − a x b. -/
  | fnma (d : BitVec 6) (a : BitVec 7) (b : BitVec 7) (c : BitVec 5) (t : Bool)
  /-- FMIN (R214). Floating minimum, with an optional .num form. -/
  | fmin (d : BitVec 6) (a : BitVec 7) (b : BitVec 7) (m : BitVec 3) (num : Bool) (t : Bool)
  /-- FMAX (R214). Floating maximum, with an optional .num form. -/
  | fmax (d : BitVec 6) (a : BitVec 7) (b : BitVec 7) (m : BitVec 3) (num : Bool) (t : Bool)
  /-- FABS (R215). Clears the sign bit. -/
  | fabs (d : BitVec 6) (a : BitVec 7) (t : Bool) (m : BitVec 3)
  /-- FNEG (R215). Inverts the sign bit. -/
  | fneg (d : BitVec 6) (a : BitVec 7) (t : Bool) (m : BitVec 3)
  /-- FCMP (R216). Floating compare that writes a mask. -/
  | fcmp (cond : BitVec 3) (k : BitVec 3) (a : BitVec 7) (b : BitVec 7) (m : BitVec 3) (t : Bool)
  /-- FCLASS (R215). Writes a one-hot class of each element. -/
  | fclass (d : BitVec 6) (a : BitVec 7) (t : Bool) (m : BitVec 3)
  /-- FSCL (R217). Scales a by 2^n, with n taken from b. -/
  | fscl (d : BitVec 6) (a : BitVec 7) (b : BitVec 7) (m : BitVec 3) (t : Bool)
  /-- IADD (R218). Integer add, optionally saturating. -/
  | iadd (d : BitVec 6) (a : BitVec 7) (b : BitVec 7) (m : BitVec 3) (sat : Bool) (w : BitVec 2)
  /-- ISUB (R218). Integer subtract, optionally saturating. -/
  | isub (d : BitVec 6) (a : BitVec 7) (b : BitVec 7) (m : BitVec 3) (sat : Bool) (w : BitVec 2)
  /-- IMUL (R218). Integer multiply, low or high half. -/
  | imul (d : BitVec 6) (a : BitVec 7) (b : BitVec 7) (m : BitVec 3) (hi : Bool) (w : BitVec 2)
  /-- IMAD (R219). Integer multiply-add. -/
  | imad (d : BitVec 6) (a : BitVec 7) (b : BitVec 7) (c : BitVec 5) (w : Bool)
  /-- IAND (R218). Bitwise AND. -/
  | iand (d : BitVec 6) (a : BitVec 7) (b : BitVec 7) (m : BitVec 3) (w : BitVec 2)
  /-- IOR (R218). Bitwise OR. -/
  | ior (d : BitVec 6) (a : BitVec 7) (b : BitVec 7) (m : BitVec 3) (w : BitVec 2)
  /-- IXOR (R218). Bitwise XOR. -/
  | ixor (d : BitVec 6) (a : BitVec 7) (b : BitVec 7) (m : BitVec 3) (w : BitVec 2)
  /-- ISHL (R218). Shift left. -/
  | ishl (d : BitVec 6) (a : BitVec 7) (b : BitVec 7) (m : BitVec 3) (w : BitVec 2)
  /-- ISHR (R218). Logical shift right. -/
  | ishr (d : BitVec 6) (a : BitVec 7) (b : BitVec 7) (m : BitVec 3) (w : BitVec 2)
  /-- ISAR (R218). Arithmetic shift right. -/
  | isar (d : BitVec 6) (a : BitVec 7) (b : BitVec 7) (m : BitVec 3) (w : BitVec 2)
  /-- IMIN (R218). Signed or unsigned minimum. -/
  | imin (d : BitVec 6) (a : BitVec 7) (b : BitVec 7) (m : BitVec 3) (u : Bool) (w : BitVec 2)
  /-- IMAX (R218). Signed or unsigned maximum. -/
  | imax (d : BitVec 6) (a : BitVec 7) (b : BitVec 7) (m : BitVec 3) (u : Bool) (w : BitVec 2)
  /-- ICMP (R220). Integer compare that writes a mask. -/
  | icmp (cond : BitVec 3) (k : BitVec 3) (a : BitVec 7) (b : BitVec 7) (m : BitVec 3) (w : BitVec 2)
  /-- V_SEL (R221). Selects a or b in each element by a mask. -/
  | vSel (d : BitVec 6) (a : BitVec 7) (b : BitVec 7) (m : BitVec 3) (w : BitVec 2)
  /-- MOV (R221). Copies a into d on the enabled elements. -/
  | mov (d : BitVec 6) (a : BitVec 7) (f : BitVec 5) (m : BitVec 3)
  /-- BCAST (R222). Broadcasts a scalar to every element. -/
  | bcast (d : BitVec 6) (s : BitVec 6) (w : BitVec 2)
  /-- VIMM (R222). Broadcasts a sign-extended immediate. -/
  | vimm (d : BitVec 6) (w : BitVec 2) (imm : BitVec 14)
  /-- CVT (R224). Converts between FP32 or FP64 and a narrow format. -/
  | cvt (d : BitVec 6) (a : BitVec 7) (f : BitVec 5) (r : BitVec 3) (x : Bool) (dir : BitVec 2)
  /-- MXQ_SCALE (R228). Writes the E8M0 block scale of each cluster's MXFP4 block. -/
  | mxqScale (d : BitVec 6) (a : BitVec 7) (m : BitVec 3)
  /-- MXQ_ELEM (R228). Writes the E2M1 code of each element of a block. -/
  | mxqElem (d : BitVec 6) (a : BitVec 7) (r : BitVec 3) (m : BitVec 3)
  /-- XPND (R227). Expands INT4, E3M2 or E2M3 into FP8 bytes. -/
  | xpnd (d : BitVec 6) (a : BitVec 7) (f : BitVec 5) (m : BitVec 3) (h : Bool)
  /-- PACK (R226). Packs the low parts of the containers into dense narrow elements. -/
  | pack (d : BitVec 6) (a : BitVec 7) (b : BitVec 7) (m : BitVec 3) (f : BitVec 2)
  /-- UNPK (R226). Spreads narrow elements into containers of twice their width. -/
  | unpk (d : BitVec 6) (a : BitVec 7) (f : BitVec 5) (m : BitVec 3) (h : Bool)
  /-- RCP (R229). Reciprocal. -/
  | rcp (d : BitVec 6) (a : BitVec 7) (t : Bool) (r : BitVec 3) (m : BitVec 3)
  /-- RSQ (R229). Reciprocal square root. -/
  | rsq (d : BitVec 6) (a : BitVec 7) (t : Bool) (r : BitVec 3) (m : BitVec 3)
  /-- EXP2 (R229). Base-2 exponential. -/
  | exp2 (d : BitVec 6) (a : BitVec 7) (t : Bool) (r : BitVec 3) (m : BitVec 3)
  /-- LOG2 (R229). Base-2 logarithm. -/
  | log2 (d : BitVec 6) (a : BitVec 7) (t : Bool) (r : BitVec 3) (m : BitVec 3)
  /-- SIGM (R229). Logistic sigmoid. -/
  | sigm (d : BitVec 6) (a : BitVec 7) (t : Bool) (r : BitVec 3) (m : BitVec 3)
  /-- TANH (R229). Hyperbolic tangent. -/
  | tanh (d : BitVec 6) (a : BitVec 7) (t : Bool) (r : BitVec 3) (m : BitVec 3)
  /-- XCL (R231). Copies whole clusters of a register between clusters. -/
  | xcl (d : BitVec 6) (a : BitVec 6) (k : BitVec 2) (x : BitVec 3)
  /-- PERM (R232). Permutes elements within each cluster. -/
  | perm (d : BitVec 6) (a : BitVec 6) (k : BitVec 3) (w : BitVec 2) (x : BitVec 6)
  /-- RED (R233). Reduces each cluster in a fixed tree order. -/
  | red (d : BitVec 6) (a : BitVec 7) (f : BitVec 5) (r : BitVec 3) (m : BitVec 3) (g : BitVec 2)
  /-- ACCRD (R235). Reads a 1 KiB block of an accumulator into a vector register. -/
  | accrd (d : BitVec 6) (s : BitVec 6) (off : BitVec 11) (n : BitVec 3)
  /-- ACCWR (R235). Writes a vector register into a 1 KiB block of an accumulator. -/
  | accwr (v : BitVec 6) (s : BitVec 6) (off : BitVec 11) (n : BitVec 3)
  /-- RNGV (R236). Fills the enabled elements with stochastic generator draws. -/
  | rngv (d : BitVec 6) (f : BitVec 5) (m : BitVec 3)
  /-- MSK (R223). Computes a mask from masks or from a vector. -/
  | msk (k : BitVec 3) (a : BitVec 7) (b : BitVec 7) (f : BitVec 3)
  /-- VEXT (R234). Extracts one vector element into a scalar register. -/
  | vext (d : BitVec 6) (s : BitVec 6) (w : BitVec 2) (i : BitVec 10)
  /-- CHKV (R237). Raises a duplication-mismatch trap when DUP is set and a and b differ. -/
  | chkv (a : BitVec 7) (b : BitVec 7) (m : BitVec 3) (w : BitVec 2)
  /-- MODMUL (R299). Computes (a x b + c) mod m on residue containers. -/
  | modmul (d : BitVec 6) (a : BitVec 7) (b : BitVec 7) (c : BitVec 5) (h : Bool)
  /-- RESF (R299). Forms four residues from an integer. -/
  | resf (d : BitVec 6) (a : BitVec 7) (f : BitVec 5) (m : BitVec 3) (h : Bool)
  /-- RESX (R299). Reconstructs and classifies INT64 values from eight residues. -/
  | resx (d : BitVec 6) (a : BitVec 7) (m : BitVec 3) (deg : Bool)
  /-- SLC (R295). Cuts an FP64 value into one 14-bit digit. -/
  | slc (d : BitVec 6) (s : BitVec 6) (n : BitVec 2) (v : BitVec 6)
  /-- MMA (R265). Runs a floating-point tile operation into an accumulator. -/
  | mma (acc : BitVec 2) (a : BitVec 4) (b : BitVec 4) (s : BitVec 6) (f : BitVec 5) (g : Bool) (adv : Bool) (z : Bool)
  /-- MMA_HOLD (R269). Runs a tile operation that takes B from the held slab. -/
  | mmaHold (acc : BitVec 2) (a : BitVec 4) (s : BitVec 6) (f : BitVec 5) (g : Bool) (adv : Bool) (z : Bool)
  /-- MMZ (R268). Loads a B slab into the hold latches. -/
  | mmz (b : BitVec 4) (s : BitVec 6) (f : BitVec 5) (g : Bool) (adv : Bool)
  /-- MHOLD_REL (R270). Marks the slab invalid. -/
  | mholdRel
  /-- MHOLD_CHK (R270). Reads the slab description. -/
  | mholdChk (d : BitVec 6)
  /-- MORG_ADV (R271). Advances the tile origin by (37, 53). -/
  | morgAdv
  /-- MORG_RD (R271). Reads the origin that the next tile operation will use. -/
  | morgRd (d : BitVec 6)
  /-- MGANG (R272). Chooses the gang configuration for G-flagged operations. -/
  | mgang (d : BitVec 6) (cfg : BitVec 2)
  /-- MDRN (R275). Drains an FP32 accumulator into the slice in a storage format. -/
  | mdrn (t : BitVec 4) (a : BitVec 6) (r : BitVec 2) (ovx : Bool) (adv : Bool) (clr : Bool) (f : BitVec 3) (n : BitVec 3)
  /-- MSTAT (R276). Reads the cube status word or the completion count, optionally clearing. -/
  | mstat (d : BitVec 6) (clr : Bool) (sel : Bool)
  /-- MMI (R291). Runs an exact integer tile operation into the plane set. -/
  | mmi (a : BitVec 4) (b : BitVec 4) (s : BitVec 6) (f : BitVec 5) (g : Bool) (adv : Bool) (z : Bool)
  /-- RNSX (R292). Drains the plane set through the reverse converter. -/
  | rnsx (z : Bool) (sh : BitVec 7) (n : BitVec 3)
  /-- RNSCHK (R293). Classifies the plane set without writing it. -/
  | rnschk
  /-- RNSDEG (R294). Sets a group's channel map to full or degraded. -/
  | rnsdeg (p : BitVec 4) (g : Bool)
  /-- XDOT (R296). Runs one digit-pair pass of the exact FP64 dot into accw. -/
  | xdot (a : BitVec 4) (b : BitVec 4) (s : BitVec 6) (f : BitVec 5) (g : Bool) (adv : Bool) (z : Bool)
  /-- XDOT_DRAIN_START (R296). The drain part of an XDOT begins once its plane part completes. -/
  | xdotDrainStart (core : CoreId) (id : Nat)
  /-- XFIN (R297). Rounds accw elements to FP64 and writes them into the slice. -/
  | xfin (t : BitVec 4) (a : BitVec 6) (adv : Bool) (clr : Bool)
  /-- CPY (R102). Issues a plain copy or zero-fill job. -/
  | cpy (t : BitVec 6) (s : BitVec 6) (z : Bool) (span : Bool) (nt : Bool) (cls : BitVec 3)
  /-- CPYD (R107). Issues a prefix-code decode job into the own slice. -/
  | cpyd (t : BitVec 6) (s : BitVec 6) (slot : BitVec 4) (span : Bool) (nt : Bool) (cls : BitVec 3)
  /-- CPYS (R109). Issues a 2:4 expansion job into the own slice. -/
  | cpys (t : BitVec 6) (s : BitVec 6) (e : BitVec 2) (span : Bool) (nt : Bool) (cls : BitVec 3)
  /-- CTAB (R106). Issues a code-table load job. -/
  | ctab (t : BitVec 6) (s : BitVec 6) (slot : BitVec 4) (cls : BitVec 3)
  /-- EWR (R111). Writes a staged engine register. -/
  | ewr (e : BitVec 4) (a : BitVec 6) (imm : BitVec 14)
  /-- EGO (R112). Issues a gather or scatter job from the staged engine registers. -/
  | ego (t : BitVec 6)
  /-- TCLR (R113). Reads the masked DONE tags and frees them. -/
  | tclr (d : BitVec 6) (a : BitVec 6)
  /-- COLJ (R385). Issues a collective job on a group. -/
  | colj (t : BitVec 6) (s : BitVec 6) (span : Bool) (nt : Bool) (op : BitVec 3) (cls : BitVec 3)
  /-- CANJ (R390). Asks the striker to cancel the collective on a tag. -/
  | canj (d : BitVec 6) (tag : BitVec 6)
  /-- CANJ_ANSWER (R390). The striker's answer to a cancel lands in s_d. -/
  | canjAnswer (core : CoreId) (sec : Bool)
  /-- RESULT_LANDING (R40). A fixed-latency result lands at stream cycle t + L. -/
  | resultLanding (core : CoreId) (sec : Bool)
  /-- MERGE_WAIT_LIMIT (R338). The secondary bundle's wait count reaches 15, and the primary is held so that it issues alone. -/
  | mergeWaitLimit (core : CoreId)
  /-- DEFERRED_TRAP_TAKE (R345). A pending deferred trap is taken at the stream's next bundle boundary. -/
  | deferredTrapTake (core : CoreId) (sec : Bool)
  /-- TASK_END (R337). The firmware ends a task with STATUS 7 and stops its other cores without a spill. -/
  | taskEnd (task : Nat) (cause : Nat) (core : CoreId) (sec : Bool)
  /-- LOAD_DATA_RETURN (R197). The data of a counter-tracked load lands and ld falls. -/
  | loadDataReturn (core : CoreId) (id : Nat)
  /-- STORE_APPLIED (R187). A home or bank applies a store and st falls. -/
  | storeApplied (core : CoreId) (id : Nat)
  /-- ATOMIC_PERFORMED (R204). A home or bank performs an atomic and returns its old value. -/
  | atomicPerformed (core : CoreId) (id : Nat)
  /-- RESIDENCY_ANSWER (R67). The home answers a residency query; the held bundle issues or traps. -/
  | residencyAnswer (core : CoreId) (sec : Bool)
  /-- POOL_REFILL (R65). The firmware refills a home's pool of pre-zeroed frames in the background. -/
  | poolRefill (home : CoreId)
  /-- SHARE_UNMAP (R63). The firmware unmaps a share after every cache has acknowledged the invalidation. -/
  | shareUnmap (home : CoreId) (ia : Nat)
  /-- REPLICA_INVALIDATION_ACK (R69). A copy acknowledges its invalidation; once all have, the held store or atomic applies. -/
  | replicaInvalidationAck (home : CoreId) (page : Nat) (copy : CoreId)
  /-- REPLICA_FENCE (R70). A copy silent for 50 µs is fenced and the held store proceeds. -/
  | replicaFence (home : CoreId) (page : Nat) (copy : CoreId)
  /-- SLICE_WORD_WRITEBACK (R123). A corrected word is rewritten at the next free sub-bank cycle. -/
  | sliceWordWriteback (core : CoreId) (word : Nat)
  /-- SLICE_PATROL_READ (R124). The slice patrol reads a word at the lowest priority. -/
  | slicePatrolRead (core : CoreId) (word : Nat)
  /-- HBM_PATROL_READ (R72). The controller patrol-reads a line and rewrites it if it corrected an error. -/
  | hbmPatrolRead (line : Nat)
  /-- HOST_COMPLETION_TIMEOUT (R85). A host-port access does not complete within 50 ms and fails. -/
  | hostCompletionTimeout (core : CoreId) (id : Nat)
  /-- PEER_ACCESS_TIMEOUT (R85). A peer access does not complete within 50 ms; a read returns poison and a write is dropped. -/
  | peerAccessTimeout (core : CoreId) (id : Nat)
  /-- SPILL_RESTART (R364). The firmware restarts a held spill from the stopped line. -/
  | spillRestart (core : CoreId)
  /-- HELD_CONTEXT_SWAP_IN (R364). The firmware swaps a held context back in whole. -/
  | heldContextSwapIn (core : CoreId)
  /-- REMOTE_SLICE_REQUEST (R121). A request from another core or the hub reaches a sub-bank's arbiter. -/
  | remoteSliceRequest (core : CoreId) (bank : Nat) (requester : Nat)
  /-- REMOTE_REQUEST_GRANT (R121). A sub-bank grants a waiting remote request, aged or in order. -/
  | remoteRequestGrant (core : CoreId) (bank : Nat)
  /-- JOB_START (R104). A job starts on an engine once every job it has an edge from has completed. -/
  | jobStart (core : CoreId) (id : Nat)
  /-- JOB_COMPLETE (R95). A job completes; its tag becomes DONE with its status and cp falls. -/
  | jobComplete (core : CoreId) (id : Nat)
  /-- FEED_STEP (R247). A step of a tile operation enters the cube feed unless the cycle is a pause cycle. -/
  | feedStep (core : CoreId)
  /-- GANG_RENDEZVOUS (R273). A partner's matching G-flagged operation arrives and the values are compared. -/
  | gangRendezvous (core : CoreId) (sec : Bool)
  /-- TILE_OPERATION_COMPLETE (R249). A tile operation completes; tl falls and the cube events are recorded. -/
  | tileOperationComplete (core : CoreId) (id : Nat)
  /-- DRAIN_COMPLETE (R275). An MDRN or XFIN has written its last byte, and tl falls. -/
  | drainComplete (core : CoreId) (id : Nat)
  /-- STRIKE_REQUEST (R381). A rank's request for a (group, k) pair reaches the striker, which assigns or repeats a strike number. -/
  | strikeRequest (group : Nat) (index : Nat) (rank : Nat) (desc : StrikeDesc)
  /-- STRIKE_GO (R383). Every rank has requested with agreeing values; the pair is STARTED and go is sent. -/
  | strikeGo (group : Nat) (index : Nat)
  /-- COLLECTIVE_START (R382). The collective engine starts the next collective in strike order. -/
  | collectiveStart (striker : Nat)
  /-- STRIKE_REQUEST_RETRY (R384). With no answer after 50 µs, and every 20 µs after, the request is repeated to the standby. -/
  | strikeRequestRetry (group : Nat) (index : Nat)
  /-- TASK_PLACE (R334). The scheduler places a READY task on free or freeable cores. -/
  | taskPlace (task : Nat)
  /-- CONTEXT_STAGE (R335). The incoming context is written into the shadow bank once any spill has finished. -/
  | contextStage (task : Nat)
  /-- SCHEDULER_SWAP (R361). A 32-cycle shadow-bank swap exchanges the live and staged contexts. -/
  | schedulerSwap (task : Nat)
  /-- CUBE_SWAP_DRAIN_END (R363). The old context's steps in the feed have drained into its accumulators. -/
  | cubeSwapDrainEnd (core : CoreId)
  /-- SPILL_COMPLETE (R362). The archivist writes the header with COMPLETE, and the shadow bank becomes EMPTY. -/
  | spillComplete (core : CoreId)
  /-- SAVE_AREA_FAULT (R364). An archivist write fails; the spill stops and the bank becomes HELD. -/
  | saveAreaFault (core : CoreId) (va : Word)
  /-- SLICE_TRANSFER_END (R335). The save, restore and zeroing of the slice ends, and the new task may issue. -/
  | sliceTransferEnd (core : CoreId)
  /-- TASK_RETIRE (R337). All of a task's work has completed; the completion is written and its cores are freed. -/
  | taskRetire (task : Nat)
  /-- ROLLBACK (R375). The firmware stops a task, replays its log and resumes it from its last checkpoint. -/
  | rollback (task : Nat)
  /-- GROUP_ROLLBACK (R376). The striker rolls back every device of a group and rewinds its strike numbers. -/
  | groupRollback (group : Nat)
  /-- DIE_RETIRE (R377). A die reaches its report threshold; the firmware spares it and rewrites the catalogue. -/
  | dieRetire (core : CoreId) (die : Nat) (works : Bool)
  /-- POWER_LEASE_EXPIRY (R400). A budget lease ends with no newer message, and the floor budget applies. -/
  | powerLeaseExpiry
  /-- REGULATOR_EVALUATE (R394). Every 1,024 cycles the regulator reads its sensors and sets its step. -/
  | regulatorEvaluate (core : CoreId) (hottest : Nat)
  /-- THERMAL_TRIP_TIMEOUT (R394). After 10 ms at or above TTRIP, every task on the core is ended. -/
  | thermalTripTimeout (core : CoreId)
  /-- WAKE_COMPLETE (R326). The wake from the gated state ends; GATED clears and the replay begins. -/
  | wakeComplete
  /-- PACKET_CONSUME (R321). The firmware copies, journals and consumes the next published packet of a queue. -/
  | packetConsume (queue : Nat)
  /-- PACKET_POLL (R321). Every 10 µs, while the latch is ahead of CONS, the firmware rereads the waiting slot. -/
  | packetPoll (queue : Nat)
  /-- INVOKE_PACKET (R332). An invoke packet is checked and builds a READY task from a loaded slot. -/
  | invokePacket (packet : Nat)
  /-- LOAD_SLOT_PACKET (R330). A load-slot packet makes an EMPTY slot LOADING and checks the image. -/
  | loadSlotPacket (packet : Nat)
  /-- LOAD_SLOT_COMPLETE (R330). The sections are copied and the slot becomes LOADED, or returns to EMPTY on failure. -/
  | loadSlotComplete (packet : Nat)
  /-- UNLOAD_SLOT_PACKET (R331). An unload-slot packet makes the slot UNLOADING. -/
  | unloadSlotPacket (packet : Nat)
  /-- UNLOAD_SLOT_COMPLETE (R331). The slot's last task retires; the frames are unmapped and the slot becomes EMPTY. -/
  | unloadSlotComplete (packet : Nat)
  /-- COPY_PACKET (R323). A copy packet runs as one plain copy job of no task. -/
  | copyPacket (packet : Nat)
  /-- SIGNAL_PACKET (R323). A signal packet stores or adds at a word's newest value. -/
  | signalPacket (packet : Nat)
  /-- WAIT_PACKET (R323). A wait packet starts watching a word. -/
  | waitPacket (packet : Nat)
  /-- WAIT_PACKET_MET (R326). The watched word meets the condition and the wait packet completes. -/
  | waitPacketMet (packet : Nat)
  /-- WAIT_PACKET_TIMEOUT (R323). A wait packet's timeout elapses, and it completes with STATUS 9. -/
  | waitPacketTimeout (packet : Nat)
  /-- GROUP_FORM (R413). A group packet with OP form registers a collective group with its striker. -/
  | groupForm (packet : Nat)
  /-- GROUP_GRANT (R413). A group packet with OP grant grants a formed group to a task. -/
  | groupGrant (packet : Nat)
  /-- GROUP_REOPEN (R413). A group packet with OP reopen asks to reopen a closed group. -/
  | groupReopen (packet : Nat)
  /-- GROUP_RELEASE (R413). A group packet with OP release asks to forget a group. -/
  | groupRelease (packet : Nat)
  /-- GROUP_AGREEMENT (R413). Every device has sent matching form or reopen packets, and the packet completes. -/
  | groupAgreement (packet : Nat) (agrees : Bool)
  /-- GROUP_AGREEMENT_TIMEOUT (R413). A form or reopen reaches no agreement within 1 s, and completes with STATUS 11. -/
  | groupAgreementTimeout (packet : Nat)
  /-- GROUP_RELEASE_COMPLETE (R413). The group's last collective on this device completes, and the release completes. -/
  | groupReleaseComplete (packet : Nat)
  /-- FIRMWARE_RESTART_END (R326). The restart ends; FWRST clears, vector 1 is raised and the replay resumes. -/
  | firmwareRestartEnd
  /-- QUEUES_OPEN (R88). Once the link conditions hold, the firmware sets DEVSTAT.QOPEN. -/
  | queuesOpen
  /-- HOST_SNOOP_RESPONSE (R79). The host answers a back-invalidation snoop, and the held home write applies. -/
  | hostSnoopResponse (line : Nat)
  /-- UALINK_TRAINING_TIMEOUT (R88). A port not up within 500 ms of training start is marked STATE 3. -/
  | ualinkTrainingTimeout (port : Nat)
  /-- D2D_LINK_FAILED (R366). After 8 failed resends the link is marked failed and the tasks on either end are rolled back. -/
  | d2dLinkFailed (link : Nat)
  /-- PEER_ACCESS_REQUEST (R84). A read, write or atomic from a peer device arrives over UALink. -/
  | peerAccessRequest (port : Nat) (req : PeerReq)
  /-- HOST_MEMORY_WRITE (R79). A host write through the memory BAR or CXL.mem applies at the home at once. -/
  | hostMemoryWrite (addr : Nat) (data : List Byte)
  /-- HOST_MEMORY_READ (R79). A host read returns the newest value at the home, or poison. -/
  | hostMemoryRead (addr : Nat) (len : Nat)
  /-- ILLEGAL_ENCODING (R23). A bundle holding a slot word with an unassigned major, a major of 0 with nonzero bits, or a nonzero reserved field raises cause 0x01 and no slot takes effect. -/
  | illegalEncoding (slot : BitVec 3) (word : SlotWord)
  /-- INSTRUCTION_FETCH_FAULT (R66). The fetch of a stream's next bundle fails translation, finds its share absent or reads a poisoned line, and the trap is taken precisely at that bundle. -/
  | instructionFetchFault (core : CoreId) (sec : Bool)
  /-- HOST_WINDOW_FLUSH_COMPLETE (R312). The flushing read that the hub issues behind a stream's host-window writes completes, releasing a REL.sys. -/
  | hostWindowFlushComplete (core : CoreId) (sec : Bool)
  /-- HBM_REFRESH_SCRUB (R72). On-die error check and scrub runs during refresh, and the counts are read after it. -/
  | hbmRefreshScrub (home : CoreId) (count : Nat)
  /-- RANK_UNREACHABLE (R389). A rank unreachable for 50 ms aborts the pair and closes the group. -/
  | rankUnreachable (group : Nat) (index : Nat) (rank : Nat)
  /-- POWER_BUDGET_MESSAGE (R400). An 8-byte host write to PWRMSG is accepted or ignored as a budget message. -/
  | powerBudgetMessage (msg : Word)
  /-- DOORBELL_WRITE (R82). A 4-byte write to a doorbell latch proposes a new tail. -/
  | doorbellWrite (queue : Nat) (off : Nat) (size : Nat) (tail : Nat)
  /-- WORKER_FAULT (R318). A worker core faults, and its work in hand goes to another worker. -/
  | workerFault (worker : Nat)
  /-- BRING_UP_STEP_END (R402). A bring-up step ends in success or failure, and the next begins or FAIL is set. -/
  | bringUpStepEnd (ok : Bool) (dies : List (Nat × Nat))
  /-- RECOVERY_IMAGE_LOAD (R402). In recovery mode a new firmware image is accepted into board flash. -/
  | recoveryImageLoad (image : FirmwareImage)
  /-- ATTESTATION_REQUEST (R405). A mailbox request returns an attestation report signed with the identity key. -/
  | attestationRequest (nonce : BitVec 256)
  /-- UALINK_PORT_UP (R88). A UALink port reaches STATE 2 and joins the request spreading. -/
  | ualinkPortUp (port : Nat) (device : Nat)
  /-- UALINK_PORT_DOWN (R87). A UALink port leaves the up state; WDN is set and vector 0 is raised. -/
  | ualinkPortDown (port : Nat)
  /-- UALINK_ID_MISMATCH (R85). A partner reports a different pod device number; IDERR is set and the port stays down. -/
  | ualinkIdMismatch (port : Nat)
  /-- D2D_PARITY_ERROR (R366). A die-to-die word fails parity and is resent. -/
  | d2dParityError (link : Nat)
  /-- SEED_WRITE (R141). A write to ctl.seed reseeds the stream's 128 generators. -/
  | seedWrite (core : CoreId) (sec : Bool) (value : Word)
  /-- TAGS_WRITE (R96). Writing 1s to ctl.tags clears those tags and their statuses. -/
  | tagsWrite (core : CoreId) (value : Word)
  /-- CPERR_CLEAR (R96). Writing 1 to ctl.cperr.VALID clears the copy error record. -/
  | cperrClear (core : CoreId) (value : Word)
  /-- RNSSTAT_WRITE (R287). A write to ctl.rnsstat sets the counts, clears sticky flags and, with RVALID, the location record. -/
  | rnsstatWrite (core : CoreId) (value : Word)
  /-- RNS_MODE_WRITE (R279). A privileged write to ctl.rns changes MODE for later classifications. -/
  | rnsModeWrite (core : CoreId) (value : Word)
  /-- WINDOW_WRITE (R58). A privileged write to a window register changes translation for later accesses. -/
  | windowWrite (core : CoreId) (reg : BitVec 12) (value : Word)
  /-- CHK_WRITE (R372). A privileged write to ctl.chk enables checkpoints or sets the area; RB and OVF clear on 1. -/
  | chkWrite (core : CoreId) (value : Word)
  /-- SPDIAG_WRITE (R411). A write to ctl.spdiag plants a stuck slice bit or switches raw reads. -/
  | spdiagWrite (core : CoreId) (value : Word)
  /-- RINJ_WRITE (R412). A write to ctl.rinj arms or disarms a one-time plane-sum injection. -/
  | rinjWrite (core : CoreId) (value : Word)
  /-- STAT_WRITE (R162). A write to ctl.stat changes only its permitted RW fields; PRIV can only fall. -/
  | statWrite (core : CoreId) (sec : Bool) (value : Word)
  /-- REGISTER_WRITE (R4). A write to any other register applies under its fields' access codes. -/
  | registerWrite (target : RegTarget) (value : Word)
  /-- HOST_LINK_STATE_CHANGE (R86). The host link trains or retrains to L0 at some rate and width, negotiates CXL, or enters or leaves L0p, updating HLSTAT. -/
  | hostLinkStateChange (rate : BitVec 3) (width : BitVec 3) (io : Bool) (cache : Bool) (memory : Bool) (partialWidth : Bool)
  /-- LINK_REPLAY (R366). A PCIe flit or UALink link-level transfer fails its CRC and is replayed, and the port's RETRY count rises. -/
  | linkReplay (port : Option Nat)
  /-- SOFT_ERROR (R366). A stored bit in HBM, a slice, a register file, latch, ring, accumulator, plane sum or cell arithmetic is upset, to be found later by its check. -/
  | softError (place : SoftError)
  /-- REPLICA_PLACE (R68). The firmware places read copies of a stack-local page in other homes, setting RMASK in the primary home and present leaves at the copies. -/
  | replicaPlace (home : CoreId) (page : Nat) (copies : BitVec 8)
  /-- SHADOW_REPORT (R369). A floating-point shadow check reports, and a divergence becomes pending as cause 0x06. -/
  | shadowReport (core : CoreId) (sec : Bool) (tval : Word)
  /-- STRIKE_CANCEL (R389). A cancel reaches the striker and the pair is voided or aborted. -/
  | strikeCancel (group : Nat) (index : Nat)
  /-- STRIKER_TAKEOVER (R384). The standby takes over numbering 100 µs after losing contact with the striker. -/
  | strikerTakeover (striker : Nat)
  /-- FIRMWARE_LOCKSTEP_MISMATCH (R318). A mismatch stops the lock-step pair, which restarts from its journal with FWRST set. -/
  | firmwareLockstepMismatch
  /-- FUNCTION_LEVEL_RESET (R76). Stops tasks, discards queue state, clears the latches and resets the control BAR. -/
  | functionLevelReset
  /-- HOST_LINK_DOWN (R86). The host link leaves L0; WDN is set and vector 0 is raised. -/
  | hostLinkDown
  /-- POWER_GATE_ENTRY (R326). The device enters the power-gated state, setting DEVSTAT.GATED and letting the host link enter ASPM L1. -/
  | powerGateEntry
  /-- BUDGET_TICK (R401). At each 1 ms tick the firmware converts the budget into RATE, SLEW and FLOOR. -/
  | budgetTick
  /-- RESERVATION_TICK (R336). At each 1 ms tick the firmware rereads the reservation table and pre-empts borrowers. -/
  | reservationTick
  /-- POWER_ON_RESET (R402). Power-on or module reset begins the bring-up sequence. -/
  | powerOnReset
deriving DecidableEq, Repr

end Sys2Proof
end

