-- ==== Sys2Proof/WellFormed.lean ====
section
/-! DEFINITION. When an encoded instruction's fields hold values that its rule assigns (R23). -/

namespace Sys2Proof

/-- The slot classes, each with its own map of majors (R21). -/
inductive SlotClass where
  | K | S | L | V | M | C
deriving DecidableEq, Repr

/-- A control register number that R163, R410 or R412 lists. -/
def ctlListed (n : Nat) : Bool :=
  n ≤ 0x005 || n = 0x008 || n = 0x009 || n = 0x00A || n = 0x010 || n = 0x020 || n = 0x030 ||
  n = 0x040 || n = 0x041 || n = 0x042 || n = 0x050 || n = 0x0C0 || n = 0x0C1 ||
  (0x0C4 ≤ n && n ≤ 0x0C7) || n = 0x0D0 || n = 0x0D1 || n = 0x0D2 || (0x100 ≤ n && n ≤ 0x11F)

/-- A vector operand code that selects a source (R30). -/
def codeOk (c : BitVec 7) : Bool := c.toNat < 80

/-- A scope of R207 or a level of R309: 1 to 5. -/
def scopeOk (n : BitVec 3) : Bool := 1 ≤ n.toNat && n.toNat ≤ 5

/-- A register-group field names the first of four registers (R29). -/
def groupOk (s : BitVec 6) : Bool := s.toNat ≤ 60

/-- The format codes that CVT accepts with each direction (R224). -/
def cvtFmtOk (dir : BitVec 2) (f : Nat) : Bool :=
  match dir.toNat with
  | 0 => (2 ≤ f && f ≤ 6) || (8 ≤ f && f ≤ 10) || (12 ≤ f && f ≤ 14)
  | 1 => (2 ≤ f && f ≤ 5) || (8 ≤ f && f ≤ 10) || (12 ≤ f && f ≤ 14)
  | 2 => f = 0 || (2 ≤ f && f ≤ 6) || (8 ≤ f && f ≤ 15)
  | _ => f = 0 || (2 ≤ f && f ≤ 5) || (8 ≤ f && f ≤ 15)

/-- The modifier X of CVT is assigned only for floating-point targets other than FP64 (R224). -/
def cvtXOk (dir : BitVec 2) (f : Nat) (x : Bool) : Bool :=
  !x || ((dir = 1#2 || dir = 3#2) && f ≤ 5)

/-- The narrow width in bits that UNPK reads from its format code; 0 for a code it refuses (R226). -/
def unpkWidth (f : Nat) : Nat :=
  if f = 6 || f = 16 then 4
  else if f = 4 || f = 5 || f = 7 || f = 8 || f = 12 then 8
  else if f = 2 || f = 3 || f = 9 || f = 13 || f = 19 then 16
  else if f = 0 || f = 10 || f = 14 then 32
  else 0

/-- The operand fields of MSK (R223). -/
def mskOk (a b : BitVec 7) (f : BitVec 3) : Bool :=
  if f.toNat ≤ 3 then a.toNat < 8 && b.toNat < 8
  else if f.toNat = 4 then a.toNat < 8 && b = 0#7
  else f.toNat = 5 && codeOk a && b = 0#7

/-- Every field of an encoded instruction holds a value that its rule assigns (R23); true of the events. -/
def Instr.wf (i : Instr) : Bool :=
  match i with
  | .loop level _ dist => level.toNat ≤ 1 && dist != 0#14
  | .phase _ level => scopeOk level
  | .rel scope => scopeOk scope
  | .acq scope => scopeOk scope
  | .waddr _ _ _ n => n.toNat ≤ 40
  | .domj _ a off level => 2 ≤ level.toNat && level.toNat ≤ 5 && (!off || a = 0#6)
  | .rdctl _ reg => ctlListed reg.toNat
  | .wrctl _ reg => ctlListed reg.toNat
  | .chkpt _ level => 3 ≤ level.toNat && level.toNat ≤ 5
  | .mulh _ _ _ f => f.toNat ≤ 2
  | .shi _ _ w _ n => !w || n.toNat < 32
  | .cmp _ cond _ _ _ => cond.toNat ≤ 11
  | .cmpi _ cond _ _ => cond.toNat ≤ 11
  | .bfx _ _ _ w pos => pos.toNat + w.toNat + 1 ≤ 64
  | .bfi _ _ w pos => pos.toNat + w.toNat + 1 ≤ 64
  | .plog _ op _ _ _ _ => op.toNat ≤ 2
  | .rdsys _ sel => sel.toNat ≤ 10
  | .atom _ _ _ f scope _ => f.toNat ≤ 9 && scopeOk scope
  | .cas _ _ _ scope _ => scopeOk scope
  | .fadd _ a b _ _ => codeOk a && codeOk b
  | .fsub _ a b _ _ => codeOk a && codeOk b
  | .fmul _ a b _ _ => codeOk a && codeOk b
  | .fma _ a b _ _ => codeOk a && codeOk b
  | .fms _ a b _ _ => codeOk a && codeOk b
  | .fnma _ a b _ _ => codeOk a && codeOk b
  | .fmin _ a b _ _ _ => codeOk a && codeOk b
  | .fmax _ a b _ _ _ => codeOk a && codeOk b
  | .fabs _ a _ _ => codeOk a
  | .fneg _ a _ _ => codeOk a
  | .fcmp cond _ a b _ _ => cond.toNat ≤ 5 && codeOk a && codeOk b
  | .fclass _ a _ _ => codeOk a
  | .fscl _ a b _ _ => codeOk a && codeOk b
  | .iadd _ a b _ _ _ => codeOk a && codeOk b
  | .isub _ a b _ _ _ => codeOk a && codeOk b
  | .imul _ a b _ _ _ => codeOk a && codeOk b
  | .imad _ a b _ _ => codeOk a && codeOk b
  | .iand _ a b _ _ => codeOk a && codeOk b
  | .ior _ a b _ _ => codeOk a && codeOk b
  | .ixor _ a b _ _ => codeOk a && codeOk b
  | .ishl _ a b _ _ => codeOk a && codeOk b
  | .ishr _ a b _ _ => codeOk a && codeOk b
  | .isar _ a b _ _ => codeOk a && codeOk b
  | .imin _ a b _ _ _ => codeOk a && codeOk b
  | .imax _ a b _ _ _ => codeOk a && codeOk b
  | .icmp _ _ a b _ _ => codeOk a && codeOk b
  | .vSel _ a b _ _ => codeOk a && codeOk b
  | .mov _ a f _ => codeOk a && (f.toNat ≤ 1 || (8 ≤ f.toNat && f.toNat ≤ 11))
  | .cvt _ a f r x dir => codeOk a && cvtFmtOk dir f.toNat && cvtXOk dir f.toNat x && r.toNat ≤ 5
  | .mxqScale _ a _ => codeOk a
  | .mxqElem _ a r _ => codeOk a && r.toNat ≤ 5
  | .xpnd _ a f _ h => codeOk a && (f = 16#5 || ((f = 17#5 || f = 18#5) && !h))
  | .pack _ a b m f => codeOk a && codeOk b && f.toNat ≤ 3 && (f != 3#2 || m = 0#3)
  | .unpk _ a f _ _ => codeOk a && unpkWidth f.toNat != 0
  | .rcp _ a _ r _ => codeOk a && r.toNat ≤ 5
  | .rsq _ a _ r _ => codeOk a && r.toNat ≤ 5
  | .exp2 _ a _ r _ => codeOk a && r.toNat ≤ 5
  | .log2 _ a _ r _ => codeOk a && r.toNat ≤ 5
  | .sigm _ a _ r _ => codeOk a && r.toNat ≤ 5
  | .tanh _ a _ r _ => codeOk a && r.toNat ≤ 5
  | .xcl _ _ k _ => k.toNat ≤ 2
  | .perm _ _ k w x => w.toNat ≤ 2 && k.toNat ≤ 3 && x.toNat < 64 >>> w.toNat && (k != 3#3 || x = 0#6)
  | .red _ a f r _ g => codeOk a && (f.toNat ≤ 1 || f = 10#5 || f = 11#5) && g.toNat ≤ 2 &&
      (if f.toNat ≤ 1 && g = 0#2 then decide (r.toNat ≤ 4) else decide (r = 0#3))
  | .accrd _ _ _ n => n.toNat ≤ 4
  | .accwr _ _ _ n => n.toNat ≤ 4
  | .rngv _ f _ => 13 ≤ f.toNat && f.toNat ≤ 15
  | .msk _ a b f => mskOk a b f
  | .vext _ _ w i => i.toNat < 1024 >>> w.toNat
  | .chkv a b _ _ => codeOk a && codeOk b
  | .modmul _ a b _ _ => codeOk a && codeOk b
  | .resf _ a f _ _ => codeOk a && 8 ≤ f.toNat && f.toNat ≤ 15
  | .resx _ a _ _ => a.toNat ≤ 62
  | .mma _ _ _ s f _ _ _ => groupOk s && f.toNat ≤ 6
  | .mmaHold _ _ s f _ _ _ => groupOk s && f.toNat ≤ 6
  | .mmz _ s f _ _ => groupOk s && f.toNat ≤ 6
  | .mdrn _ _ r ovx _ _ f n => n.toNat ≤ 3 && f.toNat ≤ 4 && (f != 0#3 || (!ovx && r = 0#2))
  | .mmi _ _ s f _ _ _ => groupOk s && f.toNat ≤ 3
  | .rnsx _ sh n => n.toNat ≤ 4 && (n = 4#3 || sh = 0#7)
  | .rnsdeg p _ => p.toNat ≤ 8
  | .xdot _ _ s f _ _ _ => groupOk s && f.toNat ≤ 15
  | .xfin _ a _ _ => a.toNat ≤ 61
  | .cpy _ s _ _ _ _ => groupOk s
  | .cpyd _ s _ _ _ _ => groupOk s
  | .cpys _ s e _ _ _ => groupOk s && e.toNat ≤ 2
  | .ctab _ s _ _ => groupOk s
  | .colj _ s _ _ op _ => groupOk s && op.toNat ≤ 5
  | .nop => true
  | .br .. => true
  | .call .. => true
  | .ret .. => true
  | .jind .. => true
  | .waitc .. => true
  | .waitt .. => true
  | .waitany .. => true
  | .pmode .. => true
  | .halt .. => true
  | .strtHdr .. => true
  | .strtReg .. => true
  | .yieldCore .. => true
  | .trap .. => true
  | .tret => true
  | .range .. => true
  | .swprep .. => true
  | .swap .. => true
  | .add .. => true
  | .sub .. => true
  | .addi .. => true
  | .mul .. => true
  | .and .. => true
  | .or .. => true
  | .xor .. => true
  | .andn .. => true
  | .shl .. => true
  | .shr .. => true
  | .sar .. => true
  | .clz .. => true
  | .popc .. => true
  | .min .. => true
  | .max .. => true
  | .minu .. => true
  | .maxu .. => true
  | .sSel .. => true
  | .movi .. => true
  | .movhi .. => true
  | .lea .. => true
  | .pmovSet .. => true
  | .pmovPack .. => true
  | .pmovUnpk .. => true
  | .chks .. => true
  | .tfirst .. => true
  | .stset .. => true
  | .stget .. => true
  | .ld .. => true
  | .st .. => true
  | .ldv .. => true
  | .stv .. => true
  | .ldvs .. => true
  | .stvs .. => true
  | .ldg .. => true
  | .stg .. => true
  | .stnt .. => true
  | .pgreq .. => true
  | .bcast .. => true
  | .vimm .. => true
  | .slc .. => true
  | .mholdRel => true
  | .mholdChk .. => true
  | .morgAdv => true
  | .morgRd .. => true
  | .mgang .. => true
  | .mstat .. => true
  | .rnschk => true
  | .ewr .. => true
  | .ego .. => true
  | .tclr .. => true
  | .canj .. => true
  | .waitTimeout .. => true
  | .phaseArrival .. => true
  | .phaseBoundaryComplete .. => true
  | .waddrWake .. => true
  | .waddrPoll .. => true
  | .waddrTimeout .. => true
  | .yieldAnswer .. => true
  | .swprepStagingEnd .. => true
  | .checkpointCopyDone .. => true
  | .pageRequestSettled .. => true
  | .xdotDrainStart .. => true
  | .canjAnswer .. => true
  | .resultLanding .. => true
  | .mergeWaitLimit .. => true
  | .deferredTrapTake .. => true
  | .taskEnd .. => true
  | .loadDataReturn .. => true
  | .storeApplied .. => true
  | .atomicPerformed .. => true
  | .residencyAnswer .. => true
  | .poolRefill .. => true
  | .shareUnmap .. => true
  | .replicaInvalidationAck .. => true
  | .replicaFence .. => true
  | .hbmPatrolRead .. => true
  | .hbmRefreshScrub .. => true
  | .slicePatrolRead .. => true
  | .sliceWordWriteback .. => true
  | .remoteSliceRequest .. => true
  | .remoteRequestGrant .. => true
  | .peerAccessRequest .. => true
  | .jobStart .. => true
  | .jobComplete .. => true
  | .feedStep .. => true
  | .gangRendezvous .. => true
  | .tileOperationComplete .. => true
  | .drainComplete .. => true
  | .shadowReport .. => true
  | .strikeRequest .. => true
  | .strikeGo .. => true
  | .collectiveStart .. => true
  | .strikeCancel .. => true
  | .rankUnreachable .. => true
  | .strikeRequestRetry .. => true
  | .strikerTakeover .. => true
  | .taskPlace .. => true
  | .contextStage .. => true
  | .schedulerSwap .. => true
  | .cubeSwapDrainEnd .. => true
  | .spillComplete .. => true
  | .saveAreaFault .. => true
  | .spillRestart .. => true
  | .heldContextSwapIn .. => true
  | .sliceTransferEnd .. => true
  | .taskRetire .. => true
  | .rollback .. => true
  | .groupRollback .. => true
  | .dieRetire .. => true
  | .reservationTick => true
  | .budgetTick => true
  | .powerLeaseExpiry => true
  | .regulatorEvaluate .. => true
  | .thermalTripTimeout .. => true
  | .powerBudgetMessage .. => true
  | .doorbellWrite .. => true
  | .wakeComplete => true
  | .packetConsume .. => true
  | .packetPoll .. => true
  | .invokePacket .. => true
  | .loadSlotPacket .. => true
  | .loadSlotComplete .. => true
  | .unloadSlotPacket .. => true
  | .unloadSlotComplete .. => true
  | .copyPacket .. => true
  | .signalPacket .. => true
  | .waitPacket .. => true
  | .waitPacketMet .. => true
  | .waitPacketTimeout .. => true
  | .groupForm .. => true
  | .groupGrant .. => true
  | .groupReopen .. => true
  | .groupRelease .. => true
  | .groupAgreement .. => true
  | .groupAgreementTimeout .. => true
  | .groupReleaseComplete .. => true
  | .firmwareLockstepMismatch => true
  | .firmwareRestartEnd => true
  | .workerFault .. => true
  | .queuesOpen => true
  | .functionLevelReset => true
  | .powerOnReset => true
  | .bringUpStepEnd .. => true
  | .recoveryImageLoad .. => true
  | .attestationRequest .. => true
  | .hostMemoryWrite .. => true
  | .hostMemoryRead .. => true
  | .hostSnoopResponse .. => true
  | .hostLinkDown => true
  | .hostCompletionTimeout .. => true
  | .peerAccessTimeout .. => true
  | .ualinkPortUp .. => true
  | .ualinkPortDown .. => true
  | .ualinkIdMismatch .. => true
  | .ualinkTrainingTimeout .. => true
  | .d2dParityError .. => true
  | .d2dLinkFailed .. => true
  | .seedWrite .. => true
  | .tagsWrite .. => true
  | .cperrClear .. => true
  | .rnsstatWrite .. => true
  | .rnsModeWrite .. => true
  | .windowWrite .. => true
  | .chkWrite .. => true
  | .spdiagWrite .. => true
  | .rinjWrite .. => true
  | .statWrite .. => true
  | .registerWrite .. => true
  | .illegalEncoding .. => true
  | .instructionFetchFault .. => true
  | .powerGateEntry => true
  | .hostLinkStateChange .. => true
  | .linkReplay .. => true
  | .softError .. => true
  | .replicaPlace .. => true
  | .hostWindowFlushComplete .. => true

end Sys2Proof
end

