-- ==== Sys2Proof/Decode.lean ====
section
/-! DEFINITION. The decoder of slot words and bundles (R20 to R36), total on any bytes and rejecting by
name, and the encoder, written from the same formats. -/

namespace Sys2Proof

/-- Why a slot word is an illegal encoding (R23). -/
inductive DecodeError where
  /-- The major opcode is unassigned in the slot's class (R21). -/
  | unassignedMajor
  /-- Major 0 with nonzero bits 25:0 (R22). -/
  | nopBits
  /-- A form selector the owning rule does not assign. -/
  | badFunction
  /-- A reserved field is nonzero. -/
  | reservedField
  /-- A field holds a value its rule does not assign. -/
  | badField
deriving DecidableEq, Repr

/-- The slot class of slot index 0 to 7 (R20). -/
def slotClass (i : Nat) : SlotClass :=
  match i with
  | 0 => .K
  | 1 => .S
  | 2 => .L
  | 3 => .V
  | 4 => .V
  | 5 => .M
  | _ => .C

/-- The slot class in which an instruction is encoded; none for the events. NOP is given class K. -/
def Instr.slot (i : Instr) : Option SlotClass :=
  match i with
  | .nop => some .K
  | .br .. => some .K
  | .call .. => some .K
  | .ret .. => some .K
  | .jind .. => some .K
  | .loop .. => some .K
  | .waitc .. => some .K
  | .waitt .. => some .K
  | .waitany .. => some .K
  | .pmode .. => some .K
  | .halt .. => some .K
  | .phase .. => some .K
  | .rel .. => some .K
  | .acq .. => some .K
  | .waddr .. => some .K
  | .strtHdr .. => some .K
  | .strtReg .. => some .K
  | .yieldCore .. => some .K
  | .domj .. => some .K
  | .trap .. => some .K
  | .tret => some .K
  | .rdctl .. => some .K
  | .wrctl .. => some .K
  | .range .. => some .K
  | .swprep .. => some .K
  | .swap .. => some .K
  | .chkpt .. => some .K
  | .add .. => some .S
  | .sub .. => some .S
  | .addi .. => some .S
  | .mul .. => some .S
  | .mulh .. => some .S
  | .and .. => some .S
  | .or .. => some .S
  | .xor .. => some .S
  | .andn .. => some .S
  | .shl .. => some .S
  | .shr .. => some .S
  | .sar .. => some .S
  | .shi .. => some .S
  | .clz .. => some .S
  | .popc .. => some .S
  | .min .. => some .S
  | .max .. => some .S
  | .minu .. => some .S
  | .maxu .. => some .S
  | .cmp .. => some .S
  | .cmpi .. => some .S
  | .sSel .. => some .S
  | .movi .. => some .S
  | .movhi .. => some .S
  | .lea .. => some .S
  | .bfx .. => some .S
  | .bfi .. => some .S
  | .plog .. => some .S
  | .pmovSet .. => some .S
  | .pmovPack .. => some .S
  | .pmovUnpk .. => some .S
  | .chks .. => some .S
  | .rdsys .. => some .S
  | .tfirst .. => some .S
  | .stset .. => some .S
  | .stget .. => some .S
  | .ld .. => some .L
  | .st .. => some .L
  | .ldv .. => some .L
  | .stv .. => some .L
  | .ldvs .. => some .L
  | .stvs .. => some .L
  | .ldg .. => some .L
  | .stg .. => some .L
  | .stnt .. => some .L
  | .atom .. => some .L
  | .cas .. => some .L
  | .pgreq .. => some .L
  | .fadd .. => some .V
  | .fsub .. => some .V
  | .fmul .. => some .V
  | .fma .. => some .V
  | .fms .. => some .V
  | .fnma .. => some .V
  | .fmin .. => some .V
  | .fmax .. => some .V
  | .fabs .. => some .V
  | .fneg .. => some .V
  | .fcmp .. => some .V
  | .fclass .. => some .V
  | .fscl .. => some .V
  | .iadd .. => some .V
  | .isub .. => some .V
  | .imul .. => some .V
  | .imad .. => some .V
  | .iand .. => some .V
  | .ior .. => some .V
  | .ixor .. => some .V
  | .ishl .. => some .V
  | .ishr .. => some .V
  | .isar .. => some .V
  | .imin .. => some .V
  | .imax .. => some .V
  | .icmp .. => some .V
  | .vSel .. => some .V
  | .mov .. => some .V
  | .bcast .. => some .V
  | .vimm .. => some .V
  | .cvt .. => some .V
  | .mxqScale .. => some .V
  | .mxqElem .. => some .V
  | .xpnd .. => some .V
  | .pack .. => some .V
  | .unpk .. => some .V
  | .rcp .. => some .V
  | .rsq .. => some .V
  | .exp2 .. => some .V
  | .log2 .. => some .V
  | .sigm .. => some .V
  | .tanh .. => some .V
  | .xcl .. => some .V
  | .perm .. => some .V
  | .red .. => some .V
  | .accrd .. => some .V
  | .accwr .. => some .V
  | .rngv .. => some .V
  | .msk .. => some .V
  | .vext .. => some .V
  | .chkv .. => some .V
  | .modmul .. => some .V
  | .resf .. => some .V
  | .resx .. => some .V
  | .slc .. => some .V
  | .mma .. => some .M
  | .mmaHold .. => some .M
  | .mmz .. => some .M
  | .mholdRel => some .M
  | .mholdChk .. => some .M
  | .morgAdv => some .M
  | .morgRd .. => some .M
  | .mgang .. => some .M
  | .mdrn .. => some .M
  | .mstat .. => some .M
  | .mmi .. => some .M
  | .rnsx .. => some .M
  | .rnschk => some .M
  | .rnsdeg .. => some .M
  | .xdot .. => some .M
  | .xfin .. => some .M
  | .cpy .. => some .C
  | .cpyd .. => some .C
  | .cpys .. => some .C
  | .ctab .. => some .C
  | .ewr .. => some .C
  | .ego .. => some .C
  | .tclr .. => some .C
  | .colj .. => some .C
  | .canj .. => some .C
  | .waitTimeout .. => none
  | .phaseArrival .. => none
  | .phaseBoundaryComplete .. => none
  | .waddrWake .. => none
  | .waddrPoll .. => none
  | .waddrTimeout .. => none
  | .yieldAnswer .. => none
  | .swprepStagingEnd .. => none
  | .checkpointCopyDone .. => none
  | .pageRequestSettled .. => none
  | .xdotDrainStart .. => none
  | .canjAnswer .. => none
  | .resultLanding .. => none
  | .mergeWaitLimit .. => none
  | .deferredTrapTake .. => none
  | .taskEnd .. => none
  | .loadDataReturn .. => none
  | .storeApplied .. => none
  | .atomicPerformed .. => none
  | .residencyAnswer .. => none
  | .poolRefill .. => none
  | .shareUnmap .. => none
  | .replicaInvalidationAck .. => none
  | .replicaFence .. => none
  | .hbmPatrolRead .. => none
  | .hbmRefreshScrub .. => none
  | .slicePatrolRead .. => none
  | .sliceWordWriteback .. => none
  | .remoteSliceRequest .. => none
  | .remoteRequestGrant .. => none
  | .peerAccessRequest .. => none
  | .jobStart .. => none
  | .jobComplete .. => none
  | .feedStep .. => none
  | .gangRendezvous .. => none
  | .tileOperationComplete .. => none
  | .drainComplete .. => none
  | .shadowReport .. => none
  | .strikeRequest .. => none
  | .strikeGo .. => none
  | .collectiveStart .. => none
  | .strikeCancel .. => none
  | .rankUnreachable .. => none
  | .strikeRequestRetry .. => none
  | .strikerTakeover .. => none
  | .taskPlace .. => none
  | .contextStage .. => none
  | .schedulerSwap .. => none
  | .cubeSwapDrainEnd .. => none
  | .spillComplete .. => none
  | .saveAreaFault .. => none
  | .spillRestart .. => none
  | .heldContextSwapIn .. => none
  | .sliceTransferEnd .. => none
  | .taskRetire .. => none
  | .rollback .. => none
  | .groupRollback .. => none
  | .dieRetire .. => none
  | .reservationTick => none
  | .budgetTick => none
  | .powerLeaseExpiry => none
  | .regulatorEvaluate .. => none
  | .thermalTripTimeout .. => none
  | .powerBudgetMessage .. => none
  | .doorbellWrite .. => none
  | .wakeComplete => none
  | .packetConsume .. => none
  | .packetPoll .. => none
  | .invokePacket .. => none
  | .loadSlotPacket .. => none
  | .loadSlotComplete .. => none
  | .unloadSlotPacket .. => none
  | .unloadSlotComplete .. => none
  | .copyPacket .. => none
  | .signalPacket .. => none
  | .waitPacket .. => none
  | .waitPacketMet .. => none
  | .waitPacketTimeout .. => none
  | .groupForm .. => none
  | .groupGrant .. => none
  | .groupReopen .. => none
  | .groupRelease .. => none
  | .groupAgreement .. => none
  | .groupAgreementTimeout .. => none
  | .groupReleaseComplete .. => none
  | .firmwareLockstepMismatch => none
  | .firmwareRestartEnd => none
  | .workerFault .. => none
  | .queuesOpen => none
  | .functionLevelReset => none
  | .powerOnReset => none
  | .bringUpStepEnd .. => none
  | .recoveryImageLoad .. => none
  | .attestationRequest .. => none
  | .hostMemoryWrite .. => none
  | .hostMemoryRead .. => none
  | .hostSnoopResponse .. => none
  | .hostLinkDown => none
  | .hostCompletionTimeout .. => none
  | .peerAccessTimeout .. => none
  | .ualinkPortUp .. => none
  | .ualinkPortDown .. => none
  | .ualinkIdMismatch .. => none
  | .ualinkTrainingTimeout .. => none
  | .d2dParityError .. => none
  | .d2dLinkFailed .. => none
  | .seedWrite .. => none
  | .tagsWrite .. => none
  | .cperrClear .. => none
  | .rnsstatWrite .. => none
  | .rnsModeWrite .. => none
  | .windowWrite .. => none
  | .chkWrite .. => none
  | .spdiagWrite .. => none
  | .rinjWrite .. => none
  | .statWrite .. => none
  | .registerWrite .. => none
  | .illegalEncoding .. => none
  | .instructionFetchFault .. => none
  | .powerGateEntry => none
  | .hostLinkStateChange .. => none
  | .linkReplay .. => none
  | .softError .. => none
  | .replicaPlace .. => none
  | .hostWindowFlushComplete .. => none

/-- The slot word of an instruction: its major, its fields and zeros in the reserved places (R26 to R36). -/
def encode (i : Instr) : Option SlotWord :=
  match i with
  | .nop => some (0#32)
  | .br p neg off => some (1#6 ++ p ++ BitVec.ofBool neg ++ off)
  | .call p neg off => some (2#6 ++ p ++ BitVec.ofBool neg ++ off)
  | .ret p neg => some (3#6 ++ p ++ BitVec.ofBool neg ++ 0#22)
  | .jind d a => some (4#6 ++ d ++ a ++ 0#14)
  | .loop level a dist => some (5#6 ++ level ++ a ++ dist)
  | .waitc ld st cp tl at_ => some (6#6 ++ ld ++ st ++ cp ++ tl ++ at_ ++ 0#1)
  | .waitt d a b clr => some (7#6 ++ d ++ a ++ b ++ 0#7 ++ BitVec.ofBool clr)
  | .waitany d a b clr => some (8#6 ++ d ++ a ++ b ++ 0#7 ++ BitVec.ofBool clr)
  | .pmode inter => some (9#6 ++ 0#25 ++ BitVec.ofBool inter)
  | .halt code => some (10#6 ++ 0#12 ++ code)
  | .phase d level => some (11#6 ++ d ++ 0#17 ++ level)
  | .rel scope => some (12#6 ++ 0#23 ++ scope)
  | .acq scope => some (13#6 ++ 0#23 ++ scope)
  | .waddr d a b n => some (14#6 ++ d ++ a ++ b ++ 0#2 ++ n)
  | .strtHdr d => some (15#6 ++ d ++ 0#20)
  | .strtReg d a => some (15#6 ++ d ++ a ++ 1#14)
  | .yieldCore d floor => some (16#6 ++ d ++ 0#14 ++ floor)
  | .domj d a off level => some (17#6 ++ d ++ a ++ 0#10 ++ BitVec.ofBool off ++ level)
  | .trap a code => some (18#6 ++ 0#6 ++ a ++ code)
  | .tret => some (19#6 ++ 0#26)
  | .rdctl d reg => some (20#6 ++ d ++ 0#8 ++ reg)
  | .wrctl a reg => some (21#6 ++ 0#6 ++ a ++ 0#2 ++ reg)
  | .range d a b w r t => some (22#6 ++ d ++ a ++ b ++ 0#5 ++ BitVec.ofBool w ++ BitVec.ofBool r ++ BitVec.ofBool t)
  | .swprep d a b => some (23#6 ++ d ++ a ++ b ++ 0#8)
  | .swap d => some (24#6 ++ d ++ 0#20)
  | .chkpt d level => some (25#6 ++ d ++ 0#17 ++ level)
  | .add d a b sat w => some (1#6 ++ d ++ a ++ b ++ 0#6 ++ BitVec.ofBool sat ++ BitVec.ofBool w)
  | .sub d a b sat w => some (2#6 ++ d ++ a ++ b ++ 0#6 ++ BitVec.ofBool sat ++ BitVec.ofBool w)
  | .addi d a imm => some (3#6 ++ d ++ a ++ imm)
  | .mul d a b w => some (4#6 ++ d ++ a ++ b ++ 0#7 ++ BitVec.ofBool w)
  | .mulh d a b f => some (5#6 ++ d ++ a ++ b ++ 0#6 ++ f)
  | .and d a b => some (6#6 ++ d ++ a ++ b ++ 0#8)
  | .or d a b => some (7#6 ++ d ++ a ++ b ++ 0#8)
  | .xor d a b => some (8#6 ++ d ++ a ++ b ++ 0#8)
  | .andn d a b => some (9#6 ++ d ++ a ++ b ++ 0#8)
  | .shl d a b w => some (10#6 ++ d ++ a ++ b ++ 0#7 ++ BitVec.ofBool w)
  | .shr d a b w => some (11#6 ++ d ++ a ++ b ++ 0#7 ++ BitVec.ofBool w)
  | .sar d a b w => some (12#6 ++ d ++ a ++ b ++ 0#7 ++ BitVec.ofBool w)
  | .shi d a w k n => some (13#6 ++ d ++ a ++ 0#5 ++ BitVec.ofBool w ++ k ++ n)
  | .clz d a w => some (14#6 ++ d ++ a ++ 0#13 ++ BitVec.ofBool w)
  | .popc d a w => some (15#6 ++ d ++ a ++ 0#13 ++ BitVec.ofBool w)
  | .min d a b => some (16#6 ++ d ++ a ++ b ++ 0#8)
  | .max d a b => some (17#6 ++ d ++ a ++ b ++ 0#8)
  | .minu d a b => some (18#6 ++ d ++ a ++ b ++ 0#8)
  | .maxu d a b => some (19#6 ++ d ++ a ++ b ++ 0#8)
  | .cmp p cond a b w => some (20#6 ++ p ++ cond ++ a ++ b ++ 0#6 ++ BitVec.ofBool w)
  | .cmpi p cond a imm => some (21#6 ++ p ++ cond ++ a ++ imm)
  | .sSel d a b neg n => some (22#6 ++ d ++ a ++ b ++ 0#4 ++ BitVec.ofBool neg ++ n)
  | .movi d imm => some (23#6 ++ d ++ imm)
  | .movhi d q chunk => some (24#6 ++ d ++ 0#2 ++ q ++ chunk)
  | .lea d a b sh => some (25#6 ++ d ++ a ++ b ++ 0#5 ++ sh)
  | .bfx d a s w pos => some (26#6 ++ d ++ a ++ 0#1 ++ BitVec.ofBool s ++ w ++ pos)
  | .bfi d a w pos => some (27#6 ++ d ++ a ++ 0#2 ++ w ++ pos)
  | .plog p op na a nb b => some (28#6 ++ p ++ op ++ 0#2 ++ BitVec.ofBool na ++ a ++ 0#2 ++ BitVec.ofBool nb ++ b ++ 0#7)
  | .pmovSet p a => some (29#6 ++ p ++ 0#4 ++ a ++ 0#13)
  | .pmovPack b => some (29#6 ++ 0#13 ++ b ++ 1#7)
  | .pmovUnpk a => some (29#6 ++ 0#7 ++ a ++ 2#13)
  | .chks a b => some (30#6 ++ 0#6 ++ a ++ b ++ 0#8)
  | .rdsys d sel => some (31#6 ++ d ++ 0#6 ++ sel)
  | .tfirst d a clr => some (32#6 ++ d ++ a ++ 0#13 ++ BitVec.ofBool clr)
  | .stset a w n => some (33#6 ++ 0#6 ++ a ++ 0#7 ++ w ++ n)
  | .stget d w n => some (34#6 ++ d ++ 0#13 ++ w ++ n)
  | .ld d base cls sz off => some (1#6 ++ d ++ base ++ cls ++ sz ++ off)
  | .st d base cls sz off => some (2#6 ++ d ++ base ++ cls ++ sz ++ off)
  | .ldv d base cls m sz off => some (3#6 ++ d ++ base ++ cls ++ m ++ sz ++ off)
  | .stv d base cls m sz off => some (4#6 ++ d ++ base ++ cls ++ m ++ sz ++ off)
  | .ldvs d base cls m sz k => some (5#6 ++ d ++ base ++ cls ++ m ++ sz ++ k)
  | .stvs d base cls m sz k => some (6#6 ++ d ++ base ++ cls ++ m ++ sz ++ k)
  | .ldg d base cls sz off => some (7#6 ++ d ++ base ++ cls ++ sz ++ off)
  | .stg d base cls sz off => some (8#6 ++ d ++ base ++ cls ++ sz ++ off)
  | .stnt d base cls sz off => some (9#6 ++ d ++ base ++ cls ++ sz ++ off)
  | .atom d a b f scope w => some (10#6 ++ d ++ a ++ b ++ f ++ scope ++ BitVec.ofBool w)
  | .cas d a b scope w => some (11#6 ++ d ++ a ++ b ++ 0#4 ++ scope ++ BitVec.ofBool w)
  | .pgreq d a b wr => some (12#6 ++ d ++ a ++ b ++ 0#3 ++ BitVec.ofBool wr ++ 0#4)
  | .fadd d a b m t => some (1#6 ++ d ++ a ++ b ++ m ++ 0#2 ++ BitVec.ofBool t)
  | .fsub d a b m t => some (2#6 ++ d ++ a ++ b ++ m ++ 0#2 ++ BitVec.ofBool t)
  | .fmul d a b m t => some (3#6 ++ d ++ a ++ b ++ m ++ 0#2 ++ BitVec.ofBool t)
  | .fma d a b c t => some (4#6 ++ d ++ a ++ b ++ c ++ BitVec.ofBool t)
  | .fms d a b c t => some (5#6 ++ d ++ a ++ b ++ c ++ BitVec.ofBool t)
  | .fnma d a b c t => some (6#6 ++ d ++ a ++ b ++ c ++ BitVec.ofBool t)
  | .fmin d a b m num t => some (7#6 ++ d ++ a ++ b ++ m ++ 0#1 ++ BitVec.ofBool num ++ BitVec.ofBool t)
  | .fmax d a b m num t => some (8#6 ++ d ++ a ++ b ++ m ++ 0#1 ++ BitVec.ofBool num ++ BitVec.ofBool t)
  | .fabs d a t m => some (9#6 ++ d ++ a ++ 0#4 ++ BitVec.ofBool t ++ 0#3 ++ m ++ 0#2)
  | .fneg d a t m => some (10#6 ++ d ++ a ++ 0#4 ++ BitVec.ofBool t ++ 0#3 ++ m ++ 0#2)
  | .fcmp cond k a b m t => some (11#6 ++ cond ++ k ++ a ++ b ++ m ++ 0#2 ++ BitVec.ofBool t)
  | .fclass d a t m => some (12#6 ++ d ++ a ++ 0#4 ++ BitVec.ofBool t ++ 0#3 ++ m ++ 0#2)
  | .fscl d a b m t => some (13#6 ++ d ++ a ++ b ++ m ++ 0#2 ++ BitVec.ofBool t)
  | .iadd d a b m sat w => some (14#6 ++ d ++ a ++ b ++ m ++ BitVec.ofBool sat ++ w)
  | .isub d a b m sat w => some (15#6 ++ d ++ a ++ b ++ m ++ BitVec.ofBool sat ++ w)
  | .imul d a b m hi w => some (16#6 ++ d ++ a ++ b ++ m ++ BitVec.ofBool hi ++ w)
  | .imad d a b c w => some (17#6 ++ d ++ a ++ b ++ c ++ BitVec.ofBool w)
  | .iand d a b m w => some (18#6 ++ d ++ a ++ b ++ m ++ 0#1 ++ w)
  | .ior d a b m w => some (19#6 ++ d ++ a ++ b ++ m ++ 0#1 ++ w)
  | .ixor d a b m w => some (20#6 ++ d ++ a ++ b ++ m ++ 0#1 ++ w)
  | .ishl d a b m w => some (21#6 ++ d ++ a ++ b ++ m ++ 0#1 ++ w)
  | .ishr d a b m w => some (22#6 ++ d ++ a ++ b ++ m ++ 0#1 ++ w)
  | .isar d a b m w => some (23#6 ++ d ++ a ++ b ++ m ++ 0#1 ++ w)
  | .imin d a b m u w => some (24#6 ++ d ++ a ++ b ++ m ++ BitVec.ofBool u ++ w)
  | .imax d a b m u w => some (25#6 ++ d ++ a ++ b ++ m ++ BitVec.ofBool u ++ w)
  | .icmp cond k a b m w => some (26#6 ++ cond ++ k ++ a ++ b ++ m ++ 0#1 ++ w)
  | .vSel d a b m w => some (27#6 ++ d ++ a ++ b ++ m ++ 0#1 ++ w)
  | .mov d a f m => some (28#6 ++ d ++ a ++ f ++ 0#3 ++ m ++ 0#2)
  | .bcast d s w => some (29#6 ++ d ++ s ++ 0#12 ++ w)
  | .vimm d w imm => some (30#6 ++ d ++ 0#4 ++ w ++ imm)
  | .cvt d a f r x dir => some (31#6 ++ d ++ a ++ f ++ r ++ 0#2 ++ BitVec.ofBool x ++ dir)
  | .mxqScale d a m => some (32#6 ++ d ++ a ++ 48#8 ++ m ++ 0#2)
  | .mxqElem d a r m => some (32#6 ++ d ++ a ++ 6#5 ++ r ++ m ++ 1#2)
  | .xpnd d a f m h => some (33#6 ++ d ++ a ++ f ++ 0#3 ++ m ++ 0#1 ++ BitVec.ofBool h)
  | .pack d a b m f => some (34#6 ++ d ++ a ++ b ++ m ++ 0#1 ++ f)
  | .unpk d a f m h => some (35#6 ++ d ++ a ++ f ++ 0#3 ++ m ++ 0#1 ++ BitVec.ofBool h)
  | .rcp d a t r m => some (36#6 ++ d ++ a ++ 0#4 ++ BitVec.ofBool t ++ r ++ m ++ 0#2)
  | .rsq d a t r m => some (37#6 ++ d ++ a ++ 0#4 ++ BitVec.ofBool t ++ r ++ m ++ 0#2)
  | .exp2 d a t r m => some (38#6 ++ d ++ a ++ 0#4 ++ BitVec.ofBool t ++ r ++ m ++ 0#2)
  | .log2 d a t r m => some (39#6 ++ d ++ a ++ 0#4 ++ BitVec.ofBool t ++ r ++ m ++ 0#2)
  | .sigm d a t r m => some (40#6 ++ d ++ a ++ 0#4 ++ BitVec.ofBool t ++ r ++ m ++ 0#2)
  | .tanh d a t r m => some (41#6 ++ d ++ a ++ 0#4 ++ BitVec.ofBool t ++ r ++ m ++ 0#2)
  | .xcl d a k x => some (42#6 ++ d ++ a ++ 0#6 ++ k ++ 0#3 ++ x)
  | .perm d a k w x => some (43#6 ++ d ++ a ++ 0#3 ++ k ++ w ++ x)
  | .red d a f r m g => some (44#6 ++ d ++ a ++ f ++ r ++ m ++ g)
  | .accrd d s off n => some (45#6 ++ d ++ s ++ off ++ n)
  | .accwr v s off n => some (46#6 ++ v ++ s ++ off ++ n)
  | .rngv d f m => some (47#6 ++ d ++ 0#7 ++ f ++ 0#3 ++ m ++ 0#2)
  | .msk k a b f => some (48#6 ++ 0#3 ++ k ++ a ++ b ++ 0#3 ++ f)
  | .vext d s w i => some (49#6 ++ d ++ s ++ 0#2 ++ w ++ i)
  | .chkv a b m w => some (50#6 ++ 0#6 ++ a ++ b ++ m ++ 0#1 ++ w)
  | .modmul d a b c h => some (51#6 ++ d ++ a ++ b ++ c ++ BitVec.ofBool h)
  | .resf d a f m h => some (52#6 ++ d ++ a ++ f ++ 0#3 ++ m ++ 0#1 ++ BitVec.ofBool h)
  | .resx d a m deg => some (53#6 ++ d ++ a ++ 88#8 ++ m ++ 0#1 ++ BitVec.ofBool deg)
  | .slc d s n v => some (54#6 ++ d ++ s ++ 0#6 ++ n ++ v)
  | .mma acc a b s f g adv z => some (1#6 ++ acc ++ a ++ b ++ s ++ f ++ 0#1 ++ BitVec.ofBool g ++ BitVec.ofBool adv ++ 0#1 ++ BitVec.ofBool z)
  | .mmaHold acc a s f g adv z => some (1#6 ++ acc ++ a ++ 0#4 ++ s ++ f ++ 0#1 ++ BitVec.ofBool g ++ BitVec.ofBool adv ++ 1#1 ++ BitVec.ofBool z)
  | .mmz b s f g adv => some (2#6 ++ 0#6 ++ b ++ s ++ f ++ 0#1 ++ BitVec.ofBool g ++ BitVec.ofBool adv ++ 0#2)
  | .mholdRel => some (3#6 ++ 0#26)
  | .mholdChk d => some (3#6 ++ d ++ 1#20)
  | .morgAdv => some (4#6 ++ 0#26)
  | .morgRd d => some (4#6 ++ d ++ 1#20)
  | .mgang d cfg => some (5#6 ++ d ++ 0#18 ++ cfg)
  | .mdrn t a r ovx adv clr f n => some (6#6 ++ 0#2 ++ t ++ a ++ 0#3 ++ r ++ BitVec.ofBool ovx ++ BitVec.ofBool adv ++ BitVec.ofBool clr ++ f ++ n)
  | .mstat d clr sel => some (7#6 ++ d ++ 0#6 ++ BitVec.ofBool clr ++ 0#12 ++ BitVec.ofBool sel)
  | .mmi a b s f g adv z => some (8#6 ++ 0#2 ++ a ++ b ++ s ++ f ++ 0#1 ++ BitVec.ofBool g ++ BitVec.ofBool adv ++ 0#1 ++ BitVec.ofBool z)
  | .rnsx z sh n => some (9#6 ++ 0#15 ++ BitVec.ofBool z ++ sh ++ n)
  | .rnschk => some (10#6 ++ 0#26)
  | .rnsdeg p g => some (11#6 ++ 0#21 ++ p ++ BitVec.ofBool g)
  | .xdot a b s f g adv z => some (12#6 ++ 0#2 ++ a ++ b ++ s ++ f ++ 0#1 ++ BitVec.ofBool g ++ BitVec.ofBool adv ++ 0#1 ++ BitVec.ofBool z)
  | .xfin t a adv clr => some (13#6 ++ 0#2 ++ t ++ a ++ 0#12 ++ BitVec.ofBool adv ++ BitVec.ofBool clr)
  | .cpy t s z span nt cls => some (1#6 ++ t ++ s ++ 0#3 ++ BitVec.ofBool z ++ BitVec.ofBool span ++ BitVec.ofBool nt ++ cls ++ 0#5)
  | .cpyd t s slot span nt cls => some (2#6 ++ t ++ s ++ slot ++ BitVec.ofBool span ++ BitVec.ofBool nt ++ cls ++ 0#5)
  | .cpys t s e span nt cls => some (3#6 ++ t ++ s ++ 0#2 ++ e ++ BitVec.ofBool span ++ BitVec.ofBool nt ++ cls ++ 0#5)
  | .ctab t s slot cls => some (4#6 ++ t ++ s ++ 0#2 ++ slot ++ cls ++ 0#5)
  | .ewr e a imm => some (5#6 ++ 0#2 ++ e ++ a ++ imm)
  | .ego t => some (6#6 ++ t ++ 0#20)
  | .tclr d a => some (7#6 ++ d ++ a ++ 0#14)
  | .colj t s span nt op cls => some (8#6 ++ t ++ s ++ 0#1 ++ BitVec.ofBool span ++ BitVec.ofBool nt ++ op ++ cls ++ 0#5)
  | .canj d tag => some (9#6 ++ d ++ 0#14 ++ tag)
  | .waitTimeout .. => none
  | .phaseArrival .. => none
  | .phaseBoundaryComplete .. => none
  | .waddrWake .. => none
  | .waddrPoll .. => none
  | .waddrTimeout .. => none
  | .yieldAnswer .. => none
  | .swprepStagingEnd .. => none
  | .checkpointCopyDone .. => none
  | .pageRequestSettled .. => none
  | .xdotDrainStart .. => none
  | .canjAnswer .. => none
  | .resultLanding .. => none
  | .mergeWaitLimit .. => none
  | .deferredTrapTake .. => none
  | .taskEnd .. => none
  | .loadDataReturn .. => none
  | .storeApplied .. => none
  | .atomicPerformed .. => none
  | .residencyAnswer .. => none
  | .poolRefill .. => none
  | .shareUnmap .. => none
  | .replicaInvalidationAck .. => none
  | .replicaFence .. => none
  | .hbmPatrolRead .. => none
  | .hbmRefreshScrub .. => none
  | .slicePatrolRead .. => none
  | .sliceWordWriteback .. => none
  | .remoteSliceRequest .. => none
  | .remoteRequestGrant .. => none
  | .peerAccessRequest .. => none
  | .jobStart .. => none
  | .jobComplete .. => none
  | .feedStep .. => none
  | .gangRendezvous .. => none
  | .tileOperationComplete .. => none
  | .drainComplete .. => none
  | .shadowReport .. => none
  | .strikeRequest .. => none
  | .strikeGo .. => none
  | .collectiveStart .. => none
  | .strikeCancel .. => none
  | .rankUnreachable .. => none
  | .strikeRequestRetry .. => none
  | .strikerTakeover .. => none
  | .taskPlace .. => none
  | .contextStage .. => none
  | .schedulerSwap .. => none
  | .cubeSwapDrainEnd .. => none
  | .spillComplete .. => none
  | .saveAreaFault .. => none
  | .spillRestart .. => none
  | .heldContextSwapIn .. => none
  | .sliceTransferEnd .. => none
  | .taskRetire .. => none
  | .rollback .. => none
  | .groupRollback .. => none
  | .dieRetire .. => none
  | .reservationTick => none
  | .budgetTick => none
  | .powerLeaseExpiry => none
  | .regulatorEvaluate .. => none
  | .thermalTripTimeout .. => none
  | .powerBudgetMessage .. => none
  | .doorbellWrite .. => none
  | .wakeComplete => none
  | .packetConsume .. => none
  | .packetPoll .. => none
  | .invokePacket .. => none
  | .loadSlotPacket .. => none
  | .loadSlotComplete .. => none
  | .unloadSlotPacket .. => none
  | .unloadSlotComplete .. => none
  | .copyPacket .. => none
  | .signalPacket .. => none
  | .waitPacket .. => none
  | .waitPacketMet .. => none
  | .waitPacketTimeout .. => none
  | .groupForm .. => none
  | .groupGrant .. => none
  | .groupReopen .. => none
  | .groupRelease .. => none
  | .groupAgreement .. => none
  | .groupAgreementTimeout .. => none
  | .groupReleaseComplete .. => none
  | .firmwareLockstepMismatch => none
  | .firmwareRestartEnd => none
  | .workerFault .. => none
  | .queuesOpen => none
  | .functionLevelReset => none
  | .powerOnReset => none
  | .bringUpStepEnd .. => none
  | .recoveryImageLoad .. => none
  | .attestationRequest .. => none
  | .hostMemoryWrite .. => none
  | .hostMemoryRead .. => none
  | .hostSnoopResponse .. => none
  | .hostLinkDown => none
  | .hostCompletionTimeout .. => none
  | .peerAccessTimeout .. => none
  | .ualinkPortUp .. => none
  | .ualinkPortDown .. => none
  | .ualinkIdMismatch .. => none
  | .ualinkTrainingTimeout .. => none
  | .d2dParityError .. => none
  | .d2dLinkFailed .. => none
  | .seedWrite .. => none
  | .tagsWrite .. => none
  | .cperrClear .. => none
  | .rnsstatWrite .. => none
  | .rnsModeWrite .. => none
  | .windowWrite .. => none
  | .chkWrite .. => none
  | .spdiagWrite .. => none
  | .rinjWrite .. => none
  | .statWrite .. => none
  | .registerWrite .. => none
  | .illegalEncoding .. => none
  | .instructionFetchFault .. => none
  | .powerGateEntry => none
  | .hostLinkStateChange .. => none
  | .linkReplay .. => none
  | .softError .. => none
  | .replicaPlace .. => none
  | .hostWindowFlushComplete .. => none

/-- The instruction that the fields of a class K word spell (R32). -/
def parseK (w : SlotWord) : Except DecodeError Instr :=
  let f := fun (lo len : Nat) => w.extractLsb' lo len
  let b := fun (lo : Nat) => w.getLsbD lo
  match (w.extractLsb' 26 6).toNat with
  | 1 => .ok (.br (f 23 3) (b 22) (f 0 22))
  | 2 => .ok (.call (f 23 3) (b 22) (f 0 22))
  | 3 => .ok (.ret (f 23 3) (b 22))
  | 4 => .ok (.jind (f 20 6) (f 14 6))
  | 5 => .ok (.loop (f 20 6) (f 14 6) (f 0 14))
  | 6 => .ok (.waitc (f 21 5) (f 16 5) (f 11 5) (f 6 5) (f 1 5))
  | 7 => .ok (.waitt (f 20 6) (f 14 6) (f 8 6) (b 0))
  | 8 => .ok (.waitany (f 20 6) (f 14 6) (f 8 6) (b 0))
  | 9 => .ok (.pmode (b 0))
  | 10 => .ok (.halt (f 0 14))
  | 11 => .ok (.phase (f 20 6) (f 0 3))
  | 12 => .ok (.rel (f 0 3))
  | 13 => .ok (.acq (f 0 3))
  | 14 => .ok (.waddr (f 20 6) (f 14 6) (f 8 6) (f 0 6))
  | 15 => if b 0 then .ok (.strtReg (f 20 6) (f 14 6)) else .ok (.strtHdr (f 20 6))
  | 16 => .ok (.yieldCore (f 20 6) (f 0 6))
  | 17 => .ok (.domj (f 20 6) (f 14 6) (b 3) (f 0 3))
  | 18 => .ok (.trap (f 14 6) (f 0 14))
  | 19 => .ok .tret
  | 20 => .ok (.rdctl (f 20 6) (f 0 12))
  | 21 => .ok (.wrctl (f 14 6) (f 0 12))
  | 22 => .ok (.range (f 20 6) (f 14 6) (f 8 6) (b 2) (b 1) (b 0))
  | 23 => .ok (.swprep (f 20 6) (f 14 6) (f 8 6))
  | 24 => .ok (.swap (f 20 6))
  | 25 => .ok (.chkpt (f 20 6) (f 0 3))
  | _ => .error .unassignedMajor

/-- The instruction that the fields of a class S word spell (R33). -/
def parseS (w : SlotWord) : Except DecodeError Instr :=
  let f := fun (lo len : Nat) => w.extractLsb' lo len
  let b := fun (lo : Nat) => w.getLsbD lo
  match (w.extractLsb' 26 6).toNat with
  | 1 => .ok (.add (f 20 6) (f 14 6) (f 8 6) (b 1) (b 0))
  | 2 => .ok (.sub (f 20 6) (f 14 6) (f 8 6) (b 1) (b 0))
  | 3 => .ok (.addi (f 20 6) (f 14 6) (f 0 14))
  | 4 => .ok (.mul (f 20 6) (f 14 6) (f 8 6) (b 0))
  | 5 => .ok (.mulh (f 20 6) (f 14 6) (f 8 6) (f 0 2))
  | 6 => .ok (.and (f 20 6) (f 14 6) (f 8 6))
  | 7 => .ok (.or (f 20 6) (f 14 6) (f 8 6))
  | 8 => .ok (.xor (f 20 6) (f 14 6) (f 8 6))
  | 9 => .ok (.andn (f 20 6) (f 14 6) (f 8 6))
  | 10 => .ok (.shl (f 20 6) (f 14 6) (f 8 6) (b 0))
  | 11 => .ok (.shr (f 20 6) (f 14 6) (f 8 6) (b 0))
  | 12 => .ok (.sar (f 20 6) (f 14 6) (f 8 6) (b 0))
  | 13 => .ok (.shi (f 20 6) (f 14 6) (b 8) (f 6 2) (f 0 6))
  | 14 => .ok (.clz (f 20 6) (f 14 6) (b 0))
  | 15 => .ok (.popc (f 20 6) (f 14 6) (b 0))
  | 16 => .ok (.min (f 20 6) (f 14 6) (f 8 6))
  | 17 => .ok (.max (f 20 6) (f 14 6) (f 8 6))
  | 18 => .ok (.minu (f 20 6) (f 14 6) (f 8 6))
  | 19 => .ok (.maxu (f 20 6) (f 14 6) (f 8 6))
  | 20 => .ok (.cmp (f 23 3) (f 19 4) (f 13 6) (f 7 6) (b 0))
  | 21 => .ok (.cmpi (f 23 3) (f 19 4) (f 13 6) (f 0 13))
  | 22 => .ok (.sSel (f 20 6) (f 14 6) (f 8 6) (b 3) (f 0 3))
  | 23 => .ok (.movi (f 20 6) (f 0 20))
  | 24 => .ok (.movhi (f 20 6) (f 16 2) (f 0 16))
  | 25 => .ok (.lea (f 20 6) (f 14 6) (f 8 6) (f 0 3))
  | 26 => .ok (.bfx (f 20 6) (f 14 6) (b 12) (f 6 6) (f 0 6))
  | 27 => .ok (.bfi (f 20 6) (f 14 6) (f 6 6) (f 0 6))
  | 28 => .ok (.plog (f 23 3) (f 19 4) (b 16) (f 13 3) (b 10) (f 7 3))
  | 29 => if f 0 7 = 0#7 then .ok (.pmovSet (f 23 3) (f 13 6)) else if f 0 7 = 1#7 then .ok (.pmovPack (f 7 6)) else if f 0 7 = 2#7 then .ok (.pmovUnpk (f 13 6)) else .error .badFunction
  | 30 => .ok (.chks (f 14 6) (f 8 6))
  | 31 => .ok (.rdsys (f 20 6) (f 0 14))
  | 32 => .ok (.tfirst (f 20 6) (f 14 6) (b 0))
  | 33 => .ok (.stset (f 14 6) (f 4 3) (f 0 4))
  | 34 => .ok (.stget (f 20 6) (f 4 3) (f 0 4))
  | _ => .error .unassignedMajor

/-- The instruction that the fields of a class L word spell (R34). -/
def parseL (w : SlotWord) : Except DecodeError Instr :=
  let f := fun (lo len : Nat) => w.extractLsb' lo len
  let b := fun (lo : Nat) => w.getLsbD lo
  match (w.extractLsb' 26 6).toNat with
  | 1 => .ok (.ld (f 20 6) (f 14 6) (f 11 3) (f 9 2) (f 0 9))
  | 2 => .ok (.st (f 20 6) (f 14 6) (f 11 3) (f 9 2) (f 0 9))
  | 3 => .ok (.ldv (f 20 6) (f 14 6) (f 11 3) (f 8 3) (f 6 2) (f 0 6))
  | 4 => .ok (.stv (f 20 6) (f 14 6) (f 11 3) (f 8 3) (f 6 2) (f 0 6))
  | 5 => .ok (.ldvs (f 20 6) (f 14 6) (f 11 3) (f 8 3) (f 6 2) (f 0 6))
  | 6 => .ok (.stvs (f 20 6) (f 14 6) (f 11 3) (f 8 3) (f 6 2) (f 0 6))
  | 7 => .ok (.ldg (f 20 6) (f 14 6) (f 11 3) (f 9 2) (f 0 9))
  | 8 => .ok (.stg (f 20 6) (f 14 6) (f 11 3) (f 9 2) (f 0 9))
  | 9 => .ok (.stnt (f 20 6) (f 14 6) (f 11 3) (f 9 2) (f 0 9))
  | 10 => .ok (.atom (f 20 6) (f 14 6) (f 8 6) (f 4 4) (f 1 3) (b 0))
  | 11 => .ok (.cas (f 20 6) (f 14 6) (f 8 6) (f 1 3) (b 0))
  | 12 => .ok (.pgreq (f 20 6) (f 14 6) (f 8 6) (b 4))
  | _ => .error .unassignedMajor

/-- The instruction that the fields of a class V word spell (R35). -/
def parseV (w : SlotWord) : Except DecodeError Instr :=
  let f := fun (lo len : Nat) => w.extractLsb' lo len
  let b := fun (lo : Nat) => w.getLsbD lo
  match (w.extractLsb' 26 6).toNat with
  | 1 => .ok (.fadd (f 20 6) (f 13 7) (f 6 7) (f 3 3) (b 0))
  | 2 => .ok (.fsub (f 20 6) (f 13 7) (f 6 7) (f 3 3) (b 0))
  | 3 => .ok (.fmul (f 20 6) (f 13 7) (f 6 7) (f 3 3) (b 0))
  | 4 => .ok (.fma (f 20 6) (f 13 7) (f 6 7) (f 1 5) (b 0))
  | 5 => .ok (.fms (f 20 6) (f 13 7) (f 6 7) (f 1 5) (b 0))
  | 6 => .ok (.fnma (f 20 6) (f 13 7) (f 6 7) (f 1 5) (b 0))
  | 7 => .ok (.fmin (f 20 6) (f 13 7) (f 6 7) (f 3 3) (b 1) (b 0))
  | 8 => .ok (.fmax (f 20 6) (f 13 7) (f 6 7) (f 3 3) (b 1) (b 0))
  | 9 => .ok (.fabs (f 20 6) (f 13 7) (b 8) (f 2 3))
  | 10 => .ok (.fneg (f 20 6) (f 13 7) (b 8) (f 2 3))
  | 11 => .ok (.fcmp (f 23 3) (f 20 3) (f 13 7) (f 6 7) (f 3 3) (b 0))
  | 12 => .ok (.fclass (f 20 6) (f 13 7) (b 8) (f 2 3))
  | 13 => .ok (.fscl (f 20 6) (f 13 7) (f 6 7) (f 3 3) (b 0))
  | 14 => .ok (.iadd (f 20 6) (f 13 7) (f 6 7) (f 3 3) (b 2) (f 0 2))
  | 15 => .ok (.isub (f 20 6) (f 13 7) (f 6 7) (f 3 3) (b 2) (f 0 2))
  | 16 => .ok (.imul (f 20 6) (f 13 7) (f 6 7) (f 3 3) (b 2) (f 0 2))
  | 17 => .ok (.imad (f 20 6) (f 13 7) (f 6 7) (f 1 5) (b 0))
  | 18 => .ok (.iand (f 20 6) (f 13 7) (f 6 7) (f 3 3) (f 0 2))
  | 19 => .ok (.ior (f 20 6) (f 13 7) (f 6 7) (f 3 3) (f 0 2))
  | 20 => .ok (.ixor (f 20 6) (f 13 7) (f 6 7) (f 3 3) (f 0 2))
  | 21 => .ok (.ishl (f 20 6) (f 13 7) (f 6 7) (f 3 3) (f 0 2))
  | 22 => .ok (.ishr (f 20 6) (f 13 7) (f 6 7) (f 3 3) (f 0 2))
  | 23 => .ok (.isar (f 20 6) (f 13 7) (f 6 7) (f 3 3) (f 0 2))
  | 24 => .ok (.imin (f 20 6) (f 13 7) (f 6 7) (f 3 3) (b 2) (f 0 2))
  | 25 => .ok (.imax (f 20 6) (f 13 7) (f 6 7) (f 3 3) (b 2) (f 0 2))
  | 26 => .ok (.icmp (f 23 3) (f 20 3) (f 13 7) (f 6 7) (f 3 3) (f 0 2))
  | 27 => .ok (.vSel (f 20 6) (f 13 7) (f 6 7) (f 3 3) (f 0 2))
  | 28 => .ok (.mov (f 20 6) (f 13 7) (f 8 5) (f 2 3))
  | 29 => .ok (.bcast (f 20 6) (f 14 6) (f 0 2))
  | 30 => .ok (.vimm (f 20 6) (f 14 2) (f 0 14))
  | 31 => .ok (.cvt (f 20 6) (f 13 7) (f 8 5) (f 5 3) (b 2) (f 0 2))
  | 32 => if f 0 2 = 0#2 then .ok (.mxqScale (f 20 6) (f 13 7) (f 2 3)) else if f 0 2 = 1#2 then .ok (.mxqElem (f 20 6) (f 13 7) (f 5 3) (f 2 3)) else .error .badFunction
  | 33 => .ok (.xpnd (f 20 6) (f 13 7) (f 8 5) (f 2 3) (b 0))
  | 34 => .ok (.pack (f 20 6) (f 13 7) (f 6 7) (f 3 3) (f 0 2))
  | 35 => .ok (.unpk (f 20 6) (f 13 7) (f 8 5) (f 2 3) (b 0))
  | 36 => .ok (.rcp (f 20 6) (f 13 7) (b 8) (f 5 3) (f 2 3))
  | 37 => .ok (.rsq (f 20 6) (f 13 7) (b 8) (f 5 3) (f 2 3))
  | 38 => .ok (.exp2 (f 20 6) (f 13 7) (b 8) (f 5 3) (f 2 3))
  | 39 => .ok (.log2 (f 20 6) (f 13 7) (b 8) (f 5 3) (f 2 3))
  | 40 => .ok (.sigm (f 20 6) (f 13 7) (b 8) (f 5 3) (f 2 3))
  | 41 => .ok (.tanh (f 20 6) (f 13 7) (b 8) (f 5 3) (f 2 3))
  | 42 => .ok (.xcl (f 20 6) (f 14 6) (f 6 2) (f 0 3))
  | 43 => .ok (.perm (f 20 6) (f 14 6) (f 8 3) (f 6 2) (f 0 6))
  | 44 => .ok (.red (f 20 6) (f 13 7) (f 8 5) (f 5 3) (f 2 3) (f 0 2))
  | 45 => .ok (.accrd (f 20 6) (f 14 6) (f 3 11) (f 0 3))
  | 46 => .ok (.accwr (f 20 6) (f 14 6) (f 3 11) (f 0 3))
  | 47 => .ok (.rngv (f 20 6) (f 8 5) (f 2 3))
  | 48 => .ok (.msk (f 20 3) (f 13 7) (f 6 7) (f 0 3))
  | 49 => .ok (.vext (f 20 6) (f 14 6) (f 10 2) (f 0 10))
  | 50 => .ok (.chkv (f 13 7) (f 6 7) (f 3 3) (f 0 2))
  | 51 => .ok (.modmul (f 20 6) (f 13 7) (f 6 7) (f 1 5) (b 0))
  | 52 => .ok (.resf (f 20 6) (f 13 7) (f 8 5) (f 2 3) (b 0))
  | 53 => .ok (.resx (f 20 6) (f 13 7) (f 2 3) (b 0))
  | 54 => .ok (.slc (f 20 6) (f 14 6) (f 6 2) (f 0 6))
  | _ => .error .unassignedMajor

/-- The instruction that the fields of a class M word spell (R36). -/
def parseM (w : SlotWord) : Except DecodeError Instr :=
  let f := fun (lo len : Nat) => w.extractLsb' lo len
  let b := fun (lo : Nat) => w.getLsbD lo
  match (w.extractLsb' 26 6).toNat with
  | 1 => if b 1 then .ok (.mmaHold (f 24 2) (f 20 4) (f 10 6) (f 5 5) (b 3) (b 2) (b 0)) else .ok (.mma (f 24 2) (f 20 4) (f 16 4) (f 10 6) (f 5 5) (b 3) (b 2) (b 0))
  | 2 => .ok (.mmz (f 16 4) (f 10 6) (f 5 5) (b 3) (b 2))
  | 3 => if f 0 2 = 0#2 then .ok .mholdRel else if f 0 2 = 1#2 then .ok (.mholdChk (f 20 6)) else .error .badFunction
  | 4 => if f 0 2 = 0#2 then .ok .morgAdv else if f 0 2 = 1#2 then .ok (.morgRd (f 20 6)) else .error .badFunction
  | 5 => .ok (.mgang (f 20 6) (f 0 2))
  | 6 => .ok (.mdrn (f 20 4) (f 14 6) (f 9 2) (b 8) (b 7) (b 6) (f 3 3) (f 0 3))
  | 7 => .ok (.mstat (f 20 6) (b 13) (b 0))
  | 8 => .ok (.mmi (f 20 4) (f 16 4) (f 10 6) (f 5 5) (b 3) (b 2) (b 0))
  | 9 => .ok (.rnsx (b 10) (f 3 7) (f 0 3))
  | 10 => .ok .rnschk
  | 11 => .ok (.rnsdeg (f 1 4) (b 0))
  | 12 => .ok (.xdot (f 20 4) (f 16 4) (f 10 6) (f 5 5) (b 3) (b 2) (b 0))
  | 13 => .ok (.xfin (f 20 4) (f 14 6) (b 1) (b 0))
  | _ => .error .unassignedMajor

/-- The instruction that the fields of a class C word spell (R36). -/
def parseC (w : SlotWord) : Except DecodeError Instr :=
  let f := fun (lo len : Nat) => w.extractLsb' lo len
  let b := fun (lo : Nat) => w.getLsbD lo
  match (w.extractLsb' 26 6).toNat with
  | 1 => .ok (.cpy (f 20 6) (f 14 6) (b 10) (b 9) (b 8) (f 5 3))
  | 2 => .ok (.cpyd (f 20 6) (f 14 6) (f 10 4) (b 9) (b 8) (f 5 3))
  | 3 => .ok (.cpys (f 20 6) (f 14 6) (f 10 2) (b 9) (b 8) (f 5 3))
  | 4 => .ok (.ctab (f 20 6) (f 14 6) (f 8 4) (f 5 3))
  | 5 => .ok (.ewr (f 20 4) (f 14 6) (f 0 14))
  | 6 => .ok (.ego (f 20 6))
  | 7 => .ok (.tclr (f 20 6) (f 14 6))
  | 8 => .ok (.colj (f 20 6) (f 14 6) (b 12) (b 11) (f 8 3) (f 5 3))
  | 9 => .ok (.canj (f 20 6) (f 0 6))
  | _ => .error .unassignedMajor

/-- The instruction that the fields of a word of class c spell. -/
def parse (c : SlotClass) (w : SlotWord) : Except DecodeError Instr :=
  match c with
  | .K => parseK w
  | .S => parseS w
  | .L => parseL w
  | .V => parseV w
  | .M => parseM w
  | .C => parseC w

/-- Decode one slot word (R21 to R23): the word must be exactly the encoding of a well-formed instruction. -/
def decode (c : SlotClass) (w : SlotWord) : Except DecodeError Instr :=
  if w = 0#32 then .ok .nop
  else if w.extractLsb' 26 6 = 0#6 then .error .nopBits
  else
    match parse c w with
    | .error e => .error e
    | .ok i =>
      if encode i ≠ some w then .error .reservedField
      else if i.wf then .ok i
      else .error .badField

/-- The little-endian 32-bit word of four bytes (R2). -/
def wordOfBytes (b0 b1 b2 b3 : Byte) : SlotWord := b3 ++ b2 ++ b1 ++ b0

/-- The four bytes of a word, lowest address first (R2). -/
def bytesOfWord (w : SlotWord) : List Byte :=
  [w.extractLsb' 0 8, w.extractLsb' 8 8, w.extractLsb' 16 8, w.extractLsb' 24 8]

/-- The slot words of a bundle's bytes, in slot order; missing bytes read as 0 (R20). -/
def slotWords (n : Nat) (bytes : List Byte) : List SlotWord :=
  match n with
  | 0 => []
  | n + 1 =>
    wordOfBytes (bytes.getD 0 0) (bytes.getD 1 0) (bytes.getD 2 0) (bytes.getD 3 0) ::
      slotWords n (bytes.drop 4)

/-- A bundle after decoding: its instructions by slot index, or the first faulting slot with its word
and the reason (R25). -/
def decodeSlots (i : Nat) (ws : List SlotWord) : Except (Nat × SlotWord × DecodeError) (List Instr) :=
  match ws with
  | [] => .ok []
  | w :: rest =>
    match decode (slotClass i) w with
    | .error e => .error (i, w, e)
    | .ok ins =>
      match decodeSlots (i + 1) rest with
      | .error x => .error x
      | .ok is => .ok (ins :: is)

/-- Decode the 32 bytes of a bundle (R20, R23, R25). -/
def decodeBundle (bytes : List Byte) : Except (Nat × SlotWord × DecodeError) (List Instr) :=
  decodeSlots 0 (slotWords 8 bytes)

/-- The 32 bytes of a bundle that holds one word at slot index i and NOPs elsewhere. -/
def bundleBytes (i : Nat) (w : SlotWord) : List Byte :=
  List.replicate (4 * i) 0#8 ++ bytesOfWord w ++ List.replicate (28 - 4 * i) 0#8

/-- The slot indexes in which a lone word is tried, one for each slot class, in slot order. -/
def loneSlots : List Nat := [0, 1, 2, 3, 5, 6]

/-- The first slot index of the list in which a bundle holding only this word decodes. -/
def loneSlot (w : SlotWord) : List Nat → Option (Nat × Instr)
  | [] => none
  | i :: rest =>
    match decodeBundle (bundleBytes i w) with
    | .ok is => some (i, is.getD i .nop)
    | .error _ => loneSlot w rest

/-- The instruction the decoder reads from a lone slot word of the opcode table. The slot classes have
separate major maps (R21), so one word can be an instruction of several classes; the lowest slot index in
which the bundle decodes is taken (assumption 3). -/
def decodeTableWord (nbits w : Nat) : Option Instr :=
  if nbits ≤ 32 ∧ w < 2 ^ 32 then (loneSlot (BitVec.ofNat 32 w) loneSlots).map (·.2) else none

end Sys2Proof
end

