-- ==== Sys2Proof/Config.lean ====
section
/-! DEFINITION. What one device fixes and the free values: constants without a body, so that no proof can
rest on their value (assumptions 4 to 9, 26, 27, 76 and 80). -/

namespace Sys2Proof

/-- The free displacement, in units in the last place, of a special-function result from the nearest value,
for the function number (36 to 41, the V majors), the type (0 FP32, 1 FP64) and the operand bits (R230). -/
opaque Config.specialOffset : Nat → Nat → Nat → Int

/-- A free 64-bit value for each count: what the spec leaves open and the machine goes on after. -/
opaque Config.freeWord : Nat → Word

/-- The bits by which a raw read of a unit with an error not yet found differs from what was written, for the
unit's address (R411). -/
opaque Config.rawNoise : Nat → Word

/-- Whether a plain read under a snapshot point finds the old value of a byte whose first write the snapshot pool had no entry
for, rather than the new one: the snapshot point, the cycle of the read, and the byte's IA (R306). -/
opaque Config.oldSeen : Nat → Nat → Nat → Bool

/-- Whether a load sees a store of its own stream that is not related to it, for the load, the store and the aligned
8-byte unit (R202). -/
opaque Config.raceSeen : Nat → Nat → Nat → Bool

/-- Whether a signature over an image verifies under a key: the signed bytes with the signature, and the key (R329). -/
opaque Config.signatureOk : List Byte → List Byte → Bool

/-- The SHAKE256 digest of bytes, 512 bits (R329, R404, R405). -/
opaque Config.digest : List Byte → BitVec 512

/-- The bytes of the boot ROM, and the public key of the identity key pair that the unclonable function gives (R404, R405). -/
opaque Config.bootRom : List Byte
opaque Config.identityKey : List Byte

/-- The bytes of the signed configuration record and of the sparing record, whose layouts the spec does not give, from their fields
(R405, R406). -/
opaque Config.recordBytes : List Nat → List Byte

/-- The signature of a report by the identity key (R404, R405). -/
opaque Config.sign : List Byte → BitVec 238336

/-- The bytes of a save-area region whose layout is defined per device revision: region number and the
number of the spill (R359). -/
opaque Config.saveRegion : Nat → Nat → List Byte

/-- The firmware's conversion of a budget in W, for a core: RATE, SLEW and FLOOR (R401). -/
opaque Config.budgetRate : Nat → Nat → Nat
opaque Config.budgetSlew : Nat → Nat → Nat
opaque Config.budgetFloor : Nat → Nat → BitVec 4

/-- Whether the firmware finds a frame for a request, by count (R65, R208). -/
opaque Config.frameFree : Nat → Bool

/-- Whether a UALink port leads to a peer device: the port and the peer's pod device number (R84, R85). -/
opaque Config.portReaches : Nat → Nat → Bool

/-- How the hub spreads its requests over the ports that lead to a peer: the peer's pod device number and the 256-byte block
(R84). -/
opaque Config.spread : Nat → Nat → Nat

/-- Where a register file's word lies in the 16 KiB of stream state of a save area: scalar register n at n, ring entry i at
64 + i (R359). -/
opaque Config.streamPlace : Nat → Nat

/-- The device clock at reset, in whole µs (R336). -/
opaque Config.clockAtReset : Nat

/-- Where the firmware places 64 KiB frames for a gallery section, by count: the IA divided by 2^16 (R330). -/
opaque Config.sectionFrame : Nat → Nat

end Sys2Proof
end

