-- ==== Sys2Proof/Machine/State.lean ====
section
/-! DEFINITION. The state of the machine: every piece of state the spec names, as plain data, and the state
after reset. A field marked "the model's own" is not the spec's. -/

namespace Sys2Proof.Machine

/-- Why the machine stops. -/
inductive Fault where
  /-- Raised by step alone, when the rails never came up: none of the bring-up steps runs (R402, step 1).
  Safe: the machine does nothing that a claim could rest on. -/
  | noPower
deriving DecidableEq, Repr

/-- Why a step has no meaning. -/
inductive Refusal where
  /-- Raised by exec alone, for an instruction without a meaning yet. Safe. -/
  | notModelled (mnemonic : String)
deriving DecidableEq, Repr

/-- What a fixed-latency result writes when it lands (R40, R339). -/
inductive Dest where
  /-- A scalar register. -/
  | scalar (r : BitVec 6) (v : Word)
  /-- The predicates p0 to p6 named by mask. -/
  | pred (mask val : BitVec 7)
  /-- The enabled bits of a vector register, and the ring entry pushed with that number (R157). -/
  | vec (r : BitVec 6) (mask val : BitVec 8192) (push : Option Nat)
  /-- The bits of a mask register named by mask (R210). -/
  | mask (r : BitVec 3) (mask val : BitVec 512)
  /-- A ring entry of an instruction that writes no vector register (R210). -/
  | ringZero (push : Nat)
  /-- A 1 KiB block of an accumulator image, accumulator 0 to 4 (R235). -/
  | accBlock (n : BitVec 3) (block : Nat) (val : BitVec 8192)
  /-- A word of a stream register (R180). -/
  | streamWord (n : BitVec 4) (w : BitVec 3) (v : Word)
  /-- Flags ORed into ctl.fflags (R151). -/
  | flags (f : BitVec 7)
  /-- Counts of a RESX: band O, located, uncorrectable (R299). -/
  | residueCounts (ovc locc unc : Nat)
  /-- A deferred trap that reaches the stream with the result (R198, R235). -/
  | report (cause : BitVec 8) (tval : Word)
  /-- A parity error of a latched result comes to its scalar register with it (R366). -/
  | badScalar (r : BitVec 6)
  /-- The same for a 64-bit lane word of a vector register, and for the ring entry of the push (R366). -/
  | badVector (r : BitVec 6) (lane : Nat) (push : Option Nat)
  /-- The same for predicates, for a 64-bit word of a mask register, for a word of a stream register, and for an accumulator
  element, by its key in Ctx.accBad (R366). -/
  | badPred (mask : BitVec 7)
  | badMask (r : BitVec 3) (word : Nat)
  | badStream (n : BitVec 4) (w : BitVec 3)
  | badAcc (key : Nat)
deriving DecidableEq, Repr

/-- A result in flight: the stream cycle at whose start it lands, or in a latch the remainder (R347). -/
structure Landing where
  due : Nat
  dest : Dest
deriving DecidableEq, Repr

/-- One level of hardware loop state (R184). -/
structure LoopLevel where
  active : Bool
  start : BitVec 59
  stop : BitVec 59
  rem : Word
deriving DecidableEq, Repr

/-- A set of two loop levels (R184). -/
structure LoopSet where
  l0 : LoopLevel
  l1 : LoopLevel
deriving DecidableEq, Repr

/-- A trap request: cause, ctl.tval (R349). -/
structure TrapReq where
  cause : BitVec 8
  tval : Word
deriving DecidableEq, Repr

/-- A WADDR that waits (R315). -/
structure Watch where
  d : BitVec 6
  va : Word
  ia : Nat
  /-- The attributes of its window, under which it reads as LDG does (R68, R71). -/
  attr : BitVec 6
  expect : Word
  /-- The remaining live cycles. -/
  left : Option Nat
  /-- The value last read. -/
  last : Word
  /-- Cycles to the next poll of a polled window. -/
  poll : Nat
  /-- The number of a read that is under way over a link, and the cycle in which it went out (R85). -/
  sent : Option (Nat × Nat)
  /-- The traps that were pending at its issue. -/
  pend : Nat
deriving DecidableEq, Repr

/-- A freeze after the bundle has issued (R188, R189, R191, R315, R341, R355, R365). -/
inductive Wait where
  | none
  /-- WAITC: the five fields (R188). -/
  | counters (ld st cp tl at_ : BitVec 5)
  /-- WAITT or WAITANY: the mask and the remaining live cycles of the timeout (R189, R190). -/
  | tags (any clr : Bool) (d : BitVec 6) (mask : Word) (left : Option Nat)
  /-- WADDR (R315). -/
  | addr (w : Watch)
  /-- YIELD before its answer (R341). -/
  | yield (d : BitVec 6) (floor : BitVec 6)
  /-- SWPREP while it stages: the IA of the image and of the outgoing area, and the VA of the latter (R365). -/
  | staging (d : BitVec 6) (image area : Nat) (va : Word)
  /-- PMODE until no fixed-latency result is in flight (R191). -/
  | mode (inter : Bool)
  /-- TRET until no fixed-latency result of the handler is in flight (R355). -/
  | trapReturn
deriving DecidableEq, Repr

/-- CANJ before its answer: its status register and tag, the group and index of the pair (R390). -/
structure Asking where
  d : BitVec 6
  tag : BitVec 6
  group : Nat
  index : Nat
deriving DecidableEq, Repr

/-- The fetch of a bundle over a link: its place, its number, the cycle in which it completes, and whether it fails (R85). -/
structure FetchReq where
  pc : BitVec 59
  id : Nat
  due : Nat
  failed : Bool
deriving DecidableEq, Repr

/-- A shadow check under way in the vector unit: the device cycle by which it has reported, the stream cycle in which the
result of its instruction lands, and whether it checks a product and a sum (R368, R369). -/
structure ShadowCheck where
  by_ : Nat
  lands : Nat
  product : Bool
  sum : Bool
deriving DecidableEq, Repr

/-- Why a bundle is held at issue (R40, R352). -/
inductive Hold where
  | none
  /-- PHASE or CHKPT at a level; whether the stream has arrived, and whether the boundary has completed (R310). -/
  | phase (level : BitVec 3) (chk arrived : Bool) (released : Option Word)
  /-- REL; whether the host-window flush has been issued, and whether it has completed (R312). -/
  | rel (flushing flushed : Bool)
  | domj
  /-- A residency query for the share at this IA, with the window's Z (R65, R67). -/
  | residency (share : Nat) (z : Bool)
  /-- No free entry in the footprint scheduler (R94). -/
  | scheduler
  /-- A counter at its capacity (R187). -/
  | counter
  /-- An earlier related access is not applied (R202). -/
  | order
  /-- Cube backpressure: the feed, an accumulator, a drain, or plane-set order (R160, R248, R266, R288). -/
  | cube
  /-- An earlier ACCWR of the stream has not landed: it goes on while the stream stands (R160, R407). -/
  | accwr
  /-- The gang rendezvous: the values exchanged, the declared magnitudes of the stream's A and B registers, and the cycle
  since which the stream waits (R273, R291). -/
  | gang (vals : List Nat) (mags : Nat × Nat) (since : Nat)
  /-- The interlocked scoreboard: stream cycles advance (R39). -/
  | hazard
  /-- The feed holds a sub-bank (R120). -/
  | bank
  /-- Its bytes are on their way over a link (R85; assumption 87). -/
  | fetch
deriving DecidableEq, Repr

/-- A write in a stream's own-write set (R304): its bytes, its class, and the cycle its home applied it. -/
structure OwnWrite where
  id : Nat
  bytes : List (Nat × Byte)
  cls : BitVec 3
  job : Bool
  applied : Option Nat
deriving DecidableEq, Repr

/-- The elements of a vector access: address of element 0, distance between elements, log2 of the element
size, the enabled mask bits, and the IA minus the VA of its window (R194, R199, R200). -/
structure VecAccess where
  base : Word
  stride : Word
  sz : BitVec 2
  en : BitVec 512
  mask : BitVec 3
  shift : Int
deriving DecidableEq, Repr

/-- What an atomic does (R205, R206). -/
inductive AtomKind where
  | op (f : BitVec 4)
  | cas (expect : Word)
deriving DecidableEq, Repr

/-- Counter-tracked work of the L slot in flight (R42, R187). -/
inductive OpKind where
  /-- A scalar load; newest marks LDG (R196). -/
  | load (d : BitVec 6) (ia len : Nat) (ea : Word) (newest : Bool)
  /-- A vector load (R199). -/
  | vload (d : BitVec 6) (acc : VecAccess)
  /-- A store of bytes; fresh marks STG, host a store to the host window (R196, R203). -/
  | store (bytes : List (Nat × Byte)) (fresh host : Bool)
  /-- An atomic on 4 or 8 bytes (R204). -/
  | atomic (d : BitVec 6) (ia : Nat) (ea : Word) (k : AtomKind) (wide : Bool) (b : Word) (scope : BitVec 3)
  /-- A page request over an IA range (R208). -/
  | page (d : BitVec 6) (ia len : Nat)
deriving DecidableEq, Repr

/-- One such operation: its number, its class (R202), the snapshot point and the bytes of the own-write set it
reads under (R303, R304), whether it is non-temporal (R71), and whether its window is replicable (R68) and has
first touch (R65). -/
structure Op where
  id : Nat
  kind : OpKind
  cls : BitVec 3
  snap : Nat
  own : List (Nat × Byte)
  nt : Bool
  rep : Bool
  z : Bool
  /-- The sub-banks whose grants it awaits, of other cores' slices, or for later passes of its own: core and sub-bank, one for each
  row of a bank (R118, R121, R201). -/
  waits : List (CoreId × Nat)
  /-- The value that the hub has read for an atomic on the host window with a scope narrower than .sys, which it has not
  written yet (R207). -/
  half : Option Nat
  /-- The cycle in which its requests were sent (R85). -/
  sentAt : Nat
  /-- The UALink port that each of its requests to a peer was sent on, by 256-byte block; none where no port that is up led
  there (R84, R85). -/
  ports : List (Nat × Option Nat)
deriving DecidableEq, Repr

/-- One stream of a context (R152). -/
structure Stream where
  /-- Live from its start until it halts (R300). Reset: false. -/
  live : Bool
  /-- Halted by HALT (R192). Reset: false. -/
  halted : Bool
  /-- Started at some time since task start (R192). Reset: false. -/
  started : Bool
  /-- Stopped by the firmware with a cause (R354). Reset: none. -/
  stopped : Option TrapReq
  /-- The address at which it stopped: ctl.tpc of the record that the firmware receives (R354). Reset: 0. -/
  stopAt : Word
  /-- HALT code (R192). Reset: 0. -/
  haltCode : BitVec 14
  /-- Program counter: address of the next bundle divided by 32 (R20). Reset: DESIGN CHOICE 0 (log 1). -/
  pc : BitVec 59
  /-- Address divided by 32 of the bundle issued last, at which a wait after issue stands (R352). Reset: 0. -/
  ipc : BitVec 59
  /-- Stream cycle at which the next bundle issues (R3, R40). Reset: 0. -/
  sc : Nat
  /-- Idle cycles left after a control transfer (R181). Reset: 0. -/
  idle : Nat
  /-- Scalar registers s0 to s63; s0 reads 0 (R152, R165). Reset: DESIGN CHOICE 0 (log 1). -/
  s : Vector Word 64
  /-- Predicates p0 to p6; p7 is always true (R165). Reset: DESIGN CHOICE 0 (log 1). -/
  p : BitVec 7
  /-- Operand ring: the contents of the eight entries of every cluster, by push number mod 8 (R157). Reset: 0. -/
  ring : Vector (BitVec 8192) 8
  /-- 1 + the number of the push whose result each entry holds, 0 for none (R158). Reset: 0. -/
  ringHeld : Vector Nat 8
  /-- Pushes since task start (R157). Reset: 0. -/
  pushes : Nat
  /-- The number from which operations count in this stream's counters: those of a stream that halted and was started
  again lie below it (R192, R340). Reset: 0. -/
  opBase : Nat
  /-- Outstanding-operation counter ld (R187). Reset: 0. -/
  ld : Nat
  /-- Outstanding-operation counter st (R187). Reset: 0. -/
  st : Nat
  /-- Outstanding-operation counter cp (R187). Reset: 0. -/
  cp : Nat
  /-- Outstanding-operation counter tl (R187). Reset: 0. -/
  tl : Nat
  /-- Outstanding-operation counter at (R187). Reset: 0. -/
  at_ : Nat
  /-- Hardware loop state, normal set (R184). Reset: inactive. -/
  loops : LoopSet
  /-- Hardware loop state, handler set (R184). Reset: inactive. -/
  hloops : LoopSet
  /-- Fixed-latency results in flight, in issue order (R40). Reset: none. -/
  inflight : List Landing
  /-- Landing latches, with their remainders (R347). Reset: none. -/
  latches : List Landing
  /-- ctl.stat, 64 bits (R162). Reset: 0. -/
  stat : Word
  /-- ctl.tpc, 64 bits (R351). Reset: 0. -/
  tpc : Word
  /-- ctl.tstat, 64 bits (R351). Reset: 0. -/
  tstat : Word
  /-- ctl.tcause, 64 bits (R351). Reset: 0. -/
  tcause : Word
  /-- ctl.tval, 64 bits (R351). Reset: 0. -/
  tval : Word
  /-- ctl.tvec, 64 bits (R351). Reset: 0. -/
  tvec : Word
  /-- ctl.fflags, 64 bits (R150). Reset: 0. -/
  fflags : Word
  /-- Flags that have landed in this cycle: a clearing write of the cycle leaves them (R151). Reset: 0. -/
  fresh : BitVec 7
  /-- ctl.seed, 64 bits (R141). Reset: 0. -/
  seed : Word
  /-- The 128 generator states S(c, l) at 16c + l (R140). Reset: DESIGN CHOICE 0 (log 1); Reseed(0) at task start. -/
  gens : Vector Word 128
  /-- The freeze of a bundle that has issued (R190). Reset: none. -/
  wait : Wait
  /-- The freeze of a CANJ, beside any other of its bundle (R390). Reset: none. -/
  asking : Option Asking
  /-- The fetch of the next bundle over a link (R85). Reset: none. -/
  fetching : Option FetchReq
  /-- The wait that a trap taken with WT = 1 left (R352). Reset: none. -/
  savedWait : Wait
  /-- The bundle of that wait and the bundle that follows it (R352). Reset: 0, 0. -/
  savedAt : BitVec 59 × BitVec 59
  /-- Why the next bundle is held (R352). Reset: none. -/
  hold : Hold
  /-- The bundle whose phase boundary has completed while another slot of it held it, with what the boundary gave (R310).
  Reset: none. -/
  passed : Option (BitVec 59 × Word)
  /-- Merge wait count of the secondary bundle (R338). Reset: 0. -/
  waitCount : Nat
  /-- Pending deferred traps, first reported first (R345). Reset: none. -/
  pending : List TrapReq
  /-- Boundary counts at levels 1 to 5 (R302). Reset: 0. -/
  counts : Vector (BitVec 32) 5
  /-- Snapshot point: the device cycle it was set at (R303). Reset: 0. -/
  snap : Nat
  /-- Own-write set (R304). Reset: none. -/
  own : List OwnWrite
  /-- Loads, stores, atomics and page requests outstanding, oldest first (R42). Reset: none. -/
  ops : List Op
  /-- The homes' residency answers for the held bundle: share, present (R67). Reset: none. -/
  answers : List (Nat × Bool)
  /-- Scalar registers with a parity error (R366). Reset: none. -/
  badScalar : List (BitVec 6)
  /-- Ring entries with a parity error (R366). Reset: none. -/
  badRing : List Nat
  /-- Predicates with a parity error (R366). Reset: none. -/
  badPred : BitVec 7
  /-- Device cycle by which the shadow checks of the vector instructions issued have reported (R369). Reset: 0. -/
  checks : Nat
  /-- Those checks, in issue order (R369). Reset: none. -/
  checking : List ShadowCheck
deriving DecidableEq, Repr

/-- The plane-accumulator set with its state (R161, R288). -/
structure PlaneSet where
  held : Bool
  /-- Cell (x, y, L) at 24,576 L + 192 x + y (R359). -/
  sums : Table (BitVec 16)
  bound : Nat
  magx : Bool
  rows : Nat
  cols : Nat
  mask : BitVec 16
  deg : Bool
  ox : Nat
  oy : Nat
deriving DecidableEq, Repr

/-- The description of a hold-mode slab of B (R250, R268): k is h × Q. -/
structure Slab where
  h : Nat
  n : Nat
  k : Nat
  mask : BitVec 16
  fmt : BitVec 5
  g : Bool
  cfg : BitVec 2
  ox : Nat
  oy : Nat
deriving DecidableEq, Repr

/-- The kinds of tile operations and drains (R248). -/
inductive TileKind where
  | mma | mmz | mmi
  | xdot (shift : Nat)
  | rnsx (dest : BitVec 3) (shift : Nat)
  | rnschk
  | mdrn (fmt : BitVec 3) (r : BitVec 2) (ovx : Bool) (clr : Bool)
  /-- The slice offsets of the exponent arrays (R297). -/
  | xfin (clr : Bool) (eoff foff : Nat)
deriving DecidableEq, Repr

/-- What the classification of one tile element gives: its value, whether it lies in band O, the located channel and
layer, and whether it is uncorrectable (R283, R284). -/
structure ElemVerdict where
  i : Nat
  j : Nat
  x : Int
  o : Bool
  loc : Option (Nat × Nat)
  unc : Bool
  /-- The layers of the channels in error of a group that is uncorrectable (R136, R283, R377). -/
  bad : List Nat
deriving DecidableEq, Repr

/-- How far a tile operation or drain has come. -/
inductive TileStage where
  /-- In the feed's order, stepping. -/
  | feed
  /-- All steps entered; it settles until its completion (R249). -/
  | settle
  /-- The drain part: the elements are to be classified or written. -/
  | drain
  /-- The elements of the plane set have been classified, once and with these verdicts; ok: their rows are being written (R285,
  R363). -/
  | write (ok : Bool) (es : List ElemVerdict)
deriving DecidableEq, Repr

/-- A tile operation or drain issued and not completed (R265, R275, R291, R296). -/
structure TileOp where
  id : Nat
  sec : Bool
  kind : TileKind
  /-- Target or source accumulator: 0 to 3, 4 accw, 5 none. -/
  acc : BitVec 3
  /-- The latched stream registers; a drain's destination in astr (R156). -/
  astr : BitVec 512
  bstr : BitVec 512
  anum : BitVec 4
  bnum : BitVec 4
  /-- The cores whose slices A and B are read from (R255). -/
  aCore : CoreId
  bCore : CoreId
  /-- The shape of the core's own part, and K. -/
  rows : Nat
  cols : Nat
  k : Nat
  mask : BitVec 16
  fmt : BitVec 5
  z : Bool
  g : Bool
  cfg : BitVec 2
  /-- Its number among the G-flagged operations of the task on the core (R273). -/
  gn : Nat
  hold : Bool
  /-- It runs degraded (R278); the MODE of its classification (R279). -/
  deg : Bool
  mode : Bool
  ox : Nat
  oy : Nat
  steps : Nat
  done : Nat
  stage : TileStage
  /-- The earliest cycle of its next step. -/
  ready : Nat
  /-- Cube events (R277) and the first poisoned word's IA (R267). -/
  events : BitVec 8
  poison : Option Word
  /-- The write of ctl.rinj that armed it for this operation: core and number of the write (R412). -/
  inj : Option (CoreId × Nat)
  /-- ctl.tval of the first divergence that its shadow checks have found (R369). -/
  shadow : Option Word
  /-- The divergence bound B of its shadow checks, as its issue read it (R369). -/
  bnd : Nat
  /-- Of a drain that stores: the sub-banks that its row still needs, one for each row of a bank; none before it has asked (R118,
  R121). -/
  waits : Option (List (CoreId × Nat))
deriving DecidableEq, Repr

/-- The outcome of a gang rendezvous for a stream's next G-flagged operation: its number, the values exchanged, the verdict
(0 agree, 1 differ, 2 a bound fails), and the declared magnitudes of the A and B registers that are read (R273, R281,
R291). -/
structure GangMet where
  sec : Bool
  n : Nat
  vals : List Nat
  verdict : Nat
  mags : Nat × Nat
deriving DecidableEq, Repr

/-- An extent of a job: its VA, its IA, its length, whether it is written, and its window's attributes (R100). -/
structure Extent where
  va : Word
  ia : Nat
  len : Nat
  wr : Bool
  attr : BitVec 6
deriving DecidableEq, Repr

/-- What a job does (R90). -/
inductive JobKind where
  /-- It completes with a status and moves nothing (R101). -/
  | settled (status : Nat) (addr : Word)
  | copy (src dst : Extent) (sva dva : Word) (len rows : Nat) (sstr dstr : Int) (zero : Bool)
  | decode (src dst : Extent) (len clen : Nat) (slot : BitVec 4)
  | expand (vals pos dst : Extent) (g : Nat) (e : Nat)
  | table (src : Extent) (slot : BitVec 4)
  | gather (regs : Vector Word 16) (regions : List Extent)
  | collective (op : BitVec 3) (group index rank ranks : Nat) (src dst : Option Extent) (n fmt red root : Nat)
deriving DecidableEq, Repr

/-- A region of a footprint: IA range or code-table slot (R103). -/
structure Region where
  lo : Nat
  hi : Nat
  wr : Bool
  table : Option (BitVec 4)
deriving DecidableEq, Repr

/-- How far a job has come (R115): the units of its destination written, the stream bits consumed (R107), and the index or the
metadata entry read for the row or group under way (R109, R112). -/
structure JobCursor where
  done : Nat
  bit : Nat
  entry : Option Nat
deriving DecidableEq, Repr

/-- A job in the footprint scheduler (R91). -/
structure Job where
  id : Nat
  tag : BitVec 6
  sec : Bool
  kind : JobKind
  cls : BitVec 3
  span : Bool
  nt : Bool
  snap : Nat
  own : List OwnWrite
  regions : List Region
  /-- Jobs it has an edge from, and whether the edge is read after write (R104). -/
  edges : List (Nat × Bool)
  /-- Stores of the issuing stream that must be applied before it starts (R304). -/
  stores : List Nat
  started : Bool
  /-- A job it reads after ended with a nonzero status (R104). -/
  depFailed : Bool
  engine : Option Nat
  cursor : JobCursor
  /-- The bytes that it has written, by the cycle in which they were applied, the latest first (R304). -/
  wrote : List (Nat × List (Nat × Byte))
  /-- The cycle in which the requests of its present line were sent (R85). -/
  sentAt : Nat
  /-- The value of the register that its word names first, which ctl.cperr records for status 4 or 7 (R98). -/
  addr : Word
  /-- The sub-banks that its present line still needs, one for each row of a bank; none before it has asked (R118, R121). -/
  waits : Option (List (CoreId × Nat))
deriving DecidableEq, Repr

/-- A task's context on one core: per-stream and per-task state (R152, R358). -/
structure Ctx where
  /-- The primary stream. Reset: as each field says. -/
  prim : Stream
  /-- The secondary stream. Reset: as each field says. -/
  sec : Stream
  /-- v0 to v63, images of R153. Reset: DESIGN CHOICE 0 (log 1). -/
  v : Vector (BitVec 8192) 64
  /-- m0 to m7; m0 reads as all ones (R154). Reset: DESIGN CHOICE 0 (log 1). -/
  m : Vector (BitVec 512) 8
  /-- st0 to st15, word w in bits 64w+63:64w (R155). Reset: 0. -/
  str : Vector (BitVec 512) 16
  /-- acc0 to acc3: element (x, y) of accN at 24,576 N + 192 x + y (R159). Reset: DESIGN CHOICE 0 (log 1). -/
  acc : Table (BitVec 32)
  /-- accw: element (x, y) at 192 x + y (R159). Reset: DESIGN CHOICE 0 (log 1). -/
  accw : Table (BitVec 160)
  /-- Uncorrectable accumulator elements: key of acc, or 98,304 + key of accw (R366). Reset: none. -/
  accBad : List Nat
  /-- 64-bit lane words of vector registers with a parity error: register and word (R366). Reset: none. -/
  badVector : List (BitVec 6 × Nat)
  /-- 64-bit words of mask registers with a parity error: register and word (R366). Reset: none. -/
  badMask : List (BitVec 3 × Nat)
  /-- Words of stream registers with a parity error: register and word (R366). Reset: none. -/
  badStream : List (BitVec 4 × BitVec 3)
  /-- The plane-accumulator set (R161). Reset: EMPTY. -/
  plane : PlaneSet
  /-- win0 to win7: base, size, off, attr of window n at 4n to 4n + 3 (R55). Reset: 0. -/
  win : Vector Word 32
  /-- Tags in state BUSY (R93). Reset: 0. -/
  tagBusy : Word
  /-- ctl.tags, tags in state DONE (R96). Reset: 0. -/
  tags : Word
  /-- Status of each tag: ctl.cpst0 to ctl.cpst3 (R96). Reset: 0. -/
  tagStatus : Vector (BitVec 4) 64
  /-- ctl.cperr, 64 bits (R96). Reset: 0. -/
  cperr : Word
  /-- Writes of completed jobs that their issuing stream has not observed, the latest first: tag, secondary, write (R304).
  Reset: none. -/
  doneJobs : List (BitVec 6 × Bool × OwnWrite)
  /-- Code-table slots: symbol i's length in bits 4i+3:4i (R105, R106). Reset: 0. -/
  codes : Vector (BitVec 1024) 16
  /-- Staged engine registers e0 to e15 (R110). Reset: 0. -/
  e : Vector Word 16
  /-- ctl.shbound, 64 bits (R369). Reset: 2. -/
  shbound : Word
  /-- ctl.domain, 64 bits (R301). Reset: DESIGN CHOICE 0 before a placement (log 1). -/
  domain : Word
  /-- ctl.rns, 64 bits (R279). Reset: 0, or by the catalogue at task start. -/
  rns : Word
  /-- ctl.rnsstat, 64 bits (R287). Reset: 0. -/
  rnsstat : Word
  /-- ctl.chk, 64 bits (R372). Reset: 0. -/
  chk : Word
  /-- Event bits 7:0 of the cube status word (R277). Reset: 0. -/
  cubeEvents : BitVec 8
  /-- Operations counted in tl that have completed (R276). Reset: 0. -/
  tlDone : Word
  /-- The hold-mode slab (R250, R268). Reset: none. -/
  slab : Option Slab
  /-- Gang configuration 0 .solo, 1 .col, 2 .row, 3 .quad (R272). Reset: 0. -/
  gang : BitVec 2
  /-- DOMJ instructions that have succeeded at each level since task start: which of them a boundary follows (R342; the
  model's own). Reset: 0. -/
  joins : Vector Nat 6
  /-- G-flagged operations issued since task start (R273). Reset: 0. -/
  gangCount : Nat
  /-- The rendezvous that its next G-flagged operation has had (R273). Reset: none. -/
  gangMet : Option GangMet
  /-- Tile operations and drains issued and not completed, in issue order: the cube resume record (R265). Reset: none. -/
  tiles : List TileOp
  /-- Jobs in the footprint scheduler, in issue order: the copy resume record (R91, R115). Reset: none. -/
  jobs : List Job
  /-- Key of the task in State.tasks. Reset: 0. -/
  task : Nat
  /-- Task identifier (R178). Reset: 0. -/
  taskId : BitVec 32
  /-- Cores of the placement (R322). Reset: 0. -/
  placed : BitVec 8
  /-- Shape of the placement (R322). Reset: 0. -/
  shape : BitVec 2
  /-- Header flags of the program (R49). Reset: 0. -/
  hdrFlags : BitVec 16
  /-- Entry VA of the secondary stream (R49, R328). Reset: 0. -/
  secEntry : Word
  /-- The latches of the hold-mode slab (R250): element k, j at 192 k + j, its scale in bits 23:16, poison in bit 24. Reset: 0. -/
  slabVals : Table (BitVec 25)
  /-- Stream registers into whose word 6 an STSET has landed in this cycle (R156). Reset: 0. -/
  strFresh : BitVec 16
  /-- Cube events recorded in this cycle (R276). Reset: 0. -/
  cubeFresh : BitVec 8
deriving DecidableEq, Repr

/-- State of the shadow bank (R360). -/
inductive BankState where
  | empty | staged | spilling | held
deriving DecidableEq, Repr

/-- A write that takes effect at the end of the issue cycle (R111, R113, R190, R356). -/
inductive EndWrite where
  /-- WRCTL of a control register by a stream. -/
  | ctl (sec : Bool) (reg : BitVec 12) (v : Word)
  /-- EWR of a staged engine register by a stream. -/
  | engine (sec : Bool) (n : BitVec 4) (v : Word)
  /-- Clear DONE tags. -/
  | tagClear (mask : Word)
deriving DecidableEq, Repr

/-- A request from another agent waiting at a sub-bank (R121): sub-bank number 2 × bank + sub, requester 0 to 7
or 8 for the hub, and the cycle it arrived. -/
structure RemoteReq where
  bank : Nat
  requester : Nat
  arrived : Nat
deriving DecidableEq, Repr

/-- What a part of a slice transfer does (R335). -/
inductive XferKind where
  | save | restore | zero
deriving DecidableEq, Repr

/-- A part of a slice transfer (R335): the task, and the range of the slice in KiB, first and end. -/
structure XferPart where
  kind : XferKind
  task : Nat
  lo : Nat
  hi : Nat
deriving DecidableEq, Repr

/-- One core with its base die (R8, R152). -/
structure Core where
  /-- A task's context is live on the core (R333). Reset: false. -/
  live : Bool
  /-- The live context. Reset: Ctx.reset. -/
  ctx : Ctx
  /-- State of the shadow bank (R360). Reset: empty. -/
  bank : BankState
  /-- The context in the shadow bank. Reset: Ctx.reset. -/
  shadow : Ctx
  /-- IA of the outgoing save area (R365). Reset: 0. -/
  saveArea : Nat
  /-- VA of the outgoing save area (R364, R365). Reset: 0. -/
  saveVa : Word
  /-- Whether the bank was staged by SWPREP (R365). Reset: false. -/
  bankByTask : Bool
  /-- The task for whose swap the scheduler staged the bank, and whether what it staged is an idle context, of no task (R335,
  R360; the model's own). Reset: none. -/
  bankFor : Option (Nat × Bool)
  /-- The spill under way: the number of its image, and how far it has come, the header at 2 MiB behind the rest (R362, R364).
  Reset: none. -/
  spill : Option (Nat × Nat)
  /-- No bundle issues before this cycle: a swap is under way (R361). Reset: 0. -/
  swapEnd : Nat
  /-- The slice transfer of a swap is under way (R335). Reset: false. -/
  sliceBusy : Bool
  /-- What is left of it, once it has begun (R335). Reset: none. -/
  xfer : Option (List XferPart)
  /-- The cycle in which its present part began (R335). Reset: 0. -/
  xferAt : Nat
  /-- A save-area fault has stopped it (R335, R364). Reset: false. -/
  xferHeld : Bool
  /-- The task whose slice contents the slice holds (R335; the model's own). Reset: none. -/
  sliceTask : Option Nat
  /-- The old context's steps are draining from the cube (R363). Reset: false. -/
  cubeDrain : Bool
  /-- ctl.cyc, 64 bits (R164). Reset: 0. -/
  cyc : Word
  /-- ctl.thr, 64 bits (R398). Reset: 0. -/
  thr : Word
  /-- Reason bits of ctl.thr that were set in this cycle (R398). Reset: 0. -/
  thrFresh : Word
  /-- ctl.spstat, 64 bits (R125). Reset: 0. -/
  spstat : Word
  /-- ctl.spaddr, 64 bits (R125). Reset: 0. -/
  spaddr : Word
  /-- ctl.spdiag, 64 bits (R410). Reset: 0. -/
  spdiag : Word
  /-- ctl.rinj, 64 bits (R412). Reset: 0. -/
  rinj : Word
  /-- How often ctl.rinj has been written (R412; the model's own). Reset: 0. -/
  rinjSet : Nat
  /-- Tile origin row ox, 0 to 127 (R252). Reset: 0. -/
  ox : Nat
  /-- Tile origin column oy, 0 to 191 (R252). Reset: 0. -/
  oy : Nat
  /-- Current balance A in sixteenths of a unit (R396). Reset: 131,072. -/
  balance : Nat
  /-- RATE in sixteenths of a unit per cycle (R396). Reset: DESIGN CHOICE 2,048 (log 1). -/
  rate : Nat
  /-- SLEW in units per frame (R396). Reset: DESIGN CHOICE 2,048 (log 1). -/
  slew : Nat
  /-- Cost charged in the current frame (R396). Reset: 0. -/
  frameCost : Nat
  /-- Cost charged in the previous frame (R396). Reset: 0. -/
  framePrev : Nat
  /-- Thermal step before the floors apply (R394). Reset: 0. -/
  thermalStep : Nat
  /-- FLOOR and RFLOOR as the last evaluation applied them (R398). Reset: 0, 0. -/
  floors : Nat × Nat
  /-- The cycle since which the hottest reading has stayed at or above TTRIP (R394). Reset: none. -/
  tripSince : Option Nat
  /-- No task is placed until the reading falls below TLO (R394). Reset: false. -/
  tooHot : Bool
  /-- Catalogue: physical die of each logical layer (R238, R377). Reset: layer L on die L. -/
  catalogue : Vector (BitVec 5) 16
  /-- Mask of available layers (R239). Reset: 0xFFFF. -/
  layers : BitVec 16
  /-- Dies marked failed (R377). Reset: 0. -/
  failedDies : BitVec 17
  /-- Reports naming each die within the hour: die, cycle, and what named it: 0 a shadow report, 1 a located channel, 2 an
  uncorrectable channel (R377). Reset: none. -/
  dieReports : List (Nat × Nat × Nat)
  /-- Core k is usable: its stack has at least 15 working dies (R377). Reset: true. -/
  usable : Bool
  /-- Residency cache: shares confirmed present, newest first, at most 256 (R67). Reset: none. -/
  resCache : List Nat
  /-- The copies of packets that its engines run, each under its packet's key (R323). Reset: none. -/
  packetJobs : List Job
  /-- Requests waiting at the slice's sub-banks (R121). Reset: none. -/
  remote : List RemoteReq
  /-- Corrected words waiting for their rewrite (R123). Reset: none. -/
  writeback : List Nat
  /-- End of the highest 1 KiB block written since the slice was last wholly zero (R335). Reset: 0. -/
  highWater : Nat
  /-- Queue of the last task that ran on the core (R337). Reset: none. -/
  lastQueue : Option Nat
  /-- Writes that take effect at the end of this cycle. Reset: none. -/
  endWrites : List EndWrite
  /-- Hottest reading of the stack's 68 sensors, in °C, as last supplied (R394). Reset: DESIGN CHOICE 0 (log 1). -/
  sensor : Nat
  /-- The regulator has evaluated in this cycle (the model's own). Reset: false. -/
  evaluated : Bool
  /-- Sub-banks that have been granted to an access in this cycle (R121). Reset: none. -/
  granted : List Nat
  /-- Sub-banks that L-slot accesses issued take in later cycles: cycle and sub-bank (R118). Reset: none. -/
  booked : List (Nat × Nat)
  /-- Words that the patrol of the slice has read (R124). Reset: 0. -/
  patrol : Nat
  /-- The feed has had its step or pause in this cycle (R247). Reset: false. -/
  fed : Bool
  /-- A pause cycle of the feed freezes this stream in this cycle (R247). Reset: none. -/
  pause : Option Bool
  /-- The primary is held in this cycle for the secondary bundle (R338). Reset: false. -/
  primHeld : Bool
deriving DecidableEq, Repr

/-- An entry of the restoration log: the cycle of a write, its line's first IA, the writer and its snapshot point, which
names the phase, the 64 bytes before it, and whether the snapshot pool held its writer's first entry for the line (R64,
R306). -/
structure LogEntry where
  time : Nat
  line : Nat
  who : Nat
  snap : Nat
  old : List Byte
  kept : Bool
deriving DecidableEq, Repr

/-- The first write of a writer to a line after one of its snapshot points: its cycle, and whether the snapshot pool had an
entry for it (R306). -/
structure SnapLine where
  time : Nat
  line : Nat
  who : Nat
  kept : Bool
deriving DecidableEq, Repr

/-- A line logged for a checkpoint interval (R371): the task, the interval, the line's first IA, its 64 bytes. -/
structure ChkLine where
  task : Nat
  interval : Nat
  line : Nat
  old : List Byte
deriving DecidableEq, Repr

/-- One home (R8, R60 to R74). -/
structure Home where
  /-- Page-table entries of this home, by 4 × table index + level − 1 (R60, R61). Reset: none. -/
  pte : Table Word
  /-- Home-local addresses of the pre-zeroed 8 KiB frames in the pool (R65). Reset: DESIGN CHOICE none before queues open
  (log 1). -/
  pool8 : List Nat
  /-- Home-local addresses of the pre-zeroed 64 KiB frames in the pool (R65). Reset: DESIGN CHOICE none (log 1). -/
  pool64 : List Nat
  /-- Bytes of the HBM, from address 0, that the firmware has handed out (R17, R65; the model's own). Reset: 0. -/
  used : Nat
  /-- 8 KiB frames handed back (R63; the model's own). Reset: none. -/
  free8 : List Nat
  /-- 64 KiB frames handed back (R63; the model's own). Reset: none. -/
  free64 : List Nat
  /-- Where the shares of the host-visible range lie, once mapped (R79; the model's own). Reset: none. -/
  hostFrames : Option Nat
  /-- HECNT, 64 bits (R74). Reset: 0. -/
  hecnt : Word
  /-- HESTAT, 64 bits (R74). Reset: 0. -/
  hestat : Word
  /-- HEADDR, 64 bits (R74). Reset: 0. -/
  headdr : Word
  /-- Lines held by the memory-side cache, by home-local address, newest first (R71). Reset: none. -/
  cache : List Nat
  /-- Copies that have not yet acknowledged an invalidation: line and copy homes (R54, R69). Reset: none. -/
  invalidating : List (Nat × BitVec 8)
  /-- Writes that the home holds, in order of receipt: the page and the event that applies the write (R69). Reset: none. -/
  held : List (Nat × Instr)
  /-- First writes of the phases under way, newest first (R306). Reset: none. -/
  snapLines : List SnapLine
  /-- Lines logged in the checkpoint pool, newest first (R371). Reset: none. -/
  chkLines : List ChkLine
  /-- Lines for which a write waits on the host's snoop response, and whether it has come (R79). Reset: none. -/
  snoops : List (Nat × Bool)
deriving DecidableEq, Repr

/-- State of a task (R333). -/
inductive TaskState where
  | ready | staged | running | draining | retired
deriving DecidableEq, Repr

/-- A task (R332 to R337). -/
structure Task where
  key : Nat
  taskId : BitVec 32
  state : TaskState
  prio : BitVec 6
  /-- Requested core count and shape. -/
  n : Nat
  shape : BitVec 2
  rcls : BitVec 4
  /-- Placement, once made. -/
  cores : List CoreId
  queue : Option Nat
  seq : BitVec 32
  slot : Nat
  /-- The journal key of its invoke packet. -/
  packet : Nat
  scratch : Nat
  /-- READY order. -/
  order : Nat
  /-- The contexts while the task is not live: one per core number. -/
  saved : List (Nat × Ctx)
  /-- The cores whose slice contents lie in the task's slice save area (R335). -/
  sliced : List Nat
  /-- Which of the scheduler's save areas are the task's (R335, R359; assumption 18). -/
  place : Nat
  started : Bool
  /-- A yielder whose core it took, not to be pre-empted by it (R334). -/
  protectedFrom : Option Nat
  /-- End with STATUS 7: cause, core, stream (R337). -/
  ended : Option (Nat × CoreId × Bool)
  /-- The contexts of the last two committed checkpoints, newest first: interval number and contexts by core (R371,
  R373). -/
  checkpoints : List (Nat × List (Nat × Ctx))
  /-- A checkpoint under way: 0 none, 1 its copy, 2 the group barrier behind the copies (R373). -/
  copying : Nat
  /-- The context that the task starts from (R332). -/
  start : Ctx
deriving DecidableEq, Repr

/-- State of a gallery slot (R327). -/
inductive SlotState where
  | empty | loading | loaded | unloading
deriving DecidableEq, Repr

/-- A window of a gallery slot (R328). -/
structure SlotWindow where
  vbase : Word
  size : Word
  attr : Word
  kind : Nat
  ioff : Word
deriving DecidableEq, Repr

/-- A gallery slot (R327, R328). -/
structure GallerySlot where
  state : SlotState
  version : BitVec 16
  privreq : Bool
  signed : Bool
  windows : List SlotWindow
  tables : List (BitVec 1024)
  hdrFlags : BitVec 16
  entry : Word
  secEntry : Word
  scratch : Nat
deriving DecidableEq, Repr

/-- How far a consumed packet has come (R323). -/
inductive PacketState where
  | waiting | started | completed
deriving DecidableEq, Repr

/-- A consumed packet in the journal (R321): its 64 bytes as one number, little-endian. -/
structure Packet where
  key : Nat
  queue : Nat
  serial : BitVec 32
  bits : BitVec 512
  state : PacketState
  order : Nat
  /-- Order of the accepted doorbell write that covers it (R323). -/
  bell : Nat
  deadline : Option Nat
  last : Word
  /-- The access of a signal or wait packet to its word is under way, and whether its link does not complete it in time (R85,
  R323). -/
  access : Option Bool
deriving DecidableEq, Repr

/-- A collective group as this device knows it (R380, R413). -/
structure Group where
  number : Nat
  /-- Ranks in order: pod number, pod device number, core. -/
  ranks : List (Nat × Nat × Nat)
  formed : Bool
  closed : Bool
  /-- The task identifiers it is granted to (R413). -/
  grants : List (BitVec 32)
  /-- The index k of each rank of this device, by core: the COLJs it has issued since the grant (R380). -/
  counts : List (Nat × Nat)
  barrier : Nat
  /-- The barriers below this index are those that this device has joined (R311; the model's own). -/
  joined : Nat
  /-- While the devices agree to a rollback: whether they return to the interval before the newest, and whether every one is
  reached (R376; the model's own). -/
  rewind : Option (Bool × Bool)
  /-- The level-3 members of this device have all halted: it arrives at every barrier to come (R311). -/
  gone : Bool
deriving DecidableEq, Repr

/-- What a striker recorded at a checkpoint of a group: the interval, its next strike number, and of each group that it numbers
the barrier index and the indices of the ranks (R392). -/
structure GroupMark where
  group : Nat
  interval : Nat
  next : BitVec 32
  indices : List (Nat × Nat × List (Nat × Nat))
deriving DecidableEq, Repr

/-- State of a pair (group, k) at its striker (R389). -/
inductive PairState where
  | active | started | voided | aborted | completed
deriving DecidableEq, Repr

/-- A pair at its striker (R381, R383). -/
structure Pair where
  group : Nat
  index : Nat
  strike : BitVec 32
  state : PairState
  requests : List (Nat × StrikeDesc)
  done : List Nat
  /-- Status that a voided pair gives (R389). -/
  status : Nat
  /-- The cycle in which the standby acknowledges its assignment, or that it is STARTED (R384). -/
  ackAt : Nat
deriving DecidableEq, Repr

/-- A striker with its standby (R381 to R384): its next number, and the first that the standby has not acknowledged. -/
structure Striker where
  next : BitVec 32
  acked : BitVec 32
  standby : Bool
  pairs : List Pair
deriving DecidableEq, Repr

/-- A read of the host that is wider than a unit of 8 bytes, while its units are read (R408): its place, and the bytes of the units
that have been read, none where one is poisoned. -/
structure HostAsk where
  addr : Nat
  len : Nat
  got : List (Nat × Option (List Byte))
deriving DecidableEq, Repr

/-- The signed configuration record (R406); values marked default are the spec's. -/
structure ConfigRecord where
  valid : Bool
  podDevice : BitVec 10
  pod : BitVec 11
  /-- The µs of the device clock at which device time is 0 (R336). -/
  epoch : Nat
  revision : BitVec 16
  barSize : Nat
  requireSignatures : Bool
  thi : Nat
  tlo : Nat
  ttrip : Nat
  floorBudget : Nat
  minSecurity : Nat
  /-- The public keys under which model images are checked, by index (R329, R406). -/
  keys : List (List Byte)
  /-- Operating points of the cube, vector, SRAM and fabric rails: millivolts, and MHz where programs can see it (R393). -/
  rails : Vector (Nat × Option Nat) 4
deriving DecidableEq, Repr

/-- What the device reports to the firmware of errors that change no stream (R70, R311, R364). -/
inductive FirmwareReport where
  /-- The copies of a page that did not acknowledge an invalidation, by home (R70). -/
  | copyFenced (home : CoreId) (page : Nat) (copies : BitVec 8)
  /-- A barrier of a group completed with an error (R311). -/
  | barrierError (group index : Nat)
  /-- The line of a save area that faulted in a spill (R364). -/
  | saveArea (core : CoreId) (va : Word)
deriving DecidableEq, Repr

/-- The hub (R8): host port, UALink ports, collective engine, firmware, always-on domain. -/
structure Hub where
  /-- DEVSTAT (R80). Reset: 0. -/
  devstat : Word
  /-- BOOTSTAT (R403). Reset: 0. -/
  bootstat : Word
  /-- HLSTAT (R86). Reset: 0. -/
  hlstat : Word
  /-- ULSTAT of the 18 ports (R87). Reset: 0. -/
  ulstat : Vector Word 18
  /-- UALink ports that have reached STATE 2, or been marked STATE 3, since their training began (R88; the model's own).
  Reset: 0. -/
  portSettled : BitVec 18
  /-- ULUNRT (R80). Reset: 0. -/
  ulunrt : Word
  /-- PWRSTAT (R399). Reset: the floor budget with FLR 1. -/
  pwrstat : Word
  /-- PWRLAST (R399). Reset: 0. -/
  pwrlast : Word
  /-- The cycle in which the budget lease ends (R400). Reset: none. -/
  lease : Option Nat
  /-- MSI-X table contents (R80). Reset: DESIGN CHOICE 0 (log 1). -/
  msixTable : Table Byte
  /-- Mask bit of each entry of the MSI-X table, bit 0 of its last word (R80; assumption 75). Reset: PRESUMED all ones (log 75). -/
  msixMask : BitVec 1040
  /-- MSI-X pending-bit array (R80). Reset: 0. -/
  msixPending : BitVec 1040
  /-- MSI-X raises: how many times each vector was raised (R81). Reset: none. -/
  msix : Table Nat
  /-- Doorbell latches (R82). Reset: DESIGN CHOICE 0 (log 1). -/
  latches : Table (BitVec 32)
  /-- Queues whose descriptor was ignored at the last accepted doorbell (R320). Reset: none. -/
  ignored : List Nat
  /-- The journal of consumed packets (R321). Reset: none. -/
  packets : List Packet
  /-- Accepted doorbell writes whose packets have not all been consumed, oldest first: queue, tail, order (R323). Reset:
  none. -/
  bells : List (Nat × BitVec 32 × Nat)
  /-- Queues with an accepted doorbell write for which the firmware has not yet read the descriptor again: it was gated or
  restarting, or queues were not open (R83, R320). Reset: none. -/
  rung : List Nat
  /-- The gallery (R327). Reset: every slot empty. -/
  gallery : List (Nat × GallerySlot)
  /-- Collective groups (R413). Reset: none. -/
  groups : List Group
  /-- Strikers by number (R381). Reset: none. -/
  strikers : List (Nat × Striker)
  /-- What strikers recorded at checkpoints of groups, newest first (R392). Reset: none. -/
  marks : List GroupMark
  /-- The reservation table as last read: 16 entries of 512 bits (R336). Reset: 0. -/
  reservations : Vector (BitVec 512) 16
  /-- Resends of the word in flight on each die-to-die link (R366). Reset: 0. -/
  d2dResends : Vector Nat 14
  /-- Die-to-die links marked failed (R366). Reset: 0. -/
  d2dFailed : BitVec 14
  /-- Work in hand of the six workers: packets not yet handed on (R318). Reset: 0. -/
  workerFaults : Nat
  /-- Reports held during a restart of the lock-step pair (R326). Reset: none. -/
  heldReports : List Instr
  /-- The configuration record (R406). Reset: DESIGN CHOICE (log 2). -/
  config : ConfigRecord
  /-- The copies of the firmware image in board flash, the first tried first (R402, R404). Reset: DESIGN CHOICE two copies that are
  signed (log 2). -/
  flash : List FirmwareImage
  /-- The certificate of the device's identity key, in board flash (R404). Reset: DESIGN CHOICE empty (log 2). -/
  certificate : List Byte
  /-- The public key of the identity key pair, once step 2 of bring-up has derived it (R402, R404). Reset: none. -/
  identity : Option (List Byte)
  /-- The last attestation report (R405). Reset: none. -/
  report : List Byte
  /-- Writes of the firmware that wait for the host's snoop response, oldest first: IA, bytes, and a vector that follows them
  (R79, R324). Reset: none. -/
  fwWrites : List (Nat × List Byte × Option Nat)
  /-- A read of the host whose units are being read (R408). Reset: none. -/
  hostAsk : Option HostAsk
  /-- Accesses of peers to slices that wait for sub-banks: the access, and what it waits for (R118, R121; the model's own). Reset:
  none. -/
  hubWaits : List (Instr × List (CoreId × Nat))
  /-- Requests of this device that a striker has not answered: group, index, rank or device, and values (R384). Reset: none. -/
  asked : List (Nat × Nat × Nat × StrikeDesc)
  /-- Bytes of the last host read (R79). Reset: none. -/
  hostReply : List Byte
  /-- The last host read met poison (R73). Reset: false. -/
  hostPoison : Bool
  /-- Bytes returned to the last peer request (R84). Reset: none. -/
  peerReply : List Byte
  /-- Shares of peer memory that the peer answers as absent (R66; the model's own). Reset: none. -/
  peerAbsent : List Nat
  /-- Shares of the host-visible range are mapped and pinned (R79). Reset: false. -/
  hostMapped : Bool
  /-- Rails at their operating points (R393). Reset: true. -/
  railsUp : Bool
  /-- The operating points in force, laid out as ConfigRecord.rails (R393). Reset: those of the record. -/
  rails : Vector (Nat × Option Nat) 4
  /-- The sparing record in board flash passes its check (R406). Reset: DESIGN CHOICE true (log 2). -/
  sparingValid : Bool
  /-- A bring-up step is under way (R402). Reset: false. -/
  booting : Bool
  /-- The last step of the bring-up sequence under way: 10, or 8 after a function-level reset (R76, R402). Reset: 10. -/
  bootEnd : Nat
  /-- The first copy of the firmware image has failed its check (R402). Reset: false. -/
  imageTried : Bool
  /-- The contexts whose images the archivist has written to areas that software names, by the number of the write
  (R359, R365; the model's own). Reset: none. -/
  images : List (Nat × Ctx)
  /-- Which of them hold a context that its own task has swapped out and not staged since, whose jobs go on there: number of the
  image, and core (R114, R365, R391; the model's own). Reset: none. -/
  away : List (Nat × CoreId)
  /-- Reports that the firmware has received, oldest first (R70, R311, R364). Reset: none. -/
  reports : List FirmwareReport
deriving DecidableEq, Repr

/-- What an instruction's issue came to. -/
inductive IssueStatus where
  | ok
  /-- The bundle is held and nothing of it issues. -/
  | held (h : Hold)
  /-- An immediate trap at the bundle (R345). -/
  | trapped (t : TrapReq)
  /-- The bundle issues whole and the trap of TRAP is then taken (R345). -/
  | software (t : TrapReq) (code : BitVec 14)
  /-- The bundle issues whole and TRET then acts (R355). -/
  | returning
  /-- The firmware stops the stream (R354). -/
  | stopping (t : TrapReq)
deriving DecidableEq, Repr

/-- Which stream is issuing, and what came of it (the model's own). -/
structure Issue where
  core : CoreId
  sec : Bool
  status : IssueStatus
  /-- Tags named by C slots of this cycle (R94). -/
  tagsNamed : Word
  /-- A control transfer was made by this bundle (R181). -/
  transfer : Bool
  /-- Ring entries pushed by this bundle so far (R157, R158). -/
  pushed : Nat
  /-- The first number that an operation of this bundle can take: a lower one was issued earlier (R160). -/
  base : Nat
  /-- Bank and row of the places that the L slot of this bundle needs two cycles on (R118, R120). -/
  late : List (Nat × Nat)
  /-- Bank and row of the places that step 0 of a tile operation in the merged bundle takes (R118, R120). -/
  beside : List (Nat × Nat)
  /-- Jobs that the C slots of this bundle have still to start (R94). -/
  jobs : Nat
  /-- The G-flagged operation of this bundle has used its rendezvous without issuing (R273). -/
  unmet : Bool
deriving DecidableEq, Repr

/-- The whole machine. -/
structure State where
  /-- Cycles of the arithmetic clock since reset (R3): device time. Reset: 0. -/
  now : Nat
  /-- The core whose turn it is in this cycle (the model's own). Reset: 0. -/
  turn : CoreId
  /-- The issuing stream (the model's own). Reset: core 0, primary. -/
  issue : Issue
  /-- Events from outside, the next first (the model's own). Reset: none. -/
  inputs : List Instr
  /-- Events under way with the cycle they are due (the model's own). Reset: none. -/
  agenda : List (Nat × Instr)
  /-- Times of work whose time is not promised, the next first; 1 cycle when it runs out (the model's own). Reset: none. -/
  delays : List Nat
  /-- Count of the free values drawn (the model's own). Reset: DESIGN CHOICE 0 (log 4). -/
  free : Nat
  /-- Number of the next operation, job, task or packet (the model's own). Reset: 0. -/
  nextId : Nat
  /-- The eight cores (R8). Reset: Core.reset. -/
  cores : Vector Core 8
  /-- Memory by IA: every byte that differs from 0 (R52). Reset: none listed, every byte 0: DESIGN CHOICE (log 1). -/
  mem : List Host.Cell
  /-- Poisoned lines of HBM and poisoned words of slices, by IA (R73, R123); a line of home h's copy of a page lies at
  2^52 × (h + 1) above it (R68). Reset: none. -/
  poison : List Nat
  /-- Single-bit errors not yet found, by IA of the 8-byte word, in the same way (R72, R123). Reset: none. -/
  flips : List Nat
  /-- Uncorrectable errors not yet found, by IA of the 8-byte word, in the same way (R73, R123). Reset: none. -/
  fatals : List Nat
  /-- The restoration log, newest first (R64, R306). Reset: none. -/
  log : List LogEntry
  /-- The eight homes (R8). Reset: Home.reset. -/
  homes : Vector Home 8
  /-- The hub (R8). Reset: Hub.reset. -/
  hub : Hub
  /-- The tasks (R333). Reset: none. -/
  tasks : List Task
deriving DecidableEq, Repr

/-- An inactive loop level. -/
def LoopLevel.reset : LoopLevel := { active := false, start := 0, stop := 0, rem := 0 }

/-- An inactive loop set. -/
def LoopSet.reset : LoopSet := { l0 := LoopLevel.reset, l1 := LoopLevel.reset }

/-- A stream before any task. -/
def Stream.reset : Stream :=
  { live := false, halted := false, started := false, stopped := none, stopAt := 0, haltCode := 0, pc := 0, ipc := 0, sc := 0, idle := 0
    s := Vector.replicate 64 0, p := 0, ring := Vector.replicate 8 0, ringHeld := Vector.replicate 8 0, pushes := 0
    opBase := 0, ld := 0, st := 0, cp := 0, tl := 0, at_ := 0, loops := LoopSet.reset, hloops := LoopSet.reset
    inflight := [], latches := [], stat := 0, tpc := 0, tstat := 0, tcause := 0, tval := 0, tvec := 0
    fflags := 0, fresh := 0, seed := 0, gens := Vector.replicate 128 0, wait := .none, asking := none, fetching := none, savedWait := .none, savedAt := (0, 0), hold := .none
    passed := none, waitCount := 0, pending := [], counts := Vector.replicate 5 0, snap := 0, own := [], ops := []
    answers := [], badScalar := [], badRing := [], badPred := 0, checks := 0, checking := [] }

/-- The EMPTY plane set (R288). -/
def PlaneSet.reset : PlaneSet :=
  { held := false, sums := [], bound := 0, magx := false, rows := 0, cols := 0, mask := 0, deg := false, ox := 0, oy := 0 }

/-- A context before any task. ctl.stat.SEC is 1 in the secondary stream (R162). -/
def Ctx.reset : Ctx :=
  { prim := Stream.reset, sec := { Stream.reset with stat := 4 }, v := Vector.replicate 64 0, m := Vector.replicate 8 0
    str := Vector.replicate 16 0, acc := [], accw := [], accBad := [], badVector := [], badMask := [], badStream := [], plane := PlaneSet.reset
    win := Vector.replicate 32 0, tagBusy := 0, tags := 0, tagStatus := Vector.replicate 64 0, cperr := 0, doneJobs := []
    codes := Vector.replicate 16 0, e := Vector.replicate 16 0, shbound := 2, domain := 0, rns := 0, rnsstat := 0
    chk := 0, cubeEvents := 0, tlDone := 0, slab := none, gang := 0, joins := Vector.replicate 6 0, gangCount := 0, gangMet := none, tiles := [], jobs := []
    task := 0, taskId := 0, placed := 0, shape := 0, hdrFlags := 0, secEntry := 0, slabVals := [], strFresh := 0, cubeFresh := 0 }

/-- A core after reset. -/
def Core.reset : Core :=
  { live := false, ctx := Ctx.reset, bank := .empty, shadow := Ctx.reset, saveArea := 0, saveVa := 0, bankByTask := false
    bankFor := none, spill := none, swapEnd := 0, sliceBusy := false, xfer := none, xferAt := 0, xferHeld := false, sliceTask := none, cubeDrain := false, cyc := 0, thr := 0, thrFresh := 0, spstat := 0, spaddr := 0, spdiag := 0
    rinj := 0, rinjSet := 0, ox := 0, oy := 0, balance := 131072, rate := 2048, slew := 2048, frameCost := 0, framePrev := 0
    thermalStep := 0, floors := (0, 0), tripSince := none, tooHot := false, catalogue := Vector.ofFn (fun i => BitVec.ofNat 5 i.val)
    layers := 0xFFFF, failedDies := 0, dieReports := [], usable := true, resCache := [], packetJobs := [], remote := [], writeback := []
    highWater := 0, lastQueue := none, endWrites := [], sensor := 0, evaluated := false, granted := [], booked := [], patrol := 0, fed := false, pause := none, primHeld := false }

/-- A home after reset. -/
def Home.reset : Home :=
  { pte := [], pool8 := [], pool64 := [], used := 0, free8 := [], free64 := [], hostFrames := none, hecnt := 0, hestat := 0
    headdr := 0, cache := [], invalidating := [], held := [], snapLines := [], chkLines := [], snoops := [] }

/-- The configuration record the model assumes, with the spec's defaults for the thresholds (R394) and the
floor budget (R400); the rest is a DESIGN CHOICE (assumption 2). -/
def ConfigRecord.reset : ConfigRecord :=
  { valid := true, podDevice := 0, pod := 0, epoch := 0, revision := 0, barSize := 2 ^ 30, requireSignatures := false
    thi := 100, tlo := 92, ttrip := 115, floorBudget := 1200, minSecurity := 0, keys := [List.replicate 64 0]
    rails := #v[(700, some 1600), (750, some 1600), (800, some 1600), (850, none)] }

/-- The settings in force: those of the configuration record, or, as a record that fails its check is not used, the defaults
(R406; assumption 2). -/
def Hub.settings (h : Hub) : ConfigRecord := if h.config.valid then h.config else { ConfigRecord.reset with valid := false }

/-- The hub after reset. PWRSTAT holds the floor budget with FLR set (R399). -/
def Hub.reset : Hub :=
  { devstat := 0, bootstat := 0, hlstat := 0, ulstat := Vector.replicate 18 0, portSettled := 0, ulunrt := 0
    pwrstat := 0x1000 ||| 1200, pwrlast := 0, lease := none, msixTable := [], msixMask := BitVec.allOnes 1040, msixPending := 0, msix := [], latches := [], ignored := []
    packets := [], bells := [], rung := [], gallery := [], groups := [], strikers := [], marks := [], reservations := Vector.replicate 16 0
    d2dResends := Vector.replicate 14 0, d2dFailed := 0, workerFaults := 0, heldReports := []
    config := ConfigRecord.reset, flash := List.replicate 2 { body := [], signed := true, security := 0 }, certificate := [], identity := none
    report := [], fwWrites := [], hostAsk := none, hubWaits := [], asked := [], hostReply := [], hostPoison := false
    peerReply := [], peerAbsent := [], hostMapped := false, railsUp := true, rails := ConfigRecord.reset.rails, sparingValid := true, booting := false, bootEnd := 10, imageTried := false, images := [], away := [], reports := [] }

/-- The machine right after reset: every register at the value the spec gives for reset, or at the value that
an assumption names; nothing listed in memory. -/
def State.reset : State :=
  { now := 0, turn := 0
    issue := { core := 0, sec := false, status := .ok, tagsNamed := 0, transfer := false, pushed := 0, base := 0, late := [], beside := [], jobs := 0, unmet := false }
    inputs := [], agenda := [], delays := [], free := 0, nextId := 0
    cores := Vector.replicate 8 Core.reset, mem := [], poison := [], flips := [], fatals := [], log := []
    homes := Vector.replicate 8 Home.reset, hub := Hub.reset, tasks := [] }

end Sys2Proof.Machine
end

