-- ==== Sys2Proof/Machine/Tables.lean ====
section
/-! DEFINITION. Sparse tables in canonical form: keys strictly rising, no entry equal to what an unlisted key
reads as. Memory is such a table of bytes (R52). -/

namespace Sys2Proof.Machine

/-- The value at a key; d for a key that is not listed. -/
def tget {β : Type} (d : β) : Table β → Nat → β
  | [], _ => d
  | (k', v) :: r, k => if k' = k then v else tget d r k

/-- Write a key, keeping the canonical form. -/
def tput {β : Type} [DecidableEq β] (d : β) : Table β → Nat → β → Table β
  | [], k, v => if v = d then [] else [(k, v)]
  | (k', v') :: r, k, v =>
    if k < k' then (if v = d then (k', v') :: r else (k, v) :: (k', v') :: r)
    else if k = k' then (if v = d then r else (k, v) :: r)
    else (k', v') :: tput d r k v

/-- The canonical form, with every key at least lo. -/
def twfFrom {β : Type} [DecidableEq β] (d : β) (lo : Nat) : Table β → Bool
  | [] => true
  | (k, v) :: r => lo ≤ k && v ≠ d && twfFrom d (k + 1) r

/-- The canonical form. -/
def twf {β : Type} [DecidableEq β] (d : β) (t : Table β) : Bool := twfFrom d 0 t

/-- The canonical form of memory: unlisted bytes read as 0 (assumption 1). -/
def Memory.wf (m : Table Byte) : Bool := twf 0#8 m

/-- The byte at an address. -/
def Memory.get (m : Table Byte) (a : Nat) : Byte := tget 0#8 m a

/-- Write one byte. -/
def Memory.put (m : Table Byte) (a : Nat) (b : Byte) : Table Byte := tput 0#8 m a b

/-- The n bytes from an address. -/
def Memory.bytes (m : Table Byte) (a : Nat) : Nat → List Byte
  | 0 => []
  | n + 1 => Memory.get m a :: Memory.bytes m (a + 1) n

/-- Write the pairs of addresses and bytes in order. -/
def Memory.putAll (m : Table Byte) : List (Nat × Byte) → Table Byte
  | [] => m
  | (a, b) :: r => Memory.putAll (Memory.put m a b) r

/-- The number that a little-endian list of bytes holds (R2). -/
def natOfBytes : List Byte → Nat
  | [] => 0
  | b :: r => b.toNat + 256 * natOfBytes r

/-- The n little-endian bytes of a number (R2). -/
def bytesOfNat : Nat → Nat → List Byte
  | 0, _ => []
  | n + 1, x => BitVec.ofNat 8 x :: bytesOfNat n (x / 256)

/-- Pair the bytes of a list with rising addresses. -/
def atAddr (a : Nat) : List Byte → List (Nat × Byte)
  | [] => []
  | b :: r => (a, b) :: atAddr (a + 1) r

/-- Replace the value under a key in a list of pairs, or add it at the end. -/
def aput {β : Type} (l : List (Nat × β)) (k : Nat) (v : β) : List (Nat × β) :=
  match l with
  | [] => [(k, v)]
  | (k', v') :: r => if k' = k then (k, v) :: r else (k', v') :: aput r k v

/-- The value under a key in a list of pairs. -/
def aget {β : Type} (l : List (Nat × β)) (k : Nat) : Option β :=
  match l with
  | [] => none
  | (k', v) :: r => if k' = k then some v else aget r k

/-- Remove a key from a list of pairs. -/
def adel {β : Type} (l : List (Nat × β)) (k : Nat) : List (Nat × β) := l.filter (fun p => p.1 != k)

/-- Add a number to a list without repeats, newest first, at most n long. -/
def addRecent (n : Nat) (l : List Nat) (x : Nat) : List Nat := (x :: l.filter (· != x)).take n

/-- Insert an element before the first that it comes before. -/
def insertBy {α : Type} (le : α → α → Bool) (x : α) : List α → List α
  | [] => [x]
  | y :: r => if le x y then x :: y :: r else y :: insertBy le x r

/-- Sort a list by an order; elements that the order ties keep their places. -/
def sortBy {α : Type} (le : α → α → Bool) (l : List α) : List α := l.foldr (insertBy le) []

/-- Fold a step over the numbers 0 to n - 1 in rising order. -/
def foldUp {α : Type} (n : Nat) (f : α → Nat → α) (a : α) : α :=
  match n with
  | 0 => a
  | n + 1 => f (foldUp n f a) n

end Sys2Proof.Machine
end

