-- ==== Sys2Proof/Machine/Ops.lean ====
section
/-! DEFINITION. The named operations over the state: access to cores, contexts and streams; the general
registers; results in flight; events under way; free values; taking a trap and returning from one. -/

namespace Sys2Proof.Machine

/-- What a meaning answers. -/
abbrev Answer := Host.Outcome State Fault Refusal

/-! ### Access to the parts of the state -/

/-- The core of a number. -/
def State.core (s : State) (c : CoreId) : Core := s.cores[c.val]'c.isLt

/-- Change one core. -/
def State.updCore (s : State) (c : CoreId) (f : Core → Core) : State :=
  { s with cores := s.cores.set c.val (f (s.cores[c.val]'c.isLt)) c.isLt }

/-- The home of a number. -/
def State.home (s : State) (h : CoreId) : Home := s.homes[h.val]'h.isLt

/-- Change one home. -/
def State.updHome (s : State) (h : CoreId) (f : Home → Home) : State :=
  { s with homes := s.homes.set h.val (f (s.homes[h.val]'h.isLt)) h.isLt }

/-- Change the hub. -/
def State.updHub (s : State) (f : Hub → Hub) : State := { s with hub := f s.hub }

/-- The primary or the secondary stream of a context. -/
def Ctx.stream (x : Ctx) (sec : Bool) : Stream := if sec then x.sec else x.prim

/-- Change one stream of a context. -/
def Ctx.updStream (x : Ctx) (sec : Bool) (f : Stream → Stream) : Ctx :=
  if sec then { x with sec := f x.sec } else { x with prim := f x.prim }

/-- Change the live context of a core. -/
def Core.updCtx (k : Core) (f : Ctx → Ctx) : Core := { k with ctx := f k.ctx }

/-- The live context of a core. -/
def State.ctx (s : State) (c : CoreId) : Ctx := (s.core c).ctx

/-- Change the live context of a core. -/
def State.updCtx (s : State) (c : CoreId) (f : Ctx → Ctx) : State := s.updCore c (fun k => k.updCtx f)

/-- A stream of the live context of a core. -/
def State.stream (s : State) (c : CoreId) (sec : Bool) : Stream := (s.ctx c).stream sec

/-- Change a stream of the live context of a core. -/
def State.updStream (s : State) (c : CoreId) (sec : Bool) (f : Stream → Stream) : State :=
  s.updCtx c (fun x => x.updStream sec f)

/-- The issuing stream. -/
def State.cur (s : State) : Stream := s.stream s.issue.core s.issue.sec

/-- The context of the issuing stream. -/
def State.curCtx (s : State) : Ctx := s.ctx s.issue.core

/-- The core of the issuing stream. -/
def State.curCore (s : State) : Core := s.core s.issue.core

/-- Change the issuing stream. -/
def State.updCur (s : State) (f : Stream → Stream) : State := s.updStream s.issue.core s.issue.sec f

/-- Change the context of the issuing stream. -/
def State.updCurCtx (s : State) (f : Ctx → Ctx) : State := s.updCtx s.issue.core f

/-- Change the core of the issuing stream. -/
def State.updCurCore (s : State) (f : Core → Core) : State := s.updCore s.issue.core f

/-- Record what the issue of an instruction came to. -/
def State.setStatus (s : State) (i : IssueStatus) : State := { s with issue := { s.issue with status := i } }

/-- The live context (false) or the one in the shadow bank (true). -/
def Core.bankCtx (k : Core) (sh : Bool) : Ctx := if sh then k.shadow else k.ctx

/-- Change the live context or the one in the shadow bank. -/
def Core.updBank (k : Core) (sh : Bool) (f : Ctx → Ctx) : Core :=
  if sh then { k with shadow := f k.shadow } else { k with ctx := f k.ctx }

/-- Change the live context of a core or the one in its shadow bank. -/
def State.updBank (s : State) (c : CoreId) (sh : Bool) (f : Ctx → Ctx) : State :=
  s.updCore c (fun k => k.updBank sh f)

/-! ### General registers -/

/-- The value of a scalar register; s0 reads as zero (R165). -/
def Stream.rs (x : Stream) (r : BitVec 6) : Word := if r = 0#6 then 0 else x.s[r.toNat]'r.isLt

/-- Write a scalar register; a write to s0 is discarded (R165). -/
def Stream.ws (x : Stream) (r : BitVec 6) (v : Word) : Stream :=
  if r = 0#6 then x else { x with s := x.s.set r.toNat v r.isLt }

/-- The value of a predicate; p7 is always true (R165). -/
def Stream.rp (x : Stream) (i : BitVec 3) : Bool := i = 7#3 || x.p.getLsbD i.toNat

/-- Write the predicates p0 to p6 that mask names (R165). -/
def Stream.wp (x : Stream) (mask val : BitVec 7) : Stream := { x with p := (x.p &&& ~~~mask) ||| (val &&& mask) }

/-- The mask with the bit of one predicate; empty for p7 (R165). -/
def predBit (i : BitVec 3) : BitVec 7 := BitVec.ofNat 7 (2 ^ i.toNat)

/-- The value of a mask register; m0 reads as all ones (R154). -/
def Ctx.rm (x : Ctx) (i : BitVec 3) : BitVec 512 := if i = 0#3 then BitVec.allOnes 512 else x.m[i.toNat]'i.isLt

/-- Write the bits of a mask register that mask names; a write to m0 has no effect (R154). -/
def Ctx.wm (x : Ctx) (i : BitVec 3) (mask val : BitVec 512) : Ctx :=
  if i = 0#3 then x
  else { x with m := x.m.set i.toNat (((x.m[i.toNat]'i.isLt) &&& ~~~mask) ||| (val &&& mask)) i.isLt }

/-- The image of a vector register (R153). -/
def Ctx.rv (x : Ctx) (r : BitVec 6) : BitVec 8192 := x.v[r.toNat]'r.isLt

/-- Write the bits of a vector register that mask names (R153). -/
def Ctx.wv (x : Ctx) (r : BitVec 6) (mask val : BitVec 8192) : Ctx :=
  { x with v := x.v.set r.toNat (((x.v[r.toNat]'r.isLt) &&& ~~~mask) ||| (val &&& mask)) r.isLt }

/-- The 512 bits of a stream register (R155). -/
def Ctx.rstr (x : Ctx) (n : BitVec 4) : BitVec 512 := x.str[n.toNat]'n.isLt

/-- A word of a stream register (R155). -/
def Ctx.strWord (x : Ctx) (n : BitVec 4) (w : BitVec 3) : Word := (x.rstr n).extractLsb' (64 * w.toNat) 64

/-- The bits that STSET can write in word w of a stream register (R155, R180). -/
def strWritable (w : Nat) : Word :=
  match w with
  | 0 => 0x7FFFFFFFFF
  | 1 => 0xFFFFFFFFFFFFFFFF
  | 2 => 0xFFFFFFFF
  | 3 => 0xFFFFFFFFFFFFFFFF
  | 4 => 0xFFFFFFFF
  | 5 => 0xFFFFFFFF07FFFFFF
  | 6 => 0xFFFFFFFFFFFFFFFF
  | _ => 0

/-- Write a word of a stream register; reserved bits and word 7 are ignored (R155, R180). -/
def Ctx.wstr (x : Ctx) (n : BitVec 4) (w : BitVec 3) (v : Word) : Ctx :=
  let sh := 64 * w.toNat
  let hole : BitVec 512 := ~~~(BitVec.ofNat 512 (2 ^ 64 - 1) <<< sh)
  let new := ((x.rstr n) &&& hole) ||| ((v &&& strWritable w.toNat).setWidth 512 <<< sh)
  { x with str := x.str.set n.toNat new n.isLt }

/-! ### Bit fields -/

/-- Replace len bits of a word from bit lo by the low bits of v. -/
def putBits (x : Word) (lo len : Nat) (v : Word) : Word :=
  let m : Word := BitVec.ofNat 64 (2 ^ len - 1)
  (x &&& ~~~(m <<< lo)) ||| ((v &&& m) <<< lo)

/-- len bits of a word from bit lo, as a number. -/
def getBits (x : Word) (lo len : Nat) : Nat := (x.extractLsb' lo len).toNat

/-- Add to a field of a status register, stopping at its largest value (R4, R74, R86). -/
def satAdd (x : Word) (lo len n : Nat) : Word :=
  putBits x lo len (BitVec.ofNat 64 (Nat.min (getBits x lo len + n) (2 ^ len - 1)))

/-- A number of 32 bits is serially ahead of another (R82, R381, R400). -/
def serialAhead (a b : BitVec 32) : Bool := 1 ≤ (a - b).toNat && (a - b).toNat < 2 ^ 31

/-- ctl.stat.HND (R162). -/
def Stream.hnd (x : Stream) : Bool := x.stat.getLsbD 3

/-- ctl.stat.IMODE: 1 is interlocked (R39, R162). -/
def Stream.inter (x : Stream) : Bool := x.stat.getLsbD 1

/-- ctl.stat.PRIV (R162). -/
def Stream.priv (x : Stream) : Bool := x.stat.getLsbD 0

/-- ctl.stat.DUP (R162). -/
def Stream.dup (x : Stream) : Bool := x.stat.getLsbD 6

/-- ctl.stat.RND (R162). -/
def Stream.rnd (x : Stream) : Nat := getBits x.stat 4 2

/-- The loop set in use (R184). -/
def Stream.curLoops (x : Stream) : LoopSet := if x.hnd then x.hloops else x.loops

/-- Replace the loop set in use. -/
def Stream.setLoops (x : Stream) (l : LoopSet) : Stream :=
  if x.hnd then { x with hloops := l } else { x with loops := l }

/-- The address of the next bundle as a word. -/
def Stream.pcWord (x : Stream) : Word := x.pc ++ 0#5

/-! ### Events under way and free values -/

/-- Put an event under way, due after a time that the spec does not promise: the next of the schedule. -/
def State.after (s : State) (i : Instr) : State :=
  { s with agenda := s.agenda ++ [(s.now + Nat.max 1 (s.delays.headD 1), i)], delays := s.delays.tail }

/-- The next time that is not promised. -/
def State.delay (s : State) : Nat := Nat.max 1 (s.delays.headD 1)

/-- It is used up. -/
def State.delayed (s : State) : State := { s with delays := s.delays.tail }

/-- Put an event under way, due after n cycles. -/
def State.afterN (s : State) (n : Nat) (i : Instr) : State :=
  { s with agenda := s.agenda ++ [(s.now + n, i)] }

/-- Put an event under way whose time is bounded: it is due within n cycles. -/
def State.afterAtMost (s : State) (n : Nat) (i : Instr) : State :=
  { s with agenda := s.agenda ++ [(s.now + Nat.max 1 (Nat.min n (s.delays.headD 1)), i)], delays := s.delays.tail }

/-- Put an event under way whose time lies between two bounds. -/
def State.afterWithin (s : State) (lo hi : Nat) (i : Instr) : State :=
  { s with agenda := s.agenda ++ [(s.now + Nat.max lo (Nat.min hi (s.delays.headD lo)), i)], delays := s.delays.tail }

/-- Take an event out of those under way. -/
def State.cancelEvent (s : State) (i : Instr) : State := { s with agenda := s.agenda.filter (fun p => p.2 ≠ i) }

/-- The next free value (assumption 4). -/
def State.freeVal (s : State) : Word := Config.freeWord s.free

/-- Count a free value as drawn. -/
def State.drawFree (s : State) : State := { s with free := s.free + 1 }

/-- Raise an MSI-X vector (R81): its message is sent, or is pending while the vector is masked (R80). -/
def State.msix (s : State) (v : Nat) : State :=
  s.updHub (fun h => { h with msix := tput 0 h.msix v (tget 0 h.msix v + 1)
                              msixPending := if h.msixMask.getLsbD v then h.msixPending ||| BitVec.ofNat 1040 (2 ^ v) else h.msixPending })

/-! ### Fixed-latency results -/

/-- Issue a result of latency L: it lands at the start of stream cycle t + L (R40). -/
def Stream.emit (x : Stream) (lat : Nat) (d : Dest) : Stream :=
  { x with inflight := x.inflight ++ [{ due := x.sc + lat, dest := d }] }

/-- Issue a result of the issuing stream (R40). -/
def State.emit (s : State) (lat : Nat) (d : Dest) : State := s.updCur (fun x => x.emit lat d)

/-- The bits of a result land in a ring entry: an entry keeps the later push (R157). Where a tap names a result that has not
landed and the result pushed eight earlier has not landed either, the tap reads the entry's older contents (R158 names only
the case in which the earlier one has landed; assumption 82). -/
def Stream.landRing (x : Stream) (push : Nat) (val : BitVec 8192) : Stream :=
  let i := push % 8
  have h : i < 8 := Nat.mod_lt _ (by decide)
  if x.ringHeld[i] < push + 1 then
    { x with ring := x.ring.set i val h, ringHeld := x.ringHeld.set i (push + 1) h, badRing := x.badRing.filter (· != i) }
  else x

/-- The entry that holds a push has a parity error (R366). -/
def Stream.ringParity (x : Stream) (push : Nat) (bad : Bool) : Stream :=
  if bad && (x.ringHeld.toList.getD (push % 8) 0 == push + 1) then { x with badRing := push % 8 :: x.badRing.filter (· != push % 8) } else x

/-- OR flags into ctl.fflags (R151). -/
def Stream.orFlags (x : Stream) (f : BitVec 7) : Stream := { x with fflags := x.fflags ||| f.setWidth 64, fresh := x.fresh ||| f }

/-- Write a 1 KiB block of an accumulator image (R159, R235): block words of 32 bits, or bytes of accw. -/
def accPutBlock (t : Table (BitVec 32)) (n block : Nat) (val : BitVec 8192) : Table (BitVec 32) :=
  foldUp 256 (fun t i =>
    let e := 256 * block + i
    if e < 24576 then tput 0 t (24576 * n + e) (val.extractLsb' (32 * i) 32) else t) t

/-- The byte of the accw image at an offset (R159). -/
def accwByte (t : Table (BitVec 160)) (o : Nat) : Byte := (tget 0 t (o / 20)).extractLsb' (8 * (o % 20)) 8

/-- Write a byte of the accw image (R159). -/
def accwPutByte (t : Table (BitVec 160)) (o : Nat) (b : Byte) : Table (BitVec 160) :=
  let e := o / 20
  let sh := 8 * (o % 20)
  let old := tget 0 t e
  tput 0 t e ((old &&& ~~~((0xFF#160) <<< sh)) ||| (b.setWidth 160 <<< sh))

/-- Write a 1 KiB block of accw (R159, R235). -/
def accwPutBlock (t : Table (BitVec 160)) (block : Nat) (val : BitVec 8192) : Table (BitVec 160) :=
  foldUp 1024 (fun t i =>
    let o := 1024 * block + i
    if o < 491520 then accwPutByte t o (val.extractLsb' (8 * i) 8) else t) t

/-- Set some bits of a status word. -/
def setBitIf (x : Word) (bit : Nat) (b : Bool) : Word := if b then x ||| BitVec.ofNat 64 (2 ^ bit) else x

/-- Add band-O, located and uncorrectable elements to ctl.rnsstat with their flags (R287, R299): LOCC 11:0, OVC
23:12, UNC 27:24, OVF 28, LOCF 29, UNCF 30. -/
def addResidueCounts (x : Word) (ovc locc unc : Nat) : Word :=
  let y := satAdd (satAdd (satAdd x 0 12 locc) 12 12 ovc) 24 4 unc
  setBitIf (setBitIf (setBitIf y 28 (0 < ovc)) 29 (0 < locc)) 30 (0 < unc)

/-- Record a deferred trap of a stream inside its context (R345, R358). -/
def Ctx.reportIn (x : Ctx) (sec : Bool) (t : TrapReq) : Ctx :=
  x.updStream sec (fun y =>
    if y.stopped.isSome || y.pending.any (fun q => q.cause == t.cause) then y
    else { y with pending := y.pending ++ [t] })

/-- A result reaches its destination (R40, R157, R339). -/
def Ctx.land (x : Ctx) (sec : Bool) (d : Dest) : Ctx :=
  match d with
  | .scalar r v =>
    x.updStream sec (fun t => { t.ws r v with badScalar := t.badScalar.filter (· != r) })
  | .pred mask val => x.updStream sec (fun t => { t.wp mask val with badPred := t.badPred &&& ~~~mask })
  | .vec r mask val push =>
    let y := { x.wv r mask val with badVector := x.badVector.filter (fun b => b.1 != r || mask.extractLsb' (64 * b.2) 64 ≠ BitVec.allOnes 64) }
    match push with
    | none => y
    | some n => y.updStream sec (fun t => (t.landRing n (y.rv r)).ringParity n (y.badVector.any (fun b => b.1 == r)))
  | .mask r mask val =>
    { x.wm r mask val with badMask := x.badMask.filter (fun b => b.1 != r || mask.extractLsb' (64 * b.2) 64 ≠ BitVec.allOnes 64) }
  | .ringZero n => x.updStream sec (fun t => t.landRing n 0)
  | .accBlock n block val =>
    if n.toNat < 4 then { x with acc := accPutBlock x.acc n.toNat block val
                                 accBad := x.accBad.filter (fun e => !(24576 * n.toNat + 256 * block ≤ e && e < 24576 * n.toNat + 256 * block + 256)) }
    else { x with accw := accwPutBlock x.accw block val
                  accBad := x.accBad.filter (fun e => !(98304 ≤ e && 98304 + 1024 * block ≤ 20 * (e - 98304) + 98304 && 20 * (e - 98304) + 20 ≤ 1024 * block + 1024)) }
  | .streamWord n w v =>
    let y := { x.wstr n w v with badStream := x.badStream.filter (· != (n, w)) }
    if w = 6 then { y with strFresh := y.strFresh ||| BitVec.ofNat 16 (2 ^ n.toNat) } else y
  | .flags f => x.updStream sec (fun t => t.orFlags f)
  | .residueCounts a b c => { x with rnsstat := addResidueCounts x.rnsstat a b c }
  | .report cause tval => x.reportIn sec { cause := cause, tval := tval }
  | .badScalar r => x.updStream sec (fun t => { t with badScalar := r :: t.badScalar.filter (· != r) })
  | .badVector r lane push =>
    let y := { x with badVector := (r, lane) :: x.badVector.filter (· != (r, lane)) }
    match push with
    | none => y
    | some n => y.updStream sec (fun t => t.ringParity n true)
  | .badPred mask => x.updStream sec (fun t => { t with badPred := t.badPred ||| mask })
  | .badMask r word => { x with badMask := (r, word) :: x.badMask.filter (· != (r, word)) }
  | .badStream n w => { x with badStream := (n, w) :: x.badStream.filter (· != (n, w)) }
  | .badAcc key => { x with accBad := key :: x.accBad.filter (· != key) }

/-- Land every result of a stream that is due at stream cycle T or earlier, in issue order (R40). -/
def Ctx.landUpTo (x : Ctx) (sec : Bool) (T : Nat) : Ctx :=
  let due := (x.stream sec).inflight.filter (fun l => l.due ≤ T)
  due.foldl (fun y l => y.land sec l.dest)
    (x.updStream sec (fun t => { t with inflight := t.inflight.filter (fun l => !(l.due ≤ T)) }))

/-! ### Traps -/

/-- Stop a stream and report to the firmware, which rolls the task back when R374 holds and otherwise ends
it with STATUS 7 (R354, R374). at_ is the bundle that the record names. A double trap raises vector 0 (R81). -/
def State.stopStream (s : State) (c : CoreId) (sec : Bool) (t : TrapReq) (at_ : BitVec 59) : State :=
  let x := s.stream c sec
  let k := (s.ctx c).chk
  let cause (b : Nat) : Bool := b = 6 || b = 7 || b = 8 || b = 0x0A || b = 0x11
  let back := k.getLsbD 0 && k.getLsbD 1 && !k.getLsbD 3 &&
    (cause t.cause.toNat || (x.hnd && cause (getBits x.tcause 0 8)))
  let s1 := s.updStream c sec (fun x => { x with live := false, stopped := some t, stopAt := at_ ++ 0#5, hold := .none, wait := .none, asking := none, answers := [] })
  let s2 := if x.hnd then s1.msix 0 else s1
  s2.after (if back then .rollback (s.ctx c).task else .taskEnd (s.ctx c).task t.cause.toNat c sec)

/-- The boundary that a stream's bundle has passed (R310): the released hold, or what another slot's hold left. -/
def Stream.passedNow (x : Stream) : Option (BitVec 59 × Word) :=
  match x.hold with
  | .phase _ _ _ (some w) => some (x.pc, w)
  | _ => x.passed

/-- What EnterTrap does to the stream (R347, R353): T is the stream cycle of the bundle at which the trap is
taken. -/
def Stream.enter (x : Stream) (t : TrapReq) (at_ : BitVec 59) (df wt : Bool) (code : BitVec 14) (T : Nat) : Stream :=
  { x with
    latches := x.latches ++ x.inflight.map (fun l => { l with due := l.due - T })
    inflight := []
    tpc := at_ ++ 0#5
    tstat := x.stat &&& 0x7FFF
    tcause := (0#40 ++ code) ++ (BitVec.ofBool df ++ BitVec.ofBool wt ++ t.cause)
    tval := t.tval
    stat := x.stat ||| 8
    hloops := LoopSet.reset
    pc := x.tvec.extractLsb' 5 59
    idle := 2
    sc := T + 1
    savedWait := if wt then x.wait else .none
    savedAt := if wt then (x.ipc, x.pc) else (0, 0)
    wait := .none
    hold := .none
    passed := x.passedNow
    answers := []
    waitCount := 0 }

/-- Take a trap in a stream (R353): a double trap, or no handler, stops the stream (R354). A result due by stream
cycle T has landed before the trap is taken (R347). -/
def State.enterTrap (s : State) (c : CoreId) (sec : Bool) (t : TrapReq) (at_ : BitVec 59) (df wt : Bool)
    (code : BitVec 14) (T : Nat) : State :=
  let x := s.stream c sec
  if x.hnd || !x.tvec.getLsbD 0 then s.stopStream c sec t at_
  else (s.updCtx c (fun y => y.landUpTo sec T)).updStream c sec (fun x => x.enter t at_ df wt code T)

/-- Raise an immediate trap at the issuing bundle (R345). -/
def State.raise (s : State) (t : TrapReq) : State :=
  (s.enterTrap s.issue.core s.issue.sec t s.cur.pc false false 0 s.cur.sc).setStatus (.trapped t)

/-- Hold the issuing bundle: nothing of it issues (R40, R352). -/
def State.holdFor (s : State) (h : Hold) : State :=
  (s.updCur (fun x => { x with hold := h, passed := x.passedNow })).setStatus (.held h)

/-- Record a deferred trap of a stream (R345): a cause already pending is dropped; a stream that has halted is
treated as stopped (R192). -/
def State.report (s : State) (c : CoreId) (sec : Bool) (t : TrapReq) : State :=
  let x := s.stream c sec
  if x.stopped.isSome then s
  else if x.halted then s.stopStream c sec t x.pc
  else if x.pending.any (fun q => q.cause == t.cause) then s
  else s.updStream c sec (fun x => { x with pending := x.pending ++ [t] })

/-- Record a deferred trap of a stream of the live context or of the one in the shadow bank. -/
def State.reportBank (s : State) (c : CoreId) (sh sec : Bool) (t : TrapReq) : State :=
  if sh then s.updBank c true (fun x => x.reportIn sec t) else s.report c sec t

/-- What the return from a handler restores (R355): PRIV can only fall; IMODE, RND and DUP from ctl.tstat; HND
clears. -/
def tretStat (stat tstat : Word) : Word :=
  let keep := stat &&& ~~~(0x7B : Word)
  keep ||| (tstat &&& stat &&& 1) ||| (tstat &&& 0x72)

/-- Return from a handler once nothing of it is in flight (R347, R352, R355): u is the stream cycle of the
return, a control transfer, so the resumed bundle issues at u + 3. A bundle whose wait is resumed has its place at
u + 3 without issuing again; its freeze begins with stream cycle u + 4. -/
def Stream.leave (x : Stream) (u : Nat) : Stream :=
  let at_ := x.tpc.extractLsb' 5 59
  let resume := x.tcause.getLsbD 8 && x.savedWait ≠ .none && x.savedAt.1 = at_
  { x with
    stat := tretStat x.stat x.tstat
    pc := if resume then x.savedAt.2 else at_
    ipc := if resume then at_ else x.ipc
    idle := if resume then 4 else 3
    sc := u
    inflight := x.inflight ++ x.latches.map (fun l => { l with due := l.due + (u + 3) })
    latches := []
    wait := if resume then x.savedWait else .none
    passed := x.passed.filter (fun q => q.1 = at_)
    savedWait := .none
    savedAt := (0, 0) }

/-- A report that travels with a result in flight (R198, R235, R369). -/
def Dest.reports (d : Dest) (shadow : Bool) : Option TrapReq :=
  match d with
  | .report cause tval => if shadow && cause ≠ 0x06 then none else some { cause := cause, tval := tval }
  | _ => none

/-- A report of the shadow units (shadow), or any report, is in flight. -/
def Stream.reporting (x : Stream) (shadow : Bool) : Bool := x.inflight.any (fun l => (l.dest.reports shadow).isSome)

/-- The reports in flight become pending (R310, R312, R369): the stream is held at a boundary or a release. -/
def Ctx.flushReports (x : Ctx) (sec shadow : Bool) : Ctx :=
  ((x.stream sec).inflight.filterMap (fun l => l.dest.reports shadow)).foldl (fun y t => y.reportIn sec t)
    (x.updStream sec (fun t => { t with inflight := t.inflight.filter (fun l => (l.dest.reports shadow).isNone) }))

/-- Set a stream's snapshot point: applied writes leave its own-write set (R303, R304). -/
def Stream.setSnap (x : Stream) (t : Nat) : Stream :=
  { x with snap := t, own := x.own.filter (fun w => match w.applied with | some a => t < a | none => true) }

/-! ### The bundle that follows -/

/-- The end check of one loop level (R186): the level afterwards, and the start when the body repeats. -/
def LoopLevel.check (l : LoopLevel) (pc : BitVec 59) : LoopLevel × Option (BitVec 59) :=
  if l.active && pc == l.stop then
    if 1 < l.rem.toNat then ({ l with rem := l.rem - 1 }, some l.start)
    else ({ l with active := false, rem := 0 }, none)
  else (l, none)

/-- Choose the next bundle after one that makes no control transfer and does not halt (R186). -/
def LoopSet.next (l : LoopSet) (pc : BitVec 59) : LoopSet × BitVec 59 :=
  let r1 := l.l1.check pc
  match r1.2 with
  | some t => ({ l with l1 := r1.1 }, t)
  | none =>
    let r0 := l.l0.check pc
    match r0.2 with
    | some t => ({ l0 := r0.1, l1 := r1.1 }, t)
    | none => ({ l0 := r0.1, l1 := r1.1 }, pc + 1)

/-- After a bundle that makes no control transfer and does not halt: the next bundle, one stream cycle on (R40,
R186). -/
def Stream.advance (x : Stream) : Stream :=
  let r := x.curLoops.next x.pc
  { x.setLoops r.1 with pc := r.2, ipc := x.pc, sc := x.sc + 1 }

/-- Make a control transfer (R181): two idle cycles follow. -/
def State.transfer (s : State) (target : BitVec 59) : State :=
  let s1 := s.updCur (fun x => { x with pc := target, idle := 2 })
  { s1 with issue := { s1.issue with transfer := true } }

end Sys2Proof.Machine
end

