-- ==== Sys2Proof/Machine/Addr.lean ====
section
/-! DEFINITION. The intermediate address map, windows and translation, slice places, page tables and shares
(R52 to R70, R116, R117). -/

namespace Sys2Proof.Machine

/-! ### Regions (R52, R53) -/

/-- The region that an IA lies in. -/
inductive RegionKind where
  | pkg
  | stack (k : Nat)
  | slice (k : Nat)
  | host
  | peerPkg (d : Nat)
  | peerSlice (d k : Nat)
  | hole
deriving DecidableEq, Repr

/-- Bytes of a slice: 96 MiB. -/
def sliceBytes : Nat := 0x6000000

/-- First IA of slice k (R52). -/
def sliceBase (k : Nat) : Nat := 0x2000000000000 + k * 0x10000000

/-- First IA of the host window (R52). -/
def hostBase : Nat := 0x4000000000000

/-- The region of an IA (R52, R53). -/
def regionOf (ia : Nat) : RegionKind :=
  if ia < 0x1000000000000 then .pkg
  else if ia < 0x1800000000000 then .stack ((ia - 0x1000000000000) / 2 ^ 44)
  else if ia < 0x2000000000000 then .hole
  else if ia < 0x4000000000000 then
    let k := (ia - 0x2000000000000) / 0x10000000
    if k < 8 && (ia - 0x2000000000000) % 0x10000000 < sliceBytes then .slice k else .hole
  else if ia < 0x5000000000000 then .host
  else if ia < 0x8000000000000 then .hole
  else if ia < 0x10000000000000 then
    let d := (ia - 0x8000000000000) / 2 ^ 41
    let o := (ia - 0x8000000000000) % 2 ^ 41
    if o < 2 ^ 40 then .peerPkg d
    else if (o / 2 ^ 31) % 512 ≠ 0 then .hole
    else if o % 0x10000000 < sliceBytes then .peerSlice d ((o / 2 ^ 28) % 8)
    else .hole
  else .hole

/-- A range lies in one region that is no hole (R52). -/
def oneRegion (ia len : Nat) : Bool := regionOf ia ≠ .hole && regionOf ia = regionOf (ia + len - 1)

/-- The region is backed by HBM and keeps snapshots (R303). -/
def logged (r : RegionKind) : Bool :=
  match r with
  | .pkg => true
  | .stack _ => true
  | .peerPkg _ => true
  | _ => false

/-- The region is paged at a home of this device (R52). -/
def pagedHere (r : RegionKind) : Bool :=
  match r with
  | .pkg => true
  | .stack _ => true
  | _ => false

/-- The IA that a peer's offset names on this device, none in a hole (R53). -/
def peerTarget (off : Nat) : Option Nat :=
  if off < 2 ^ 40 then some off
  else if off < 2 ^ 41 && off / 2 ^ 31 % 512 = 0 && off % 2 ^ 28 < sliceBytes then some (sliceBase (off / 2 ^ 28 % 8) + off % 2 ^ 28)
  else none

/-- Where a byte lies: an IA in the peer window that names this device itself is the byte of this device that its offset names
(R53); any other IA is its own place. -/
def State.place (s : State) (ia : Nat) : Nat :=
  if 0x8000000000000 ≤ ia && ia < 0x10000000000000 && (ia - 0x8000000000000) / 2 ^ 41 = s.hub.settings.podDevice.toNat then
    (peerTarget ((ia - 0x8000000000000) % 2 ^ 41)).getD ia
  else ia

/-- Bytes at their places. -/
def State.placed (s : State) (bytes : List (Nat × Byte)) : List (Nat × Byte) := bytes.map (fun p => (s.place p.1, p.2))

/-- The home of an IA in package or stack-local memory; elsewhere 0 (R52). -/
def homeOf (ia : Nat) : CoreId :=
  match regionOf ia with
  | .stack k => ⟨k % 8, Nat.mod_lt _ (by decide)⟩
  | _ => ⟨(ia / 4096) % 8, Nat.mod_lt _ (by decide)⟩

/-! ### Windows (R55 to R57) -/

/-- What an access asks of its window (R57). -/
inductive AccessKind where
  | read | write | rmw | fetch | probe
deriving DecidableEq, Repr

/-- Register f of window n: 0 base, 1 size, 2 off, 3 attr (R55). -/
def winReg (w : Vector Word 32) (n : Fin 8) (f : Fin 4) : Word := w[4 * n.val + f.val]'(by omega)

/-- The first virtual address of window n (R55). -/
def winBase (w : Vector Word 32) (n : Fin 8) : Nat := getBits (winReg w n 0) 16 41 * 2 ^ 16

/-- The bytes of window n (R55). -/
def winSize (w : Vector Word 32) (n : Fin 8) : Nat := getBits (winReg w n 1) 0 41 * 2 ^ 16

/-- The IA of the first byte of window n (R55). -/
def winOff (w : Vector Word 32) (n : Fin 8) : Nat := getBits (winReg w n 2) 16 36 * 2 ^ 16

/-- The attribute bits of window n: R W Z MW REP NT from bit 0 (R55). -/
def winAttr (w : Vector Word 32) (n : Fin 8) : BitVec 6 := (winReg w n 3).extractLsb' 0 6

/-- Window n is enabled (R56). -/
def winEnabled (w : Vector Word 32) (n : Fin 8) : Bool :=
  winSize w n ≠ 0 && winBase w n + winSize w n ≤ 2 ^ 57 && winOff w n + winSize w n ≤ 2 ^ 52

/-- Window n is enabled and holds a 57-bit virtual address (R57). -/
def winHolds (w : Vector Word 32) (v : Nat) (n : Fin 8) : Bool :=
  winEnabled w n && winBase w n ≤ v && v < winBase w n + winSize w n

/-- The lowest-numbered enabled window that holds an address (R57). -/
def winFind (w : Vector Word 32) (v : Nat) : Option (Fin 8) :=
  [(0 : Fin 8), 1, 2, 3, 4, 5, 6, 7].find? (winHolds w v)

/-- Bits 63:57 of a virtual address repeat bit 56 (R57). -/
def canonical (va : Word) : Bool :=
  va.extractLsb' 57 7 = (if va.getLsbD 56 then 0x7F#7 else 0#7)

/-- The attributes that forbid an access (R57). -/
def attrDenies (a : BitVec 6) (k : AccessKind) : Bool :=
  let r := a.getLsbD 0
  let w := a.getLsbD 1
  let mw := a.getLsbD 3
  match k with
  | .read => !r
  | .fetch => !r
  | .write => !w || mw
  | .rmw => !r || !w || mw
  | .probe => !r && !w

/-- Translate (R57): the IA and the window's attributes, or none where RaiseTrap(0x0F, va) stands. -/
def translate (w : Vector Word 32) (va : Word) (len : Nat) (k : AccessKind) : Option (Nat × BitVec 6) :=
  if !canonical va then none
  else
    let v := getBits va 0 57
    match winFind w v with
    | none => none
    | some n =>
      if winBase w n + winSize w n < v + len then none
      else if attrDenies (winAttr w n) k then none
      else
        let ia := v - winBase w n + winOff w n
        if oneRegion ia len then some (ia, winAttr w n) else none

/-- The word that RANGE returns (R59). -/
def rangeWord (w : Vector Word 32) (va len : Word) (needW needR wantIa : Bool) : Word :=
  let v := getBits va 0 57
  let n := Nat.max len.toNat 1
  match (if canonical va then winFind w v else none) with
  | none => if wantIa then BitVec.allOnes 64 else 0
  | some i =>
    let a := winAttr w i
    let ia := v - winBase w i + winOff w i
    let ok := v + n ≤ winBase w i + winSize w i && (!needR || a.getLsbD 0) &&
      (!needW || (a.getLsbD 1 && !a.getLsbD 3)) && oneRegion ia n
    if wantIa then (if ok then BitVec.ofNat 64 ia else BitVec.allOnes 64)
    else BitVec.ofBool ok ++ 0#41 ++ a ++ 0#12 ++ 1#1 ++ BitVec.ofNat 3 i.val

/-! ### Slices (R117) -/

/-- Where a byte of a slice lies: bank 0 to 127 (64 to 127 north), row, sub-bank. -/
structure SlicePlace where
  bank : Nat
  row : Nat
deriving DecidableEq, Repr

/-- SlicePlace (R117). -/
def slicePlace (o : Nat) : SlicePlace :=
  if o < 0x3000000 then { bank := (o / 64) % 64, row := o / 4096 }
  else { bank := 64 + ((o - 0x3000000) / 96) % 64, row := (o - 0x3000000) / 6144 }

/-- The sub-bank of a place (R117). -/
def SlicePlace.sub (p : SlicePlace) : Nat := p.row % 2

/-- The number of a sub-bank among the 256 of a slice. -/
def SlicePlace.index (p : SlicePlace) : Nat := 2 * p.bank + p.sub

/-- Two places lie in one sub-bank. -/
def SlicePlace.sameSub (p q : SlicePlace) : Bool := p.bank = q.bank && p.sub = q.sub

/-- The places of the bytes of a range of a slice, without repeats. -/
def placesOf (o len : Nat) : List SlicePlace :=
  ((List.range len).map (fun i => slicePlace (o + i))).eraseDups

/-- ctl.tval of cause 0x03 (R127). -/
def bankRecord (p : SlicePlace) (kind : Nat) : Word :=
  BitVec.ofNat 64 (p.bank + 128 * p.sub + 256 * kind + 2 ^ 32 * p.row)

/-- ctl.tval of cause 0x03 for a byte outside the slice (R127). -/
def bankRecordOut (kind : Nat) : Word := BitVec.ofNat 64 (256 * kind + 2 ^ 11)

/-! ### Page tables and shares (R60 to R65) -/

/-- The key of a page-table entry: its level and its index path (R60; assumption 10). -/
def pteKey (level ia : Nat) : Nat :=
  match level with
  | 1 => 4 * (ia / 2 ^ 39)
  | 2 => 4 * (ia / 2 ^ 30) + 1
  | 3 => 4 * (ia / 2 ^ 21) + 2
  | _ => 4 * (ia / 2 ^ 16) + 3

/-- The bits of ADDR that must be zero at a leaf: log2 of the share's size (R61, R62). -/
def shareBits (level ia : Nat) : Nat :=
  match regionOf ia with
  | .pkg => if level = 3 then 18 else 13
  | _ => if level = 3 then 21 else 16

/-- What a walk finds (R60, R65). -/
inductive Walk where
  /-- A present leaf, its level and its entry. -/
  | leaf (level : Nat) (e : Word)
  /-- Nothing at level 4 under a present level-3 pointer. -/
  | under
  /-- No pointer. -/
  | absent
deriving DecidableEq, Repr

/-- Bytes of a home's HBM, from address 0, that an IA can reach: 64 GiB (R8) less the 4 GiB that R64 reserves, which the
model places at the top (assumption 72). -/
def hbmOpen : Nat := 0xF00000000

/-- ADDR of an entry (R61). -/
def pteAddr (e : Word) : Nat := getBits e 12 36 * 4096

/-- A present entry is malformed (R61): a reserved bit, LF wrong for its level, ADDR misaligned or above the home's HBM, or a
leaf whose share runs into the space that no IA reaches (R64). -/
def pteBad (level ia : Nat) (e : Word) : Bool :=
  let leaf := e.getLsbD 1
  e.getLsbD 11 || getBits e 48 16 ≠ 0 || (leaf && level < 3) || (!leaf && level = 4) ||
    (leaf && (pteAddr e % 2 ^ (shareBits level ia) ≠ 0 || hbmOpen < pteAddr e + 2 ^ (shareBits level ia))) || 2 ^ 36 ≤ pteAddr e

/-- The home-local address of a byte, from ADDR of the leaf of its page at a level (R62). -/
def homeLocal (level ia addr : Nat) : Nat :=
  let o := ia % 2 ^ (if level = 3 then 21 else 16)
  match regionOf ia with
  | .pkg => addr + o / 2 ^ 15 * 2 ^ 12 + o % 2 ^ 12
  | _ => addr + o

/-- Walk the part of the table that a home holds (R60), from a level, n levels at most: the outcome, and whether
a malformed entry was met (R61). -/
def walkFrom (pte : Table Word) (ia : Nat) : Nat → Nat → Walk × Bool
  | _, 0 => (.absent, false)
  | level, n + 1 =>
    let e := tget 0 pte (pteKey level ia)
    if !e.getLsbD 0 then (if level = 4 then .under else .absent, false)
    else if pteBad level ia e then (if level = 4 then .under else .absent, true)
    else if e.getLsbD 1 then (.leaf level e, false)
    else walkFrom pte ia (level + 1) n

/-- Walk from level 1 (R60). -/
def walk (pte : Table Word) (ia : Nat) : Walk × Bool := walkFrom pte ia 1 4

/-- The first IA of the share of a 64 KiB page that holds an IA (R62); peers divide their package memory as this device
does. -/
def shareOf (ia : Nat) : Nat :=
  match regionOf ia with
  | .pkg => ia / 65536 * 65536 + ((ia / 4096) % 8) * 4096
  | .peerPkg _ => ia / 65536 * 65536 + ((ia / 4096) % 8) * 4096
  | _ => ia / 65536 * 65536

/-- What names the share of a 2 MiB page that holds an IA (R62): 1 more than the IA of its first byte, which no share of a
64 KiB page has. -/
def bigShare (ia : Nat) : Nat :=
  match regionOf ia with
  | .pkg => ia / 2 ^ 21 * 2 ^ 21 + ((ia / 4096) % 8) * 4096 + 1
  | _ => ia / 2 ^ 21 * 2 ^ 21 + 1

/-- The bytes of a share lie in steps of this size: 4 KiB pieces in package memory, the page elsewhere (R62). -/
def sharesIn (ia len : Nat) : List Nat :=
  ((List.range ((ia % 4096 + len + 4095) / 4096)).map (fun i => shareOf ((ia / 4096 + i) * 4096))).eraseDups

/-- Set a bit of HESTAT of a home (R74). -/
def State.setHestat (s : State) (h : CoreId) (bit : Nat) : State :=
  s.updHome h (fun m => { m with hestat := m.hestat ||| BitVec.ofNat 64 (2 ^ bit) })

/-- An IA lies in the host-visible range, whose shares are mapped and pinned (R79). -/
def State.hostVisible (s : State) (ia : Nat) : Bool := s.hub.hostMapped && ia < s.hub.settings.barSize && regionOf ia = .pkg

/-- The leaf that the home of an IA finds for it. -/
def State.leafOf (s : State) (ia : Nat) : Option (Nat × Word) :=
  match (walk (s.home (homeOf ia)).pte ia).1 with
  | .leaf l e => some (l, e)
  | _ => none

/-- A share is resident: the host-visible range once mapped, or a present leaf (R62, R79); that of a peer unless the peer
answers it as absent (R66). -/
def State.resident (s : State) (ia : Nat) : Bool :=
  let a := s.place ia
  match regionOf a with
  | .pkg => s.hostVisible a || (s.leafOf a).isSome
  | .stack _ => (s.leafOf a).isSome
  | .peerPkg _ => !s.hub.peerAbsent.contains (shareOf a)
  | _ => true

/-- The home-local address of a byte in a home's HBM, where it is resident (R62). -/
def State.localOf (s : State) (h : CoreId) (ia : Nat) : Option Nat :=
  match (walk (s.home h).pte ia).1 with
  | .leaf l e => some (homeLocal l ia (pteAddr e))
  | _ => if s.hostVisible ia then (s.home h).hostFrames.map (fun b => homeLocal 4 ia (b + ia / 65536 * 8192)) else none

/-- What a core's residency cache records of a share that its home has confirmed: the share of the leaf (R62, R67). -/
def State.confirmKey (s : State) (ia : Nat) : Nat :=
  if pagedHere (regionOf ia) then
    match s.leafOf ia with
    | some (3, _) => bigShare ia
    | _ => shareOf ia
  else shareOf ia

/-- A core's residency cache holds the share (R67). -/
def Core.holds (k : Core) (sh : Nat) : Bool := k.resCache.contains sh || k.resCache.contains (bigShare sh)

/-! #### Frames (R17, R63 to R65; assumption 72) -/

/-- A free 64 KiB frame of a home: one handed back, or the next that has not been used. -/
def Home.frame64 (m : Home) : Option (Nat × Home) :=
  match m.free64 with
  | a :: r => some (a, { m with free64 := r })
  | [] => if m.used + 65536 ≤ hbmOpen then some (m.used, { m with used := m.used + 65536 }) else none

/-- A free 8 KiB frame of a home. -/
def Home.frame8 (m : Home) : Option (Nat × Home) :=
  match m.free8 with
  | a :: r => some (a, { m with free8 := r })
  | [] => m.frame64.map (fun p => (p.1, { p.2 with free8 := [1, 2, 3, 4, 5, 6, 7].map (fun i => p.1 + 8192 * i) }))

/-- A free frame for a share of a 64 KiB page: of package memory, or stack-local. -/
def Home.frame (m : Home) (pkg : Bool) : Option (Nat × Home) := if pkg then m.frame8 else m.frame64

/-- A frame is handed back; the eighth of a 64 KiB block gives the block back whole. -/
def Home.release (m : Home) (addr size : Nat) : Home :=
  if size < 65536 then
    let b := addr / 65536 * 65536
    let rest := m.free8.filter (fun a => a / 65536 ≠ addr / 65536)
    if m.free8.length = rest.length + 7 then { m with free8 := rest, free64 := b :: m.free64 }
    else { m with free8 := addr :: m.free8 }
  else { m with free64 := (List.range (size / 65536)).map (fun i => addr + 65536 * i) ++ m.free64 }

/-- Fill the pool of 8 KiB frames by n frames, as far as the home has them (R65). -/
def Home.fill8 : Nat → Home → Home
  | 0, m => m
  | n + 1, m =>
    match m.frame8 with
    | some (a, q) => Home.fill8 n { q with pool8 := a :: q.pool8 }
    | none => m

/-- The same for 64 KiB frames. -/
def Home.fill64 : Nat → Home → Home
  | 0, m => m
  | n + 1, m =>
    match m.frame64 with
    | some (a, q) => Home.fill64 n { q with pool64 := a :: q.pool64 }
    | none => m

/-- The firmware brings both pools of a home to 256 frames (R65). -/
def Home.fill (m : Home) : Home :=
  let q := Home.fill64 (256 - m.pool64.length) m
  Home.fill8 (256 - q.pool8.length) q

/-- A present leaf (R61). -/
def leafWord (addr : Nat) (pin : Bool) : Word := BitVec.ofNat 64 (addr + (if pin then 7 else 3))

/-- The firmware gives an IA a present level-4 leaf with a frame of its own, or pins the leaf that it has (R61 to R63). -/
def Home.mapLeaf (m : Home) (ia : Nat) (pin : Bool) : Home :=
  match (walk m.pte ia).1 with
  | .leaf l e => { m with pte := tput 0 m.pte (pteKey l ia) (if pin then e ||| 4 else e) }
  | .under =>
    match m.frame (regionOf ia = .pkg) with
    | some (a, q) => { q with pte := tput 0 q.pte (pteKey 4 ia) (leafWord a pin) }
    | none => m
  | .absent => m

/-- A present entry for an IA at a level, which stays when it is well formed; a new pointer names a table in a frame of its own
(R61, R65). -/
def Home.pointer (m : Home) (ia l : Nat) : Home :=
  let e := tget 0 m.pte (pteKey l ia)
  if e.getLsbD 0 && !pteBad l ia e then m
  else
    match m.frame8 with
    | some (a, q) => { q with pte := tput 0 q.pte (pteKey l ia) (BitVec.ofNat 64 (a + 1)) }
    | none => m

/-- The firmware gives an IA present pointers down to level 3 (R65). -/
def Home.pointers (m : Home) (ia : Nat) : Home := ((m.pointer ia 1).pointer ia 2).pointer ia 3

/-- A page loses its leaf at a home, and its frame is handed back (R63). -/
def Home.unmap (m : Home) (ia : Nat) : Home :=
  match (walk m.pte ia).1 with
  | .leaf l e => { m with pte := tput 0 m.pte (pteKey l ia) 0 }.release (pteAddr e) (2 ^ shareBits l ia)
  | _ => m

/-- A present leaf loses its PIN (R63). -/
def Home.unpin (m : Home) (ia : Nat) : Home :=
  match (walk m.pte ia).1 with
  | .leaf l e => { m with pte := tput 0 m.pte (pteKey l ia) (e &&& ~~~4) }
  | _ => m

/-- The firmware maps a share, or pins it (R63, R65); the host-visible range is mapped already (R79). -/
def State.mapShare (s : State) (ia : Nat) (pin : Bool) : State :=
  if s.hostVisible ia then s else s.updHome (homeOf ia) (fun m => m.mapLeaf ia pin)

/-- The firmware writes present pointers down to level 3 for an IA in its home's part of the table (R65). -/
def State.mapPointers (s : State) (ia : Nat) : State := s.updHome (homeOf ia) (fun m => m.pointers ia)

/-- The bytes of a share (R62). -/
def shareBytes (ia : Nat) : List Nat :=
  match regionOf ia with
  | .pkg => (List.range 4096).map (fun i => shareOf ia + i) ++ (List.range 4096).map (fun i => shareOf ia + 32768 + i)
  | _ => (List.range 65536).map (fun i => shareOf ia + i)

/-- The IA ranges of a share: first byte and length (R62). -/
def shareRanges (ia : Nat) : List (Nat × Nat) :=
  match regionOf ia with
  | .pkg => [(shareOf ia, 4096), (shareOf ia + 32768, 4096)]
  | _ => [(shareOf ia, 65536)]

/-- An address lies in one of some ranges. -/
def inRanges (rs : List (Nat × Nat)) (a : Nat) : Bool := rs.any (fun r => r.1 ≤ a && a < r.1 + r.2)

/-- A new frame reads as zero (R65): nothing of the share stays listed in memory. -/
def State.zeroShare (s : State) (ia : Nat) : State :=
  { s with mem := s.mem.filter (fun p => !inRanges (shareRanges ia) p.1)
           poison := s.poison.filter (fun a => !inRanges (shareRanges ia) a)
           flips := s.flips.filter (fun a => !inRanges (shareRanges ia) a)
           fatals := s.fatals.filter (fun a => !inRanges (shareRanges ia) a) }

/-- Take a pre-zeroed frame of the right size from the home's pool (R65). -/
def Home.takeFrame (m : Home) (pkg : Bool) : Option (Nat × Home) :=
  match (if pkg then m.pool8 else m.pool64) with
  | [] => none
  | a :: r => some (a, if pkg then { m with pool8 := r } else { m with pool64 := r })

/-- A home walks its part of the table for an IA: a malformed entry sets HESTAT.TBLERR (R61, R74). -/
def State.noteWalk (s : State) (h : CoreId) (ia : Nat) : State :=
  if (walk (s.home h).pte ia).2 then s.setHestat h 4 else s

/-- The homes walk for some addresses, one of each share (R61, R74). -/
def State.noteWalks (s : State) (as : List Nat) : State :=
  ((as.map (fun a => s.place a)).filter (fun a => pagedHere (regionOf a))).foldl (fun s a => s.noteWalk (homeOf a) a) s

/-- First touch of a share (R65): with Z, under a present level-3 pointer and with a frame in the pool. -/
def State.firstTouch (s : State) (ia : Nat) (z : Bool) : State :=
  let h := homeOf ia
  let s1 := s.noteWalk h ia
  if s.resident ia then s1
  else if !z then s1
  else
    match (walk (s.home h).pte ia).1 with
    | .under =>
      match (s1.home h).takeFrame (regionOf ia = .pkg) with
      | none => s1.setHestat h 3
      | some (a, m) =>
        let s2 := (s1.updHome h (fun _ => { m with pte := tput 0 m.pte (pteKey 4 ia) (leafWord a false) })).zeroShare ia
        let low := if regionOf ia = .pkg then m.pool8.length < 256 else m.pool64.length < 256
        if low then s2.after (.poolRefill h) else s2
    | _ => s1

/-- The home answers whether a share is present, after first touch (R65, R67). -/
def State.touchShare (s : State) (ia : Nat) (z : Bool) : State × Bool :=
  let a := s.place ia
  if pagedHere (regionOf a) then
    let s1 := s.firstTouch a z
    (s1, s1.resident a)
  else (s, s.resident a)

/-! #### Read copies (R68) -/

/-- RMASK of the page of an IA (R61). -/
def State.rmask (s : State) (ia : Nat) : BitVec 8 :=
  match regionOf ia with
  | .stack _ =>
    match s.leafOf ia with
    | some (_, e) => e.extractLsb' 3 8
    | none => 0
  | _ => 0

/-- Change RMASK of the page of an IA, at the level of its leaf (R61, R69). -/
def State.setRmask (s : State) (ia : Nat) (m : BitVec 8) : State :=
  match s.leafOf ia with
  | some (l, e) => s.updHome (homeOf ia) (fun h => { h with pte := tput 0 h.pte (pteKey l ia) (putBits e 3 8 (m.setWidth 64)) })
  | none => s

/-- The home that a read of core j is served by (R68): a copy when the window is replicable. -/
def State.servingHome (s : State) (j : CoreId) (ia : Nat) (rep : Bool) : CoreId :=
  if rep && (s.rmask ia).getLsbD j.val then j else homeOf ia

/-- The key of the error marks of a byte at the home that serves a read of it: a copy of the page has lines of its own (R68,
R72). -/
def State.servedAt (s : State) (j : CoreId) (rep : Bool) (ia : Nat) : Nat :=
  let a := s.place ia
  let h := s.servingHome j a rep
  if h = homeOf a then ia else 2 ^ 52 * (h.val + 1) + a

end Sys2Proof.Machine
end

