-- ==== Sys2Proof/Machine/Mem.lean ====
section
/-! DEFINITION. Memory as agents see it: the newest value, the value at a snapshot point, own-write sets, the
application of a write at its home or bank with the restoration log, error checks and poison (R64, R72, R73,
R123, R126, R303 to R308, R371, R411). -/

namespace Sys2Proof.Machine

/-- Who applies a write: its number for the snapshot pool, its snapshot point, its task when checkpoints are on
with the interval (R306, R371). -/
structure Writer where
  who : Nat
  snap : Nat
  chk : Option (Nat × Nat)
deriving DecidableEq, Repr

/-- A writer that is no stream of a task: the host, a peer, the firmware. -/
def Writer.outside : Writer := { who := 0, snap := 0, chk := none }

/-- A stream of a context as a writer. -/
def Ctx.writer (x : Ctx) (c : CoreId) (sec : Bool) : Writer :=
  { who := 1 + 16 * x.task + 2 * c.val + (if sec then 1 else 0)
    snap := (x.stream sec).snap
    chk := if x.chk.getLsbD 0 then some (x.task, getBits x.chk 4 17) else none }

/-- The unit that carries an error mark: the line in HBM, the 8-byte word in a slice (R73, R123). -/
def unitOf (a : Nat) : Nat :=
  match regionOf a with
  | .slice _ => a / 8 * 8
  | .peerSlice _ _ => a / 8 * 8
  | _ => a / 64 * 64

/-- Bytes in the unit of an address. -/
def unitSize (a : Nat) : Nat :=
  match regionOf a with
  | .slice _ => 8
  | .peerSlice _ _ => 8
  | _ => 64

/-- ctl.spdiag of the slice that an address lies in; 0 elsewhere (R410). -/
def State.spdiagOf (s : State) (a : Nat) : Word :=
  match regionOf a with
  | .slice k => if h : k < 8 then (s.core ⟨k, h⟩).spdiag else 0
  | _ => 0

/-- The core whose slice holds an address. -/
def sliceCore (a : Nat) : CoreId := ⟨((a - 0x2000000000000) / 0x10000000) % 8, Nat.mod_lt _ (by decide)⟩

/-- The stuck bit of a slice names the word of this address (R411). -/
def stuckAt (d : Word) (a : Nat) : Bool :=
  d.getLsbD 0 && getBits d 9 24 = (a - 0x2000000000000) % 0x10000000 / 8

/-- The stored byte with the stuck bit of R411 applied. -/
def forcedByte (d : Word) (a : Nat) (b : Byte) : Byte :=
  let bit := getBits d 3 6
  if stuckAt d a && bit / 8 = a % 8 then
    (if d.getLsbD 1 then b ||| BitVec.ofNat 8 (2 ^ (bit % 8)) else b &&& ~~~BitVec.ofNat 8 (2 ^ (bit % 8)))
  else b

/-- The stuck bit differs from the stored bit of the word at w (R411). -/
def State.stuckDiffers (s : State) (w : Nat) : Bool :=
  let d := s.spdiagOf w
  let a := w / 8 * 8 + getBits d 3 6 / 8
  stuckAt d w && forcedByte d a (Memory.get s.mem a) ≠ Memory.get s.mem a

/-- The newest value of a byte, as its home or bank holds it (R308); in a slice read raw, with the stuck bit and
with the free bits of an error, found or not (R411). -/
def State.byteNow (s : State) (ia : Nat) : Byte :=
  let a := s.place ia
  let b := Memory.get s.mem a
  let d := s.spdiagOf a
  if d.getLsbD 2 then
    let noise := if s.flips.contains (unitOf a) || s.fatals.contains (unitOf a) || s.poison.contains (unitOf a)
      then (Config.rawNoise (unitOf a)).extractLsb' (8 * (a % 8)) 8 else 0
    forcedByte d a (b ^^^ noise)
  else b

/-- The first IA of the line of a byte (R54). -/
def lineOf (a : Nat) : Nat := a / 64 * 64

/-- The entries of the restoration log for the line of a byte that record writes of cycles later than a snapshot point, newest
first (R306). -/
def State.undone (s : State) (snap a : Nat) : List LogEntry := s.log.filter (fun e => e.line = lineOf a && snap < e.time)

/-- The value that a byte held at a snapshot point: writes applied in a later cycle are undone (R303, R306). Where the pool
had no entry for a first write among them, the old value or the new one is found, freely for each byte (assumption 4), and
for a whole 8-byte word of which the host or another agent outside has written something (R408). -/
def State.valueAt (s : State) (snap a : Nat) : Byte :=
  let now := Memory.get s.mem a
  let es := s.undone snap a
  match es.getLast? with
  | none => now
  | some e =>
    let u := if es.any (fun e => e.who = 0) then a / 8 * 8 else a
    if es.all (·.kept) || Config.oldSeen snap s.now u then e.old.getD (a % 64) 0 else now

/-- What a plain read returns for a byte (R303, R305): the bytes of the own-write set first, then the snapshot
of logged memory, else the newest value. -/
def State.plainByte (s : State) (snap : Nat) (own : List (Nat × Byte)) (ia : Nat) : Byte :=
  let a := s.place ia
  if logged (regionOf a) then
    match aget (s.placed own) a with
    | some b => b
    | none => s.valueAt snap a
  else s.byteNow ia

/-- A store and a read of one stream are related: equal classes, or one of class 0 (R202). -/
def OwnWrite.related (w : OwnWrite) (cls : BitVec 3) : Bool := w.cls == cls || w.cls == 0#3 || cls == 0#3

/-- The bytes of a write that a read happens to see though the two are not related: a race, settled freely for each 8-byte
unit (R202; assumption 27). -/
def OwnWrite.raced (w : OwnWrite) (id : Nat) : List (Nat × Byte) :=
  w.bytes.reverse.filter (fun p => Config.raceSeen id w.id (p.1 / 8))

/-- The bytes of its stream's own writes that a read of class c over a range returns, latest write first (R202, R304): those
of jobs and of related stores, and of a store that is not related where the race gives them, wherever the bytes lie (R53).
id: the read's number. -/
def State.ownBytes (s : State) (id : Nat) (own : List OwnWrite) (c : BitVec 3) (lo len : Nat) : List (Nat × Byte) :=
  own.flatMap (fun w => (if w.job || w.related c then w.bytes.reverse else w.raced id).filter (fun p =>
    s.place lo ≤ s.place p.1 && s.place p.1 < s.place lo + len))

/-- The peer device whose memory a region is. -/
def RegionKind.peer (r : RegionKind) : Option Nat :=
  match r with
  | .peerPkg d => some d
  | .peerSlice d _ => some d
  | _ => none

/-- STATE of a UALink port (R87). -/
def portState (u : Word) : Nat := getBits u 0 2

/-- A UALink port is up (R87). -/
def State.portUp (s : State) (port : Nat) : Bool := portState (s.hub.ulstat.toList.getD port 0) = 2

/-- The ports that are up and lead to a peer (R84, R85). -/
def State.portsTo (s : State) (d : Nat) : List Nat := (List.range 18).filter (fun i => s.portUp i && Config.portReaches i d)

/-- The links that reach a region are up (R85): the host link in L0, or some UALink port that leads to the peer. -/
def State.linkUp (s : State) (r : RegionKind) : Bool :=
  match r with
  | .host => getBits s.hub.hlstat 0 3 ≠ 0
  | r => match r.peer with
    | some d => s.portsTo d ≠ []
    | none => true

/-- The port that a request to a 256-byte block of a peer is sent on: by the peer's number and the address (R84). -/
def State.portFor (s : State) (block : Nat) : Option Nat :=
  match (regionOf (256 * block)).peer with
  | some d => let up := s.portsTo d; up[Config.spread d block % up.length]?
  | none => none

/-- The 256-byte blocks of peers that some addresses lie in: the hub sends a request for each (R84). A window that names this
device itself is served over the fabric like any other (R53). -/
def peerBlocks (as : List Nat) : List Nat := ((as.filter (fun a => (regionOf a).peer.isSome)).map (· / 256)).eraseDups

/-- The requests to peers for some addresses, with the port that each is sent on (R84). -/
def State.requests (s : State) (as : List Nat) : List (Nat × Option Nat) := (peerBlocks as).map (fun b => (b, s.portFor b))

/-- 50 ms: an access on a link that has not completed by then fails (R75, R85). -/
def accessLimit : Nat := 80000000

/-- Some of the addresses lie in the host window. -/
def onHost (as : List Nat) : Bool := as.any (fun a => regionOf a = .host)

/-- Some of them lie in the memory of a peer. -/
def onPeer (as : List Nat) : Bool := as.any (fun a => (regionOf a).peer.isSome)

/-- The completion timeouts of an access run from here (R75, R85). -/
def State.awaitLinks (s : State) (c : CoreId) (id : Nat) (as : List Nat) : State :=
  let s1 := if onHost as then s.afterN accessLimit (.hostCompletionTimeout c id) else s
  if onPeer as then s1.afterN accessLimit (.peerAccessTimeout c id) else s1

/-- A byte reads as poison (R73, R85, R123, R411). -/
def State.poisoned (s : State) (a : Nat) : Bool :=
  !s.linkUp (regionOf a) || (s.poison.contains (unitOf (s.place a)) && !(s.spdiagOf (s.place a)).getLsbD 2)

/-- The home whose HBM holds a line, or the copy of a line (R52, R68). -/
def markHome (line : Nat) : CoreId := if line < 2 ^ 52 then homeOf line else ⟨(line / 2 ^ 52 - 1) % 8, Nat.mod_lt _ (by decide)⟩

/-- Set HESTAT.UE, raising vector 0 when it was clear, and record the address (R74, R81). -/
def State.markUe (s : State) (line : Nat) : State :=
  let h := markHome line
  let was := (s.home h).hestat.getLsbD 0
  let s1 := s.setHestat h 0
  if was then s1 else (s1.updHome h (fun m => { m with headdr := BitVec.ofNat 64 (line % 2 ^ 52) })).msix 0

/-- The 64-bit words of a line, each with check bits of its own (R72). -/
def wordsOf (line : Nat) : List Nat := [0, 1, 2, 3, 4, 5, 6, 7].map (fun i => line + 8 * i)

/-- The words of a line in which the controller finds a single-bit error (R72). -/
def State.flipsIn (s : State) (line : Nat) : Nat := ((wordsOf line).filter (fun w => s.flips.contains w && !s.fatals.contains w)).length

/-- The words of a line in which it finds an uncorrectable error (R72, R73). -/
def State.fatalsIn (s : State) (line : Nat) : Nat := ((wordsOf line).filter s.fatals.contains).length

/-- A home reads one of its lines: corrections and errors are found and counted, word by word (R72 to R74). R72 does not say
whether the controller also rewrites a line that it corrects on a demand read: that only the patrol read does is the
model's choice (assumption 71). -/
def State.noteLine (s : State) (line : Nat) : State :=
  let h := markHome line
  let s1 := if s.poison.contains line then s else s.updHome h (fun m => { m with hecnt := satAdd m.hecnt 0 32 (s.flipsIn line) })
  let s2 := if 0 < s.fatalsIn line then
      { s1.updHome h (fun m => { m with hecnt := satAdd m.hecnt 48 12 (s.fatalsIn line) }) with
        fatals := s1.fatals.filter (fun w => w / 64 * 64 ≠ line), poison := line :: s1.poison.filter (· != line) }
    else s1
  if s2.poison.contains line then (s2.markUe line).setHestat h 1 else s2

/-- Count an uncorrectable error of a slice (R125, R126). -/
def State.sliceUe (s : State) (w : Nat) : State :=
  s.updCore (sliceCore w) (fun k =>
    { k with spstat := satAdd k.spstat 32 16 1 ||| BitVec.ofNat 64 (2 ^ 48)
             spaddr := if k.spstat.getLsbD 48 then k.spaddr else BitVec.ofNat 64 ((w - 0x2000000000000) % 0x10000000) })

/-- A bank reads one of its words: corrections and errors are found and counted (R123, R125, R411). A word that is already
poisoned is not detected again: R125 does not say whether a later read of it counts, and that it does not is the model's
choice (assumption 71). -/
def State.noteWord (s : State) (w : Nat) : State :=
  if (s.spdiagOf w).getLsbD 2 then s
  else
    let stuck := s.stuckDiffers w
    let flip := s.flips.contains w
    if s.poison.contains w then s
    else if s.fatals.contains w || (stuck && flip) then
      let s1 := s.sliceUe w
      { s1 with fatals := s1.fatals.filter (· != w), poison := w :: s1.poison }
    else if stuck || flip then
      (s.updCore (sliceCore w) (fun k =>
        { k with spstat := satAdd k.spstat 0 32 1, writeback := (w :: k.writeback.filter (· != w)) }))
    else s

/-- The unit of an address is read where it is stored, or at the home of a copy. -/
def State.noteUnit (s : State) (u : Nat) : State :=
  match regionOf u with
  | .pkg => s.noteLine u
  | .stack _ => s.noteLine u
  | .slice _ => s.noteWord u
  | _ => if 2 ^ 52 ≤ u then s.noteLine u else s

/-- The units that some addresses lie in, without repeats. -/
def unitsOf (as : List Nat) : List Nat := (as.map unitOf).eraseDups

/-- Addresses are read where they are stored. -/
def State.noteReads (s : State) (as : List Nat) : State := (unitsOf (as.map s.place)).foldl State.noteUnit s

/-- The addresses of a range. -/
def addrs (ia len : Nat) : List Nat := (List.range len).map (fun i => ia + i)

/-- Ways and sets of the memory-side cache of a home: 32 MiB of 64-byte lines (R71). -/
def cacheWays : Nat := 16
def cacheSets : Nat := 32768

/-- A line comes into the cache, for the line of its set that has not been used for the longest time (R71; assumption 73). -/
def Home.allocate (m : Home) (line : Nat) : Home :=
  let rest := m.cache.filter (· ≠ line)
  let same := fun (l : Nat) => decide (l / 64 % cacheSets = line / 64 % cacheSets)
  let kept := (rest.filter same).take (cacheWays - 1)
  { m with cache := line :: rest.filter (fun l => !same l || kept.contains l) }

/-- A home serves a request for a byte through its memory-side cache, where the line is then held unless the request is
non-temporal (R68, R71); its walk may meet a malformed entry (R61). -/
def State.cacheTouch (s : State) (h : CoreId) (ia : Nat) (nt : Bool) : State :=
  let a := s.place ia
  if pagedHere (regionOf a) then
    let s1 := s.noteWalk h a
    if nt then s1
    else
      match s1.localOf h a with
      | some l => s1.updHome h (fun m => m.allocate (l / 64 * 64))
      | none => s1
  else s

/-- ctl.chk.OVF is set in every context of a task: live, in a shadow bank, or saved (R371, R372). -/
def State.setOvf (s : State) (task : Nat) : State :=
  let f := fun (x : Ctx) => if x.task = task then { x with chk := x.chk ||| 8 } else x
  [(0 : CoreId), 1, 2, 3, 4, 5, 6, 7].foldl (fun s c => s.updCore c (fun k => { k with ctx := f k.ctx, shadow := f k.shadow }))
    { s with tasks := s.tasks.map (fun t => { t with saved := t.saved.map (fun p => (p.1, f p.2)) }) }

/-- The snapshot points that a context still reads under (R304, R306). -/
def Ctx.snaps (x : Ctx) : List Nat :=
  [x.prim, x.sec].flatMap (fun y => (if y.live then [y.snap] else []) ++ y.ops.map (·.snap)) ++ x.jobs.map (·.snap)

/-- Every snapshot point in use on the device, those of contexts that are swapped out among them (R306). -/
def State.snaps (s : State) : List Nat :=
  s.cores.toList.flatMap (fun k =>
    (if k.live then k.ctx.snaps else []) ++ (match k.bank with | .empty => [] | _ => k.shadow.snaps)) ++
  s.tasks.flatMap (fun t => t.saved.flatMap (fun p => p.2.snaps)) ++
  s.hub.away.flatMap (fun a => ((aget s.hub.images a.1).map (·.snaps)).getD [])

/-- Release the log entries that no snapshot point precedes (R306). -/
def State.trimLog (s : State) : State :=
  let lo := s.snaps.foldl Nat.min s.now
  let s1 := { s with log := s.log.filter (fun e => lo < e.time) }
  [(0 : CoreId), 1, 2, 3, 4, 5, 6, 7].foldl (fun s h =>
    s.updHome h (fun m => { m with snapLines := m.snapLines.filter (fun e => lo < e.time) })) s1

/-- An entry of the restoration log lies in the HBM that R64 reserves, and passes through the cache of its home (R71): the
model puts entry n of a pool at the n-th line of it (assumption 72). -/
def Home.touchLog (m : Home) (pool n : Nat) : Home := m.allocate (hbmOpen + pool * 2 ^ 30 + 64 * (n % 2 ^ 24))

/-- A read under a snapshot point finds the entry of a line in the log (R71, R306). -/
def Home.readLog (m : Home) (snap line : Nat) : Home :=
  match m.snapLines.findIdx? (fun q => q.line = line && snap < q.time && q.kept) with
  | some i => m.touchLog 0 (m.snapLines.length - 1 - i)
  | none => m

/-- The homes read the log for the lines of some addresses, as a plain read under a snapshot point does (R71, R303, R306). -/
def State.readLogs (s : State) (snap : Nat) (as : List Nat) : State :=
  (((as.map s.place).filter (fun a => pagedHere (regionOf a))).map lineOf).eraseDups.foldl
    (fun s l => s.updHome (homeOf l) (fun m => m.readLog snap l)) s

/-- Log a line for the checkpoint interval of its writer, once (R371); without room in the pool the task's
ctl.chk.OVF is set. -/
def State.logCheckpoint (s : State) (w : Writer) (line : Nat) : State :=
  match w.chk with
  | none => s
  | some (task, interval) =>
    let m := s.home (homeOf line)
    if m.chkLines.any (fun e => e.task = task && e.interval = interval && e.line = line) then s
    else if 2 ^ 24 ≤ m.chkLines.length then s.setOvf task
    else s.updHome (homeOf line) (fun m =>
      { m.touchLog 1 m.chkLines.length with
        chkLines := { task := task, interval := interval, line := line, old := Memory.bytes s.mem line 64 } :: m.chkLines })

/-- The log records the old value of a line, with the writer and its phase (R64, R306). -/
def State.logOld (s : State) (w : Writer) (line : Nat) (kept : Bool) : State :=
  { s with log := { time := s.now, line := line, who := w.who, snap := w.snap, old := Memory.bytes s.mem line 64, kept := kept } :: s.log }

/-- A home enters the first write of a writer to a line in its pool, in a place of the pool when it has room (R64, R71). -/
def Home.enterSnap (m : Home) (q : SnapLine) : Home :=
  { (if q.kept then m.touchLog 0 m.snapLines.length else m) with snapLines := q :: m.snapLines }

/-- The first write of a writer to a line after its snapshot point takes an entry of the pool; a first write that finds none is
applied without one, and raises vector 1 (R306). -/
def State.snapLine (s : State) (w : Writer) (line : Nat) : State :=
  let m := s.home (homeOf line)
  match m.snapLines.find? (fun q => q.line = line && q.who = w.who && w.snap < q.time) with
  | some q => s.logOld w line q.kept
  | none =>
    let room := decide ((m.snapLines.filter (·.kept)).length < 2 ^ 24)
    ((if room then s else s.msix 1).updHome (homeOf line) (fun m =>
      m.enterSnap { time := s.now, line := line, who := w.who, kept := room })).logOld w line room

/-- Log the old value of a line for the snapshots (R64, R306). An entry is held while some stream's snapshot point precedes the
write that it records. -/
def State.logSnapshot (s : State) (w : Writer) (line : Nat) : State :=
  let t := s.trimLog
  if !t.snaps.any (· < t.now) then t
  else match regionOf line with
  | .peerPkg _ => t.logOld w line true
  | _ => t.snapLine w line

/-- The home of a line logs its old value before it writes it (R64, R306, R371). -/
def State.logLine (s : State) (w : Writer) (line : Nat) : State :=
  let s1 := if logged (regionOf line) then s.logSnapshot w line else s
  if pagedHere (regionOf line) then s1.logCheckpoint w line else s1

/-- One byte is written where it is stored. -/
def State.putByte (s : State) (a : Nat) (b : Byte) : State := { s with mem := Memory.put s.mem a b }

/-- The pairs of a list are written where they are stored, in order. -/
def State.putBytes (s : State) (bytes : List (Nat × Byte)) : State := bytes.foldl (fun s p => s.putByte p.1 p.2) s

/-- The end of the highest 1 KiB block written in a slice (R335). -/
def State.raiseHigh (s : State) (a : Nat) : State :=
  match regionOf a with
  | .slice _ => s.updCore (sliceCore a) (fun k =>
      { k with highWater := Nat.max k.highWater (((a - 0x2000000000000) % 0x10000000) / 1024 * 1024 + 1024) })
  | _ => s

/-- A write to part of one unit or to all of it (R64, R73, R126, R411). A line is logged first; it loses its poison when it is
written whole, and the marks of the 8-byte words that are. A partial write of a slice word that is poisoned is dropped and
counted once; any other gives the word new check bits. -/
def State.writeUnit (s : State) (w : Writer) (u : Nat) (bytes : List (Nat × Byte)) : State :=
  let as := (bytes.map (·.1)).eraseDups
  let whole := decide (unitSize u ≤ as.length)
  let clear := fun (s : State) =>
    { s with poison := s.poison.filter (· != u), flips := s.flips.filter (· != u), fatals := s.fatals.filter (· != u) }
  match regionOf u with
  | .slice _ =>
    let put := fun (s : State) => (s.putBytes bytes).raiseHigh u
    if whole then clear (put s)
    else if (s.spdiagOf u).getLsbD 2 then clear (put (s.putBytes ((addrs u 8).map (fun a => (a, s.byteNow a)))))
    else
      let s1 := s.noteWord u
      if s.poison.contains u then s1.sliceUe u
      else if s1.poison.contains u then s1
      else
        { put s1 with flips := s1.flips.filter (· != u) : State }.updCore (sliceCore u) (fun k =>
          { k with writeback := k.writeback.filter (· != u) })
  | _ =>
    let s1 := (s.logLine w u).putBytes bytes
    let anew := fun (x : Nat) => whole && x / 64 * 64 = u || (addrs x 8).all as.contains
    { s1 with poison := if whole then s1.poison.filter (· != u) else s1.poison
              flips := s1.flips.filter (fun x => !anew x), fatals := s1.fatals.filter (fun x => !anew x) }

/-- The home or bank watches the word; elsewhere the core polls it (R315). -/
def watched (r : RegionKind) : Bool :=
  match r with
  | .pkg => true
  | .stack _ => true
  | .slice _ => true
  | _ => false

/-- A WADDR whose line has been written reads its word again (R315). -/
def Stream.rewatch (x : Stream) (hit : Nat → Bool) : Stream :=
  match x.wait with
  | .addr w => if watched (regionOf w.ia) && hit (w.ia / 64) then { x with wait := .addr { w with poll := 0 } } else x
  | _ => x

/-- The same for every stream of a live context. -/
def State.rewatch (s : State) (hit : Nat → Bool) : State :=
  [(0 : CoreId), 1, 2, 3, 4, 5, 6, 7].foldl (fun s c =>
    s.updCtx c (fun x => { x with prim := x.prim.rewatch hit, sec := x.sec.rewatch hit })) s

/-- A write is applied at its homes and banks, unit by unit (R64, R73, R126, R308), and the streams that watch its lines
read them again (R315). -/
def State.applyWrite (s : State) (w : Writer) (l : List (Nat × Byte)) : State :=
  let bytes := s.placed l
  ((unitsOf (bytes.map (·.1))).foldl (fun s u => s.writeUnit w u (bytes.filter (fun p => unitOf p.1 = u))) s).rewatch
    (fun l => bytes.any (fun p => p.1 / 64 = l))

/-- Change a port's ULSTAT. -/
def State.updPort (s : State) (port : Nat) (f : Word → Word) : State :=
  if h : port < 18 then s.updHub (fun q => { q with ulstat := q.ulstat.set port (f (q.ulstat[port]'h)) h }) else s

/-- A write request to a peer is dropped: counted at the port that it was sent on, or in ULUNRT (R80, R85; assumption 76). -/
def State.dropRequest (s : State) (port : Option Nat) : State :=
  match port with
  | some p => s.updPort p (fun u => satAdd u 48 16 1)
  | none => s.updHub (fun h => { h with ulunrt := satAdd h.ulunrt 0 32 1 })

/-- A device write that its link cannot carry is dropped and counted (R80, R85). -/
def State.dropWrite (s : State) (as : List Nat) : State :=
  let s1 := if onHost as then s.updHub (fun h => { h with hlstat := satAdd h.hlstat 32 16 1 }) else s
  (peerBlocks as).foldl (fun s _ => s.dropRequest none) s1

/-- A device write: applied, or dropped when no link carries it (R85). -/
def State.deviceWrite (s : State) (w : Writer) (bytes : List (Nat × Byte)) : State :=
  match bytes with
  | [] => s
  | (a, _) :: _ => if s.linkUp (regionOf a) then s.applyWrite w bytes else s.dropWrite (bytes.map (·.1))

/-- The newest value of a word of n bytes. -/
def State.wordNow (s : State) (a n : Nat) : Nat := natOfBytes ((addrs a n).map s.byteNow)

/-- The plain value of a range (R303). -/
def State.plainBytes (s : State) (snap : Nat) (own : List (Nat × Byte)) (ia len : Nat) : List Byte :=
  (addrs ia len).map (s.plainByte snap own)

/-- What the firmware reads: the newest value, and before it the bytes that it has written itself and that still wait for the
host (R79). -/
def State.firmwareByte (s : State) (a : Nat) : Byte :=
  (s.hub.fwWrites.reverse.findSome? (fun w => if w.1 ≤ a ∧ a < w.1 + w.2.1.length then w.2.1[a - w.1]? else none)).getD (s.byteNow a)

/-- Mark a unit poisoned. -/
def State.addPoison (s : State) (u : Nat) : State := { s with poison := u :: s.poison.filter (· != u) }

/-- The first poisoned address of some. -/
def State.firstPoison (s : State) (as : List Nat) : Option Nat := as.find? s.poisoned

end Sys2Proof.Machine
end

