-- ==== Sys2Proof/Machine/Ctl.lean ====
section
/-! DEFINITION. The control registers (R96, R141, R150, R162 to R164, R279, R287, R301, R351, R356, R369, R372,
R398, R410, R412): what a read returns and what a write changes. -/

namespace Sys2Proof.Machine

/-- One generator state after a reseed (R141). -/
def reseedOne (seed : Word) (i : Nat) : Word :=
  let z0 := seed + BitVec.ofNat 64 (i + 1) * 0x9E3779B97F4A7C15#64
  let z1 := (z0 ^^^ (z0 >>> 30)) * 0xBF58476D1CE4E5B9#64
  let z2 := (z1 ^^^ (z1 >>> 27)) * 0x94D049BB133111EB#64
  let z3 := z2 ^^^ (z2 >>> 31)
  if z3 = 0 then 1 else z3

/-- Reseed the 128 generators of a stream (R141). -/
def Stream.reseed (x : Stream) (seed : Word) : Stream :=
  { x with gens := Vector.ofFn (fun i : Fin 128 => reseedOne seed i.val) }

/-- The status word of sixteen tags from tag 16n (R96). -/
def Ctx.cpst (x : Ctx) (n : Nat) : Word :=
  foldUp 16 (fun (w : Word) j => w ||| ((x.tagStatus.toList.getD (16 * n + j) 0).setWidth 64 <<< (4 * j))) 0

/-- Clear DONE tags with their statuses; tags of a zero bit and BUSY tags are unchanged (R96, R113, R190). -/
def Ctx.clearTags (x : Ctx) (mask : Word) : Ctx :=
  let hit := x.tags &&& mask
  { x with tags := x.tags &&& ~~~mask
           tagStatus := Vector.ofFn (fun i : Fin 64 => if hit.getLsbD i.val then 0 else x.tagStatus[i.val]'i.isLt) }

/-- The value of a control register (R163); a number that is not listed reads 0. -/
def Core.ctlRead (k : Core) (sec : Bool) (n : Nat) : Word :=
  let x := k.ctx
  let t := x.stream sec
  if n = 0x000 then t.stat
  else if n = 0x001 then t.tpc
  else if n = 0x002 then t.tstat
  else if n = 0x003 then t.tcause
  else if n = 0x004 then t.tval
  else if n = 0x005 then t.tvec
  else if n = 0x008 then t.fflags
  else if n = 0x009 then t.seed
  else if n = 0x00A then x.shbound
  else if n = 0x010 then k.cyc
  else if n = 0x020 then x.domain
  else if n = 0x030 then k.thr
  else if n = 0x040 then x.rns
  else if n = 0x041 then x.rnsstat
  else if n = 0x042 then k.rinj
  else if n = 0x050 then x.chk
  else if n = 0x0C0 then x.tags
  else if n = 0x0C1 then x.cperr
  else if 0x0C4 ≤ n ∧ n ≤ 0x0C7 then x.cpst (n - 0x0C4)
  else if n = 0x0D0 then k.spstat
  else if n = 0x0D1 then k.spaddr
  else if n = 0x0D2 then k.spdiag
  else if h : 0x100 ≤ n ∧ n ≤ 0x11F then x.win[n - 0x100]'(by omega)
  else 0

/-- Take the bits that mask names from v (R4, RW fields). -/
def rw (old v mask : Word) : Word := (old &&& ~~~mask) ||| (v &&& mask)

/-- Clear the bits that v holds among those that mask names (R4, W1C and RS fields). -/
def rs (old v mask : Word) : Word := old &&& ~~~(v &&& mask)

/-- A write to ctl.stat (R162): PRIV can only fall; RND and DUP change. -/
def writeStat (old v : Word) : Word := rw old (if old.getLsbD 0 then v else v &&& ~~~1) 0x71

/-- A write to ctl.rnsstat (R287): the counts are replaced, sticky flags cleared, RVALID clears the record. -/
def writeRnsstat (old v : Word) : Word :=
  let x := rs (rw old v 0xFFFFFFF) v 0x7F0000000
  if v.getLsbD 35 then x &&& 0x7FFFFFFFF else x

/-- A write to ctl.chk (R372): EN and AREA are replaced, RB and OVF clear on 1. -/
def writeChk (old v : Word) : Word := rs (rw old v 0xFFFFFFE000001) v 0xC

/-- A write to ctl.thr (R398): the reasons clear on 1, FLOOR and RFLOOR are replaced. -/
def writeThr (old v : Word) : Word := rs (rw old v 0xFF000) v 0x1F0

/-- The bits of a window register that a write replaces (R55). -/
def winMask (f : Nat) : Word :=
  match f with
  | 0 => 0x1FFFFFFFFFF0000
  | 1 => 0x1FFFFFFFFFF
  | 2 => 0xFFFFFFFFF0000
  | _ => 0x3F

/-- A write to a control register (R4, R163); a number that is not listed, and a read-only register, are
unchanged. -/
def Core.ctlWrite (k : Core) (sec : Bool) (n : Nat) (v : Word) : Core :=
  let st := fun (f : Stream → Stream) => k.updCtx (fun x => x.updStream sec f)
  let cx := fun (f : Ctx → Ctx) => k.updCtx f
  if n = 0x000 then st (fun t => { t with stat := writeStat t.stat v })
  else if n = 0x001 then st (fun t => { t with tpc := rw t.tpc v 0xFFFFFFFFFFFFFFE0 })
  else if n = 0x002 then st (fun t => { t with tstat := if t.priv then v else rw t.tstat v 0xFFFFFFFFFFFFFFFE })
  else if n = 0x003 then st (fun t => { t with tcause := rw t.tcause v 0xFFFFFF })
  else if n = 0x004 then st (fun t => { t with tval := v })
  else if n = 0x005 then st (fun t => { t with tvec := rw t.tvec v 0xFFFFFFFFFFFFFFE1 })
  else if n = 0x008 then st (fun t => { t with fflags := rs t.fflags v 0x7F ||| t.fresh.setWidth 64 })
  else if n = 0x009 then st (fun t => { t.reseed v with seed := v })
  else if n = 0x00A then cx (fun x => { x with shbound := rw x.shbound v 0xF })
  else if n = 0x020 then cx (fun x => { x with domain := rw x.domain v 0x3FFFFFFFFFF })
  else if n = 0x030 then { k with thr := writeThr k.thr v ||| k.thrFresh }
  else if n = 0x040 then cx (fun x => { x with rns := rw x.rns v 1 })
  else if n = 0x041 then cx (fun x => { x with rnsstat := writeRnsstat x.rnsstat v })
  else if n = 0x042 then { k with rinj := rw k.rinj v 0x1FFFFFFF, rinjSet := k.rinjSet + 1 }
  else if n = 0x050 then cx (fun x => { x with chk := writeChk x.chk v })
  else if n = 0x0C0 then cx (fun x => x.clearTags v)
  else if n = 0x0C1 then cx (fun x => { x with cperr := if v.getLsbD 63 then 0 else x.cperr })
  else if n = 0x0D0 then { k with spstat := rs k.spstat v (BitVec.ofNat 64 (2 ^ 48)) }
  else if n = 0x0D2 then { k with spdiag := rw k.spdiag v 0x1FFFFFFFF }
  else if h : 0x100 ≤ n ∧ n ≤ 0x11F then
    cx (fun x => { x with win := x.win.set (n - 0x100) (rw (x.win[n - 0x100]'(by omega)) v (winMask ((n - 0x100) % 4))) (by omega) })
  else k

/-- WRCTL of this register is privileged (R163, R372, R398, R410, R412). -/
def ctlPrivileged (n : Nat) : Bool :=
  n = 0x005 || n = 0x00A || n = 0x020 || n = 0x030 || n = 0x040 || n = 0x042 || n = 0x050 || n = 0x0D0 ||
  n = 0x0D1 || n = 0x0D2 || (0x100 ≤ n && n ≤ 0x11F)

/-- The firmware maps every share of a range of package memory and sets PIN (R63, R330, R364, R372). -/
def State.pinRange (s : State) (ia len : Nat) : State :=
  (sharesIn ia len).foldl (fun s a => (s.mapPointers a).mapShare a true) s

/-- Write a control register of a core. Setting ctl.chk.EN has the firmware pin the checkpoint areas (R372). -/
def State.ctlWrite (s : State) (c : CoreId) (sec : Bool) (n : Nat) (v : Word) : State :=
  let s1 := s.updCore c (fun k => k.ctlWrite sec n v)
  if n = 0x050 && !(s.ctx c).chk.getLsbD 0 && v.getLsbD 0 then
    s1.pinRange (getBits (s1.ctx c).chk 25 27 * 2 ^ 25 + 0x400000 * c.val) 0x400000
  else s1

end Sys2Proof.Machine
end

