-- ==== Sys2Proof/Machine/Flags.lean ====
section
/-! DEFINITION. The scalar arithmetic, shifts, counts and conditions of R167 to R175, and the bits of
ctl.fflags (R150). -/

namespace Sys2Proof.Machine

/-! ### Bits of ctl.fflags (R150) -/

/-- An inexact result. -/
def fNX : BitVec 7 := 1
/-- An inexact tiny result, or an output flushed. -/
def fUF : BitVec 7 := 2
/-- An overflow. -/
def fOF : BitVec 7 := 4
/-- A reciprocal or logarithm of zero. -/
def fDZ : BitVec 7 := 8
/-- An invalid operation. -/
def fNV : BitVec 7 := 16
/-- A subnormal flushed in exposed mode. -/
def fFZ : BitVec 7 := 32
/-- A saturation. -/
def fSAT : BitVec 7 := 64

/-- The flags f when b holds. -/
def flagIf (b : Bool) (f : BitVec 7) : BitVec 7 := if b then f else 0

/-! ### Integers -/

/-- Clamp an integer to a signed range of n bits. -/
def clampS (n : Nat) (x : Int) : Int := Max.max (-(2 ^ (n - 1))) (Min.min x (2 ^ (n - 1) - 1))

/-- Clamp an integer to an unsigned range of n bits. -/
def clampU (n : Nat) (x : Int) : Int := Max.max 0 (Min.min x (2 ^ n - 1))

/-- Bits 31:0 sign-extended (R167). -/
def sext32 (x : Word) : Word := (x.setWidth 32).signExtend 64

/-- The operand of a .w form of ADD, SUB and MUL (R167). -/
def wOperand (w : Bool) (x : Word) : Word := if w then sext32 x else x

/-- The result of ADD, SUB and MUL from the exact integer (R167): saturation, wrap, and the sign extension of
the .w form. -/
def intResult (w sat : Bool) (x : Int) : Word :=
  let y := if sat then clampS (if w then 32 else 64) x else x
  let r := BitVec.ofInt 64 y
  if w then sext32 r else r

/-- ADD (R167). -/
def addWord (w sat : Bool) (a b : Word) : Word := intResult w sat ((wOperand w a).toInt + (wOperand w b).toInt)

/-- SUB (R167). -/
def subWord (w sat : Bool) (a b : Word) : Word := intResult w sat ((wOperand w a).toInt - (wOperand w b).toInt)

/-- MUL (R167). -/
def mulWord (w : Bool) (a b : Word) : Word := intResult w false ((wOperand w a).toInt * (wOperand w b).toInt)

/-- MULH (R166, R167): bits 127:64 of the product; 0 signed, 1 unsigned, 2 signed by unsigned. -/
def mulHigh (f : Nat) (a b : Word) : Word :=
  let x : Int := if f = 1 then (a.toNat : Int) else a.toInt
  let y : Int := if f = 0 then b.toInt else (b.toNat : Int)
  (BitVec.ofInt 128 (x * y)).extractLsb' 64 64

/-- A shift or rotate of kind 0 left, 1 right, 2 arithmetic right, 3 rotate right by n (R168, R169). -/
def shiftWord (kind : Nat) (w : Bool) (a : Word) (n : Nat) : Word :=
  if w then
    let x : BitVec 32 := a.setWidth 32
    let r := match kind with
      | 0 => x <<< n
      | 1 => x >>> n
      | 2 => x.sshiftRight n
      | _ => x.rotateRight n
    r.signExtend 64
  else
    match kind with
    | 0 => a <<< n
    | 1 => a >>> n
    | 2 => a.sshiftRight n
    | _ => a.rotateRight n

/-- The amount of a register shift (R168): s_b bits 5:0, or 4:0 with .w. -/
def shiftAmount (w : Bool) (b : Word) : Nat := b.toNat % (if w then 32 else 64)

/-- Leading zeros of a number of n bits (R168). -/
def clzN (n x : Nat) : Nat := if x = 0 then n else n - 1 - Nat.log2 x

/-- One bits among the lowest n of a number (R168). -/
def popN (n x : Nat) : Nat := foldUp n (fun c i => if x.testBit i then c + 1 else c) 0

/-- CLZ (R168). -/
def clzWord (w : Bool) (a : Word) : Word := BitVec.ofNat 64 (if w then clzN 32 (a.toNat % 2 ^ 32) else clzN 64 a.toNat)

/-- POPC (R168). -/
def popWord (w : Bool) (a : Word) : Word := BitVec.ofNat 64 (if w then popN 32 a.toNat else popN 64 a.toNat)

/-- MIN and MAX (R168). -/
def minMaxS (mx : Bool) (a b : Word) : Word := if (decide (a.toInt ≤ b.toInt)) = mx then b else a

/-- MINU and MAXU (R168). -/
def minMaxU (mx : Bool) (a b : Word) : Word := if (decide (a.toNat ≤ b.toNat)) = mx then b else a

/-- The conditions of CMP and CMPI (R173). -/
def compare (cond : Nat) (x y : Word) : Bool :=
  match cond with
  | 0 => x = y
  | 1 => x ≠ y
  | 2 => x.toInt < y.toInt
  | 3 => y.toInt ≤ x.toInt
  | 4 => x.toInt ≤ y.toInt
  | 5 => y.toInt < x.toInt
  | 6 => x.toNat < y.toNat
  | 7 => y.toNat ≤ x.toNat
  | 8 => x.toNat ≤ y.toNat
  | 9 => y.toNat < x.toNat
  | 10 => x &&& y ≠ 0
  | _ => x &&& y = 0

/-- An operand of CMP.w: bits 31:0, sign-extended for conditions 2 to 5, else zero-extended (R173). -/
def cmpOperand (w : Bool) (cond : Nat) (x : Word) : Word :=
  if w then (if 2 ≤ cond && cond ≤ 5 then sext32 x else x &&& 0xFFFFFFFF) else x

/-- Extract a field of width w at pos, sign-extended when s (R172). -/
def bitExtract (s : Bool) (a : Word) (pos w : Nat) : Word :=
  let f := getBits a pos w
  if s && f.testBit (w - 1) then BitVec.ofNat 64 f - BitVec.ofNat 64 (2 ^ w) else BitVec.ofNat 64 f

/-- The lowest set bit of a word, or 64 (R179). -/
def lowestBit (x : Word) : Nat := ((List.range 64).find? (fun i => x.getLsbD i)).getD 64

end Sys2Proof.Machine
end

