-- ==== Sys2Proof/Machine/Scalar.lean ====
section
/-! DEFINITION. The S-slot instructions (R165 to R180). -/

namespace Sys2Proof.Machine

/-- A scalar result of the issuing stream, with the latency of its class (R41). -/
def State.putS (s : State) (lat : Nat) (d : BitVec 6) (v : Word) : Answer := .next (s.emit lat (.scalar d v))

/-- A predicate result of the issuing stream, latency 1 (R41). -/
def State.putP (s : State) (d : BitVec 3) (b : Bool) : Answer :=
  .next (s.emit 1 (.pred (predBit d) (if b then predBit d else 0)))

/-- ADD (R167). -/
def execAdd (d a b : BitVec 6) (sat w : Bool) (s : State) : Answer :=
  s.putS 1 d (addWord w sat (s.cur.rs a) (s.cur.rs b))

/-- SUB (R167). -/
def execSub (d a b : BitVec 6) (sat w : Bool) (s : State) : Answer :=
  s.putS 1 d (subWord w sat (s.cur.rs a) (s.cur.rs b))

/-- ADDI (R170). -/
def execAddi (d a : BitVec 6) (imm : BitVec 14) (s : State) : Answer := s.putS 1 d (s.cur.rs a + imm.signExtend 64)

/-- MUL (R167). -/
def execMul (d a b : BitVec 6) (w : Bool) (s : State) : Answer := s.putS 3 d (mulWord w (s.cur.rs a) (s.cur.rs b))

/-- MULH (R167). -/
def execMulh (d a b : BitVec 6) (f : BitVec 2) (s : State) : Answer :=
  s.putS 3 d (mulHigh f.toNat (s.cur.rs a) (s.cur.rs b))

/-- AND (R168). -/
def execAnd (d a b : BitVec 6) (s : State) : Answer := s.putS 1 d (s.cur.rs a &&& s.cur.rs b)

/-- OR (R168). -/
def execOr (d a b : BitVec 6) (s : State) : Answer := s.putS 1 d (s.cur.rs a ||| s.cur.rs b)

/-- XOR (R168). -/
def execXor (d a b : BitVec 6) (s : State) : Answer := s.putS 1 d (s.cur.rs a ^^^ s.cur.rs b)

/-- ANDN (R168). -/
def execAndn (d a b : BitVec 6) (s : State) : Answer := s.putS 1 d (s.cur.rs a &&& ~~~(s.cur.rs b))

/-- SHL (R168). -/
def execShl (d a b : BitVec 6) (w : Bool) (s : State) : Answer :=
  s.putS 1 d (shiftWord 0 w (s.cur.rs a) (shiftAmount w (s.cur.rs b)))

/-- SHR (R168). -/
def execShr (d a b : BitVec 6) (w : Bool) (s : State) : Answer :=
  s.putS 1 d (shiftWord 1 w (s.cur.rs a) (shiftAmount w (s.cur.rs b)))

/-- SAR (R168). -/
def execSar (d a b : BitVec 6) (w : Bool) (s : State) : Answer :=
  s.putS 1 d (shiftWord 2 w (s.cur.rs a) (shiftAmount w (s.cur.rs b)))

/-- SHI (R169). -/
def execShi (d a : BitVec 6) (w : Bool) (k : BitVec 2) (n : BitVec 6) (s : State) : Answer :=
  s.putS 1 d (shiftWord k.toNat w (s.cur.rs a) n.toNat)

/-- CLZ (R168). -/
def execClz (d a : BitVec 6) (w : Bool) (s : State) : Answer := s.putS 1 d (clzWord w (s.cur.rs a))

/-- POPC (R168). -/
def execPopc (d a : BitVec 6) (w : Bool) (s : State) : Answer := s.putS 1 d (popWord w (s.cur.rs a))

/-- MIN (R168). -/
def execMin (d a b : BitVec 6) (s : State) : Answer := s.putS 1 d (minMaxS false (s.cur.rs a) (s.cur.rs b))

/-- MAX (R168). -/
def execMax (d a b : BitVec 6) (s : State) : Answer := s.putS 1 d (minMaxS true (s.cur.rs a) (s.cur.rs b))

/-- MINU (R168). -/
def execMinu (d a b : BitVec 6) (s : State) : Answer := s.putS 1 d (minMaxU false (s.cur.rs a) (s.cur.rs b))

/-- MAXU (R168). -/
def execMaxu (d a b : BitVec 6) (s : State) : Answer := s.putS 1 d (minMaxU true (s.cur.rs a) (s.cur.rs b))

/-- CMP (R173). -/
def execCmp (p : BitVec 3) (cond : BitVec 4) (a b : BitVec 6) (w : Bool) (s : State) : Answer :=
  s.putP p (compare cond.toNat (cmpOperand w cond.toNat (s.cur.rs a)) (cmpOperand w cond.toNat (s.cur.rs b)))

/-- CMPI (R173). -/
def execCmpi (p : BitVec 3) (cond : BitVec 4) (a : BitVec 6) (imm : BitVec 13) (s : State) : Answer :=
  s.putP p (compare cond.toNat (s.cur.rs a) (imm.signExtend 64))

/-- SEL of the S slot (R174). -/
def execSSel (d a b : BitVec 6) (neg : Bool) (n : BitVec 3) (s : State) : Answer :=
  s.putS 1 d (if (s.cur.rp n ^^ neg) then s.cur.rs a else s.cur.rs b)

/-- MOVI (R171). -/
def execMovi (d : BitVec 6) (imm : BitVec 20) (s : State) : Answer := s.putS 1 d (imm.signExtend 64)

/-- MOVHI (R171). -/
def execMovhi (d : BitVec 6) (q : BitVec 2) (chunk : BitVec 16) (s : State) : Answer :=
  s.putS 1 d (putBits (s.cur.rs d) (16 * q.toNat) 16 (chunk.setWidth 64))

/-- LEA (R170). -/
def execLea (d a b : BitVec 6) (sh : BitVec 3) (s : State) : Answer :=
  s.putS 1 d (s.cur.rs a + (s.cur.rs b <<< sh.toNat))

/-- BFX (R172). -/
def execBfx (d a : BitVec 6) (sg : Bool) (w pos : BitVec 6) (s : State) : Answer :=
  s.putS 1 d (bitExtract sg (s.cur.rs a) pos.toNat (w.toNat + 1))

/-- BFI (R172). -/
def execBfi (d a w pos : BitVec 6) (s : State) : Answer :=
  s.putS 1 d (putBits (s.cur.rs d) pos.toNat (w.toNat + 1) (s.cur.rs a))

/-- PLOG (R175). -/
def execPlog (p : BitVec 3) (op : BitVec 4) (na : Bool) (a : BitVec 3) (nb : Bool) (b : BitVec 3) (s : State) : Answer :=
  let x := s.cur.rp a ^^ na
  let y := s.cur.rp b ^^ nb
  s.putP p (match op.toNat with
    | 0 => x && y
    | 1 => x || y
    | _ => x ^^ y)

/-- PMOV.set (R176). -/
def execPmovSet (p : BitVec 3) (a : BitVec 6) (s : State) : Answer := s.putP p (s.cur.rs a ≠ 0)

/-- PMOV.pack (R176): p7 as bit 7, reading 1. -/
def execPmovPack (b : BitVec 6) (s : State) : Answer := s.putS 1 b ((1#1 ++ s.cur.p).setWidth 64)

/-- PMOV.unpk (R176). -/
def execPmovUnpk (a : BitVec 6) (s : State) : Answer :=
  .next (s.emit 1 (.pred 0x7F ((s.cur.rs a).setWidth 7)))

/-- CHKS (R177): the mismatch trap is precise; otherwise no effect. -/
def execChks (a b : BitVec 6) (s : State) : Answer :=
  if s.cur.dup && s.cur.rs a ≠ s.cur.rs b then .next (s.raise { cause := 0x0A, tval := s.cur.rs a ^^^ s.cur.rs b })
  else .next s

/-- A core's bit in a bitmap. -/
def coreBit (c : CoreId) : BitVec 8 := BitVec.ofNat 8 (2 ^ c.val)

/-- The cores of a bitmap in ascending order. -/
def coresOf (m : BitVec 8) : List CoreId := [(0 : CoreId), 1, 2, 3, 4, 5, 6, 7].filter (fun c => m.getLsbD c.val)

/-- The members of a gang configuration of a core, by rank (R254, R272). -/
def Ctx.gangMembers (x : Ctx) (c : CoreId) (cfg : BitVec 2) : List CoreId :=
  match cfg.toNat with
  | 0 => [c]
  | 1 => (coresOf x.placed).filter (fun k => k.val % 4 = c.val % 4)
  | 2 => (coresOf x.placed).filter (fun k => k.val / 4 = c.val / 4)
  | _ => coresOf x.placed

/-- The placement allows a gang configuration (R272). -/
def Ctx.gangAllowed (x : Ctx) (cfg : BitVec 2) : Bool :=
  match cfg.toNat with
  | 0 => true
  | 1 => x.shape = 1 || x.shape = 3
  | 2 => x.shape = 2 || x.shape = 3
  | _ => x.shape = 3

/-- The rank of a core in a list of members (R254). -/
def rankIn (ms : List CoreId) (c : CoreId) : Nat := ms.findIdx (· == c)

/-- The value of RDSYS selector 5 (R178). -/
def Ctx.gangWord (x : Ctx) (c : CoreId) : Word :=
  let ms := x.gangMembers c x.gang
  BitVec.ofNat 64 (rankIn ms c + 4 * ms.length + 256 * (ms.foldl (fun b k => b ||| coreBit k) 0).toNat)

/-- The system values of RDSYS (R178). -/
def State.sysValue (s : State) (sel : Nat) : Word :=
  let c := s.issue.core
  let k := s.curCore
  let x := s.curCtx
  let l := s.cur.curLoops
  match sel with
  | 0 => BitVec.ofNat 64 c.val
  | 1 => if s.issue.sec then 1 else 0
  | 2 => s.hub.settings.podDevice.setWidth 64
  | 3 => s.hub.settings.pod.setWidth 64
  | 4 => x.taskId.setWidth 64
  | 5 => x.gangWord c
  | 6 => k.cyc
  | 7 => k.layers.setWidth 64
  | 8 => if l.l0.active then l.l0.rem else 0
  | 9 => if l.l1.active then l.l1.rem else 0
  | _ => s.hub.settings.revision.setWidth 64

/-- RDSYS (R178). -/
def execRdsys (d : BitVec 6) (sel : BitVec 14) (s : State) : Answer := s.putS 2 d (s.sysValue sel.toNat)

/-- A stream has observed DONE the jobs of these tags (R304): the writes of those it issued that no snapshot
point of its own holds yet enter its own-write set, the latest first. -/
def Ctx.observe (x : Ctx) (sec : Bool) (mask : Word) : Ctx :=
  let hit := fun (j : BitVec 6 × Bool × OwnWrite) => mask.getLsbD j.1.toNat && j.2.1 == sec
  let fresh := fun (w : OwnWrite) => decide ((x.stream sec).snap < w.applied.getD 0)
  let y := x.updStream sec (fun t =>
    { t with own := ((x.doneJobs.filter hit).map (fun j => j.2.2)).filter fresh ++ t.own })
  { y with doneJobs := x.doneJobs.filter (fun j => !hit j) }

/-- Clear DONE tags at the end of the cycle (R190). -/
def State.clearTagsAtEnd (s : State) (mask : Word) : State :=
  s.updCurCore (fun k => { k with endWrites := k.endWrites ++ [.tagClear mask] })

/-- TFIRST (R179). -/
def execTfirst (d a : BitVec 6) (clr : Bool) (s : State) : Answer :=
  let t := lowestBit (s.curCtx.tags &&& s.cur.rs a)
  let bit : Word := if t < 64 then BitVec.ofNat 64 (2 ^ t) else 0
  let s1 := (s.emit 2 (.scalar d (BitVec.ofNat 64 t))).updCurCtx (fun x => x.observe s.issue.sec bit)
  .next (if clr then s1.clearTagsAtEnd bit else s1)

/-- STSET (R180). -/
def execStset (a : BitVec 6) (w : BitVec 3) (n : BitVec 4) (s : State) : Answer :=
  .next (s.emit 1 (.streamWord n w (s.cur.rs a)))

/-- STGET (R180). -/
def execStget (d : BitVec 6) (w : BitVec 3) (n : BitVec 4) (s : State) : Answer :=
  s.putS 2 d (s.curCtx.strWord n w)

end Sys2Proof.Machine
end

