-- ==== Sys2Proof/Machine/Control.lean ====
section
/-! DEFINITION. The K-slot instructions of control flow, waits, mode, traps, control registers, and the start of
the secondary stream (R181 to R192, R340 to R342, R355, R356, R59). -/

namespace Sys2Proof.Machine

/-- NOP (R22): no effect. -/
def execNop (s : State) : Answer := .next s

/-! ### Control transfers -/

/-- The target of a KB form (R183): pc + 32 × offset, in bundles. -/
def branchTarget (pc : BitVec 59) (off : BitVec 22) : BitVec 59 := pc + off.signExtend 59

/-- The link address pc + 32 (R183). -/
def linkWord (pc : BitVec 59) : Word := (pc + 1) ++ 0#5

/-- A transfer to an address from a register: misaligned targets raise cause 0x05 and nothing takes effect
(R182). -/
def State.jumpTo (s : State) (target : Word) (s' : State) : State :=
  if target.extractLsb' 0 5 = 0 then s'.transfer (target.extractLsb' 5 59)
  else s.raise { cause := 0x05, tval := target }

/-- BR (R183). -/
def execBr (p : BitVec 3) (neg : Bool) (off : BitVec 22) (s : State) : Answer :=
  if (s.cur.rp p ^^ neg) then .next (s.transfer (branchTarget s.cur.pc off)) else .next s

/-- CALL (R183). -/
def execCall (p : BitVec 3) (neg : Bool) (off : BitVec 22) (s : State) : Answer :=
  if (s.cur.rp p ^^ neg) then
    .next ((s.emit 1 (.scalar 62 (linkWord s.cur.pc))).transfer (branchTarget s.cur.pc off))
  else .next s

/-- RET (R183). -/
def execRet (p : BitVec 3) (neg : Bool) (s : State) : Answer :=
  if (s.cur.rp p ^^ neg) then .next (s.jumpTo (s.cur.rs 62) s) else .next s

/-- JIND (R183). -/
def execJind (d a : BitVec 6) (s : State) : Answer :=
  .next (s.jumpTo (s.cur.rs a) (s.emit 2 (.scalar d (linkWord s.cur.pc))))

/-- Replace a level of a loop set. -/
def LoopSet.put (l : LoopSet) (level : Nat) (v : LoopLevel) : LoopSet :=
  if level = 0 then { l with l0 := v } else { l with l1 := v }

/-- LOOP (R185). -/
def execLoop (level a : BitVec 6) (dist : BitVec 14) (s : State) : Answer :=
  let pc := s.cur.pc
  let last := pc + dist.setWidth 59
  let n := s.cur.rs a
  let old := if level = 0 then s.cur.curLoops.l0 else s.cur.curLoops.l1
  if n = 0 then
    .next ((s.updCur (fun x => x.setLoops (x.curLoops.put level.toNat { old with active := false, rem := 0 }))).transfer (last + 1))
  else
    .next (s.updCur (fun x => x.setLoops (x.curLoops.put level.toNat { active := true, start := pc + 1, stop := last, rem := n })))

/-! ### Waits -/

/-- Freeze the issuing stream after its bundle has issued. -/
def State.freeze (s : State) (w : Wait) : State := s.updCur (fun x => { x with wait := w })

/-- WAITC (R188). -/
def execWaitc (ld st cp tl at_ : BitVec 5) (s : State) : Answer :=
  if ld = 31 && st = 31 && cp = 31 && tl = 31 && at_ = 31 then .next s
  else .next (s.freeze (.counters ld st cp tl at_))

/-- A timeout operand: 0 is none (R189). -/
def timeoutOf (v : Word) : Option Nat := if v = 0 then none else some v.toNat

/-- WAITT (R189). -/
def execWaitt (d a b : BitVec 6) (clr : Bool) (s : State) : Answer :=
  .next (s.freeze (.tags false clr d (s.cur.rs a) (timeoutOf (s.cur.rs b))))

/-- WAITANY (R189). -/
def execWaitany (d a b : BitVec 6) (clr : Bool) (s : State) : Answer :=
  .next (s.freeze (.tags true clr d (s.cur.rs a) (timeoutOf (s.cur.rs b))))

/-- The condition of a tag wait, without its timeout (R189). -/
def Ctx.tagWaitMet (x : Ctx) (any : Bool) (mask : Word) : Bool :=
  x.tagBusy &&& mask = 0 || (any && x.tags &&& mask ≠ 0)

/-- A tag wait wakes (R189, R190): s_d receives the DONE tags named, landing two stream cycles later, counted from the
stream cycle after the waiting bundle's, in which the stream stands while it waits (assumption 82). -/
def State.wakeTags (s : State) (c : CoreId) (sec : Bool) (clr : Bool) (d : BitVec 6) (mask : Word) : State :=
  let v := (s.ctx c).tags &&& mask
  let s1 := (s.updStream c sec (fun x => { x with wait := .none }.emit 2 (.scalar d v))).updCtx c (fun x => x.observe sec v)
  if clr then s1.updCore c (fun k => { k with endWrites := k.endWrites ++ [.tagClear v] }) else s1

/-- WAIT_TIMEOUT (R189): the timeout of a WAITT or WAITANY elapses. -/
def execWaitTimeout (c : CoreId) (sec : Bool) (s : State) : Answer :=
  match (s.stream c sec).wait with
  | .tags _ clr d mask (some 0) => .next (s.wakeTags c sec clr d mask)
  | _ => .next s

/-- PMODE (R191): the drain is a freeze in which stream cycles advance. -/
def execPmode (inter : Bool) (s : State) : Answer := .next (s.freeze (.mode inter))

/-- HALT (R192). -/
def execHalt (code : BitVec 14) (s : State) : Answer :=
  .next (s.updCur (fun x => { x with live := false, halted := true, haltCode := code }))

/-! ### Starting the secondary stream (R340) -/

/-- The secondary stream as STRT starts it, from the primary. What a halted secondary left outstanding goes on and
lands or applies (R192), outside the counters, which start at 0: operations count from number base on. -/
def secondaryFrom (old p : Stream) (inter : Bool) (target : BitVec 59) (base : Nat) : Stream :=
  { (old.reseed 0).setSnap p.snap with
    live := true, halted := false, started := true, pc := target, ipc := 0, idle := 2, s := p.s, p := p.p
    stat := (p.stat &&& 0x7FF1) ||| 4 ||| (if inter then 2 else 0)
    tvec := p.tvec, counts := p.counts, fflags := 0
    opBase := base, ld := 0, st := 0, cp := 0, tl := 0, at_ := 0, loops := LoopSet.reset, hloops := LoopSet.reset
    ring := Vector.replicate 8 0, ringHeld := Vector.replicate 8 0, badRing := [], pushes := 0, latches := []
    badScalar := [], badPred := 0, wait := .none, asking := none, fetching := none
    savedWait := .none, savedAt := (0, 0), hold := .none, passed := none, waitCount := 0, answers := [] }

/-- Start the secondary stream at a target, or say why not in s_d (R340). A stream that the firmware has stopped has not
halted, and counts as live (R300, R354). -/
def State.startSecondary (s : State) (d : BitVec 6) (target : Option Word) : State :=
  let x := s.curCtx
  if x.sec.live || x.sec.stopped.isSome then s.emit 2 (.scalar d 1)
  else
    match target with
    | none => s.emit 2 (.scalar d 2)
    | some t =>
      if t.extractLsb' 0 5 ≠ 0 then s.raise { cause := 0x05, tval := t }
      else
        (s.emit 2 (.scalar d 0)).updCurCtx (fun y =>
          { y with sec := secondaryFrom x.sec x.prim (x.hdrFlags.getLsbD 0) (t.extractLsb' 5 59) s.nextId })

/-- STRT.hdr (R340). -/
def execStrtHdr (d : BitVec 6) (s : State) : Answer :=
  .next (s.startSecondary d (if s.curCtx.hdrFlags.getLsbD 3 then some s.curCtx.secEntry else none))

/-- STRT.reg (R340). -/
def execStrtReg (d a : BitVec 6) (s : State) : Answer := .next (s.startSecondary d (some (s.cur.rs a)))

/-! ### YIELD and DOMJ -/

/-- YIELD (R341): the stream is frozen until the scheduler answers, within 4,800 cycles. -/
def execYield (d floor : BitVec 6) (s : State) : Answer :=
  let s1 := s.freeze (.yield d floor)
  let t := Nat.min 4800 (Nat.max 1 (s.delays.headD 1))
  .next { s1.afterN t (.yieldAnswer s.issue.core s.issue.sec) with delays := s.delays.tail }

/-- A stream is held at a phase boundary of a level. -/
def Stream.atPhase (x : Stream) (level : BitVec 3) : Bool :=
  match x.hold with
  | .phase l _ _ _ => l == level
  | _ => false

/-- Replace the boundary count of a level 1 to 5 (R302). -/
def Stream.setCount (x : Stream) (level : Nat) (v : BitVec 32) : Stream :=
  if h : level - 1 < 5 then { x with counts := x.counts.set (level - 1) v h } else x

/-- The boundary count of a level (R302). -/
def Stream.count (x : Stream) (level : Nat) : BitVec 32 := x.counts.toList.getD (level - 1) 0

/-- The membership that DOMJ writes at levels 2 and 3 (R342). -/
def domainCores (dom : Word) (level : Nat) (m : BitVec 8) : Word :=
  putBits dom (if level = 2 then 0 else 8) 8 (m.setWidth 64)

/-- The membership that DOMJ writes at levels 4 and 5 (R342). -/
def domainGroup (dom : Word) (level : Nat) (g : Option Word) : Word :=
  match g with
  | some n => putBits (putBits dom (if level = 4 then 16 else 28) 12 n) (if level = 4 then 40 else 41) 1 1
  | none => putBits dom (if level = 4 then 40 else 41) 1 0

/-- The new ctl.domain of a DOMJ, or none where the membership is not accepted (R342). -/
def State.domjDomain (s : State) (a : Word) (off : Bool) (level : Nat) : Option Word :=
  let x := s.curCtx
  let own := coreBit s.issue.core
  if level ≤ 3 then
    if off then some (domainCores x.domain level own)
    else if a.toNat < 256 && ((a.setWidth 8 ||| own) &&& ~~~x.placed) = 0 then some (domainCores x.domain level (a.setWidth 8))
    else none
  else if off then some (domainGroup x.domain level none)
  else if a.toNat < 4096 && s.hub.groups.any (fun g => g.number = a.toNat && g.grants.contains x.taskId)
    then some (domainGroup x.domain level (some a))
  else none

/-- DOMJ (R342). -/
def execDomj (d a : BitVec 6) (off : Bool) (level : BitVec 3) (s : State) : Answer :=
  let x := s.curCtx
  if x.prim.atPhase level || x.sec.atPhase level then .next (s.holdFor .domj)
  else
    match s.domjDomain (s.cur.rs a) off level.toNat with
    | none => s.putS 2 d (if level.toNat ≤ 3 then 1 else 2)
    | some dom =>
      .next ((s.emit 2 (.scalar d 0)).updCurCtx (fun y =>
        { y with
          domain := dom
          joins := Vector.ofFn (fun i : Fin 6 => if i.val = level.toNat then y.joins[i] + 1 else y.joins[i])
          prim := y.prim.setCount level.toNat 0
          sec := y.sec.setCount level.toNat 0 }))

/-! ### TRAP and TRET -/

/-- TRAP (R345, R355): the trap is taken after its bundle has issued whole, and ctl.tpc names the bundle that
would have followed it. -/
def execTrap (a : BitVec 6) (code : BitVec 14) (s : State) : Answer :=
  let t : TrapReq := { cause := 0x0B, tval := s.cur.rs a }
  let s1 := s.updCur Stream.advance
  .next ((s1.enterTrap s.issue.core s.issue.sec t s1.cur.pc false false code s1.cur.sc).setStatus (.software t code))

/-- TRET (R355). With results of the handler in flight the stream first idles until they have landed. -/
def execTret (s : State) : Answer :=
  if !s.cur.hnd then .next (s.raise { cause := 0x0D, tval := 0 })
  else if getBits s.cur.tstat 15 49 ≠ 0 then
    let t : TrapReq := { cause := 0x0C, tval := s.cur.tstat }
    .next ((s.stopStream s.issue.core s.issue.sec t s.cur.pc).setStatus (.stopping t))
  else if s.cur.inflight = [] then .next ((s.updCur (fun x => x.leave (x.sc + 1))).setStatus .returning)
  else .next ((s.updCur (fun x => { x.advance with wait := .trapReturn })).setStatus .returning)

/-! ### Control registers -/

/-- ctl.tval of a privilege trap: the slot and the word (R25). -/
def privilegeRecord (slot : Nat) (i : Instr) : Word :=
  ((encode i).getD 0) ++ BitVec.ofNat 32 slot

/-- RDCTL (R356). -/
def execRdctl (d : BitVec 6) (reg : BitVec 12) (s : State) : Answer :=
  let s1 := s.emit 2 (.scalar d (s.curCore.ctlRead s.issue.sec reg.toNat))
  .next (if reg = 0x0C0 then s1.updCurCtx (fun x => x.observe s.issue.sec x.tags) else s1)

/-- WRCTL (R356): the write lands at the end of the issue cycle. -/
def execWrctl (a : BitVec 6) (reg : BitVec 12) (s : State) : Answer :=
  if ctlPrivileged reg.toNat && !s.cur.priv then
    .next (s.raise { cause := 0x02, tval := privilegeRecord 0 (.wrctl a reg) })
  else if reg = 0x0C0 then .next (s.clearTagsAtEnd (s.cur.rs a))
  else .next (s.updCurCore (fun k => { k with endWrites := k.endWrites ++ [.ctl s.issue.sec reg (s.cur.rs a)] }))

/-- RANGE (R59). -/
def execRange (d a b : BitVec 6) (w r t : Bool) (s : State) : Answer :=
  s.putS 2 d (rangeWord s.curCtx.win (s.cur.rs a) (s.cur.rs b) w r t)

end Sys2Proof.Machine
end

