-- ==== Sys2Proof/Machine/Float.lean ====
section
/-! DEFINITION. The floating-point formats, exact values, and rounding (R128 to R149). -/

namespace Sys2Proof.Machine

/-- A binary floating-point format (R129 to R134): exponent and fraction widths, bias, whether the all-ones
exponent holds infinities and NaNs, whether it is E4M3. -/
structure Fmt where
  e : Nat
  f : Nat
  bias : Int
  ieee : Bool
  e4m3 : Bool
deriving DecidableEq, Repr

/-- FP32. -/
def fp32 : Fmt := { e := 8, f := 23, bias := 127, ieee := true, e4m3 := false }
/-- FP64. -/
def fp64 : Fmt := { e := 11, f := 52, bias := 1023, ieee := true, e4m3 := false }
/-- BF16. -/
def bf16 : Fmt := { e := 8, f := 7, bias := 127, ieee := true, e4m3 := false }
/-- FP16. -/
def fp16 : Fmt := { e := 5, f := 10, bias := 15, ieee := true, e4m3 := false }
/-- E5M2. -/
def e5m2 : Fmt := { e := 5, f := 2, bias := 15, ieee := true, e4m3 := false }
/-- E4M3. -/
def e4m3 : Fmt := { e := 4, f := 3, bias := 7, ieee := false, e4m3 := true }
/-- E2M1. -/
def e2m1 : Fmt := { e := 2, f := 1, bias := 1, ieee := false, e4m3 := false }
/-- E3M2. -/
def e3m2 : Fmt := { e := 3, f := 2, bias := 3, ieee := false, e4m3 := false }
/-- E2M3. -/
def e2m3 : Fmt := { e := 2, f := 3, bias := 1, ieee := false, e4m3 := false }

/-- The floating-point format of a format code (R128); FP32 for every other code. -/
def fmtOfCode (c : Nat) : Fmt :=
  match c with
  | 1 => fp64
  | 2 => bf16
  | 3 => fp16
  | 4 => e4m3
  | 5 => e5m2
  | 6 => e2m1
  | 17 => e3m2
  | 18 => e2m3
  | _ => fp32

/-- The width in bits of an element of a format code (R128). -/
def fmtWidth (c : Nat) : Nat :=
  match c with
  | 0 => 32
  | 1 => 64
  | 2 => 16
  | 3 => 16
  | 6 => 4
  | 9 => 16
  | 10 => 32
  | 11 => 64
  | 13 => 16
  | 14 => 32
  | 15 => 64
  | 16 => 4
  | 17 => 6
  | 18 => 6
  | 19 => 16
  | _ => 8

/-- The total width of a format. -/
def Fmt.width (fm : Fmt) : Nat := 1 + fm.e + fm.f

/-- The smallest normal exponent. -/
def Fmt.emin (fm : Fmt) : Int := 1 - fm.bias

/-- The largest finite magnitude as bits without sign (R129, R131). -/
def Fmt.maxBits (fm : Fmt) : Nat :=
  if fm.ieee then (2 ^ fm.e - 1) * 2 ^ fm.f - 1
  else if fm.e4m3 then 0x7E
  else 2 ^ (fm.e + fm.f) - 1

/-- The bits of a magnitude with a sign. -/
def Fmt.withSign (fm : Fmt) (neg : Bool) (mag : Nat) : Nat := (if neg then 2 ^ (fm.e + fm.f) else 0) + mag

/-- The bits of an infinity. -/
def Fmt.inf (fm : Fmt) (neg : Bool) : Nat := fm.withSign neg ((2 ^ fm.e - 1) * 2 ^ fm.f)

/-- The canonical NaN (R130, R131). -/
def Fmt.cnan (fm : Fmt) : Nat :=
  if fm.ieee then (2 ^ fm.e - 1) * 2 ^ fm.f + 2 ^ (fm.f - 1) else 0x7F

/-- A floating-point datum (R129 to R131): a NaN with its sign, quiet bit and the fraction below it; an infinity;
or a finite value (−1)^neg × m × 2^e, zero when m is 0. -/
inductive FVal where
  | nan (neg quiet : Bool) (payload : Nat)
  | inf (neg : Bool)
  | fin (neg : Bool) (m : Nat) (e : Int)
deriving DecidableEq, Repr

/-- Read the bits of a format (R129 to R132). -/
def Fmt.decode (fm : Fmt) (bits : Nat) : FVal :=
  let fr := bits % 2 ^ fm.f
  let ex := bits / 2 ^ fm.f % 2 ^ fm.e
  let neg := bits / 2 ^ (fm.e + fm.f) % 2 = 1
  if fm.ieee && ex = 2 ^ fm.e - 1 then
    if fr = 0 then .inf neg else .nan neg (2 ^ (fm.f - 1) ≤ fr) (fr % 2 ^ (fm.f - 1))
  else if fm.e4m3 && ex = 15 && fr = 7 then .nan neg true 0
  else if ex = 0 then .fin neg fr (fm.emin - fm.f)
  else .fin neg (2 ^ fm.f + fr) ((ex : Int) - fm.bias - fm.f)

/-- The datum is subnormal in its format. -/
def Fmt.subnormal (fm : Fmt) (bits : Nat) : Bool :=
  bits / 2 ^ fm.f % 2 ^ fm.e = 0 && bits % 2 ^ fm.f ≠ 0

/-- The magnitude bits of m × 2^q on the grid of a format: m below 2^(f+1), q at least emin − f. -/
def Fmt.place (fm : Fmt) (m : Nat) (q : Int) : Nat :=
  if m < 2 ^ fm.f then m
  else (q + fm.f + fm.bias).toNat * 2 ^ fm.f + (m - 2 ^ fm.f)

/-- Rounding modes: RNE, RTZ, RUP, RDN and stochastic (R137). -/
inductive RMode where
  | rne | rtz | rup | rdn | rsr
deriving DecidableEq, Repr

/-- The mode of ctl.stat.RND or of a two-bit rounding field (R137, R274). -/
def RMode.ofRnd (n : Nat) : RMode :=
  match n with
  | 0 => .rne
  | 1 => .rtz
  | 2 => .rup
  | _ => .rdn

/-- The mode of a V1 rounding field, with the stream's default (R137). -/
def RMode.ofField (n dflt : Nat) : RMode :=
  match n with
  | 0 => RMode.ofRnd dflt
  | 1 => .rne
  | 2 => .rtz
  | 3 => .rup
  | 4 => .rdn
  | _ => .rsr

/-- What a conversion does on overflow (R142): the default, saturation, or the NaN of E4M3. -/
inductive OvMode where
  | dflt | sat | nan
deriving DecidableEq, Repr

/-- The magnitude rounds away from zero (R138, R139): lo the integral part in quanta, rem of 2^sh discarded. -/
def roundsAway (mode : RMode) (neg : Bool) (w lo rem sh : Nat) : Bool :=
  match mode with
  | .rne => 2 ^ sh < 2 * rem || (2 * rem = 2 ^ sh && lo % 2 = 1)
  | .rtz => false
  | .rup => 0 < rem && !neg
  | .rdn => 0 < rem && neg
  | .rsr => 65536 ≤ rem * 65536 / 2 ^ sh + w

/-- Round m × 2^e to a multiple of 2^q: the multiple, and whether it is inexact. -/
def roundQ (mode : RMode) (neg : Bool) (w m : Nat) (e q : Int) : Nat × Bool :=
  let sh := (q - e).toNat
  if q ≤ e then (m * 2 ^ (e - q).toNat, false)
  else
    let lo := m / 2 ^ sh
    let rem := m % 2 ^ sh
    (lo + (if roundsAway mode neg w lo rem sh then 1 else 0), rem ≠ 0)

/-- The result of an overflow (R142) with its flags. -/
def overflowTo (fm : Fmt) (mode : RMode) (ov : OvMode) (neg : Bool) : Nat × BitVec 7 :=
  let mx := fm.withSign neg fm.maxBits
  let toMax := match mode with
    | .rne => false
    | .rsr => false
    | .rtz => true
    | .rup => neg
    | .rdn => !neg
  if fm.ieee then
    match ov with
    | .sat => (mx, fOF ||| fNX ||| flagIf (!toMax) fSAT)
    | _ => (if toMax then mx else fm.inf neg, fOF ||| fNX)
  else if fm.e4m3 then
    match ov with
    | .nan => (if toMax then mx else fm.withSign neg 0x7F, fOF ||| fNX)
    | _ => (mx, fOF ||| fNX ||| flagIf (!toMax) fSAT)
  else (mx, fOF ||| fNX ||| fSAT)

/-- Round a nonzero value m × 2^e into a format (R138, R142): bits with sign, and flags. -/
def roundNum (fm : Fmt) (mode : RMode) (ov : OvMode) (w : Nat) (neg : Bool) (m : Nat) (e : Int) : Nat × BitVec 7 :=
  let top : Int := Nat.log2 m + e
  let q := Max.max top fm.emin - fm.f
  let r := roundQ mode neg w m e q
  let carry := r.1 = 2 ^ (fm.f + 1)
  let m1 := if carry then 2 ^ fm.f else r.1
  let q1 := if carry then q + 1 else q
  let mag := fm.place m1 q1
  if fm.maxBits < mag then overflowTo fm mode ov neg
  else (fm.withSign neg mag, flagIf r.2 fNX ||| flagIf (r.2 && decide (m1 < 2 ^ fm.f)) fUF)

/-- Round a nonzero value with an unbounded exponent, and make it a zero of its sign below the smallest normal
(R149). -/
def roundFlush (fm : Fmt) (mode : RMode) (ov : OvMode) (w : Nat) (neg : Bool) (m : Nat) (e : Int) : Nat × BitVec 7 :=
  let top : Int := Nat.log2 m + e
  let r := roundQ mode neg w m e (top - fm.f)
  let topR : Int := if r.1 = 2 ^ (fm.f + 1) then top + 1 else top
  if topR < fm.emin then (fm.withSign neg 0, fFZ ||| fUF ||| fNX)
  else roundNum fm mode ov w neg m e

/-- Round any finite value: zero keeps its sign (R148). -/
def roundFin (fm : Fmt) (mode : RMode) (ov : OvMode) (flush : Bool) (w : Nat) (neg : Bool) (m : Nat) (e : Int) : Nat × BitVec 7 :=
  if m = 0 then (fm.withSign neg 0, 0)
  else if flush then roundFlush fm mode ov w neg m e else roundNum fm mode ov w neg m e

/-- The exact sum of two finite values (R148). -/
def addFin (mode : RMode) (n1 : Bool) (m1 : Nat) (e1 : Int) (n2 : Bool) (m2 : Nat) (e2 : Int) : FVal :=
  let zneg := mode = .rdn
  if m1 = 0 && m2 = 0 then .fin (if n1 = n2 then n1 else zneg) 0 0
  else if m1 = 0 then .fin n2 m2 e2
  else if m2 = 0 then .fin n1 m1 e1
  else
    let e := Min.min e1 e2
    let x : Int := (if n1 then -1 else 1) * ((m1 * 2 ^ (e1 - e).toNat : Nat) : Int)
    let y : Int := (if n2 then -1 else 1) * ((m2 * 2 ^ (e2 - e).toNat : Nat) : Int)
    let z := x + y
    if z = 0 then .fin zneg 0 0 else .fin (z < 0) z.natAbs e

/-- Quiet a NaN: its bits in a format, sign and payload kept (R144). -/
def Fmt.nanBits (fm : Fmt) (neg : Bool) (payload : Nat) : Nat :=
  if fm.ieee then fm.withSign neg ((2 ^ fm.e - 1) * 2 ^ fm.f + 2 ^ (fm.f - 1) + payload) else fm.withSign neg 0x7F

/-- A datum is a NaN. -/
def FVal.isNan : FVal → Bool
  | .nan _ _ _ => true
  | _ => false

/-- A datum is a signalling NaN. -/
def FVal.isSnan : FVal → Bool
  | .nan _ q _ => !q
  | _ => false

/-- The sign of a datum. -/
def FVal.neg : FVal → Bool
  | .nan n _ _ => n
  | .inf n => n
  | .fin n _ _ => n

/-- The negated datum. -/
def FVal.negate : FVal → FVal
  | .nan n q p => .nan n q p
  | .inf n => .inf (!n)
  | .fin n m e => .fin (!n) m e

/-- Exact product of data that are not NaN; none is an invalid operation (R144, R148). -/
def mulVal (x y : FVal) : Option FVal :=
  match x, y with
  | .fin n m e, .fin n' m' e' => some (.fin (n ^^ n') (m * m') (e + e'))
  | .inf n, .fin n' m' _ => if m' = 0 then none else some (.inf (n ^^ n'))
  | .fin n m _, .inf n' => if m = 0 then none else some (.inf (n ^^ n'))
  | .inf n, .inf n' => some (.inf (n ^^ n'))
  | _, _ => none

/-- Exact sum of data that are not NaN; none is an invalid operation (R144, R148). -/
def addVal (mode : RMode) (x y : FVal) : Option FVal :=
  match x, y with
  | .fin n m e, .fin n' m' e' => some (addFin mode n m e n' m' e')
  | .inf n, .fin _ _ _ => some (.inf n)
  | .fin _ _ _, .inf n => some (.inf n)
  | .inf n, .inf n' => if n = n' then some (.inf n) else none
  | _, _ => none

/-- The first NaN of some data, quieted, with NV when one is signalling (R144); none without a NaN. -/
def firstNan (fm : Fmt) (xs : List FVal) : Option (Nat × BitVec 7) :=
  match xs.find? FVal.isNan with
  | some (.nan n _ p) => some (fm.nanBits n p, flagIf (xs.any FVal.isSnan) fNV)
  | _ => none

/-- Deliver an exact result (R138, R142, R144, R149): none is an invalid operation. -/
def deliver (fm : Fmt) (mode : RMode) (flush : Bool) (w : Nat) (r : Option FVal) : Nat × BitVec 7 :=
  match r with
  | none => (fm.cnan, fNV)
  | some (.fin n m e) => roundFin fm mode .dflt flush w n m e
  | some (.inf n) => (fm.inf n, 0)
  | some (.nan n _ p) => (fm.nanBits n p, 0)

/-- Read an operand of the vector unit: in exposed mode a subnormal becomes a zero of its sign with FZ (R149). -/
def Fmt.operand (fm : Fmt) (exposed : Bool) (bits : Nat) : FVal × BitVec 7 :=
  if exposed && fm.subnormal bits then (.fin (fm.decode bits).neg 0 0, fFZ) else (fm.decode bits, 0)

/-- CubeRound of an exact value (R243): FP32 bits and the event bits NX 0, OF 1, NV 2, UF 3 (R277). -/
def cubeRound (r : Option FVal) : Nat × BitVec 8 :=
  match r with
  | none => (fp32.cnan, 4)
  | some (.nan _ _ _) => (fp32.cnan, 4)
  | some (.inf n) => (fp32.inf n, 0)
  | some (.fin n m e) =>
    let x := roundFin fp32 .rne .dflt true 0 n m e
    let flushed := x.2 &&& fFZ ≠ 0
    (x.1, (if x.2 &&& fNX ≠ 0 then 1 else 0) ||| (if x.2 &&& fOF ≠ 0 then 2 else 0) ||| (if flushed then 8 else 0))

/-- Place the payload of a NaN of one format in another (R146). -/
def movePayload (src dst : Fmt) (p : Nat) : Nat :=
  if !src.ieee then 0
  else if src.f ≤ dst.f then p * 2 ^ (dst.f - src.f) else p / 2 ^ (src.f - dst.f)

/-- Convert a floating-point datum into a format (R138, R142, R144, R146): bits and flags. -/
def convertF (src dst : Fmt) (mode : RMode) (ov : OvMode) (flush : Bool) (w : Nat) (x : FVal) : Nat × BitVec 7 :=
  match x with
  | .nan n q p => (dst.nanBits n (movePayload src dst p), flagIf (!q) fNV)
  | .inf n =>
    if dst.ieee then
      match ov with
      | .sat => (dst.withSign n dst.maxBits, fSAT)
      | _ => (dst.inf n, 0)
    else if ov = .nan then (dst.withSign n 0x7F, 0)
    else (dst.withSign n dst.maxBits, fSAT)
  | .fin n m e => roundFin dst mode ov flush w n m e

/-- Convert a datum into an integer of a width, signed or not (R143): the value and flags. -/
def convertI (width : Nat) (signed : Bool) (mode : RMode) (w : Nat) (x : FVal) : Int × BitVec 7 :=
  let lo : Int := if signed then -(2 ^ (width - 1)) else 0
  let hi : Int := if signed then 2 ^ (width - 1) - 1 else 2 ^ width - 1
  match x with
  | .nan _ _ _ => (0, fNV)
  | .inf n => (if n then lo else hi, fNV ||| fSAT)
  | .fin n m e =>
    let r := roundQ mode n w m e 0
    let v : Int := if n then -(r.1 : Int) else r.1
    if v < lo then (lo, fNV ||| fSAT)
    else if hi < v then (hi, fNV ||| fSAT)
    else (v, flagIf r.2 fNX)

/-- An integer as an exact datum (R148: 0 is +0). -/
def ofInteger (x : Int) : FVal := .fin (x < 0) x.natAbs 0

end Sys2Proof.Machine
end

