-- ==== Sys2Proof/Machine/Operands.lean ====
section
/-! DEFINITION. Vector operands, enables, draws and results (R30, R31, R140, R153 to R158, R209, R210). Element
widths are in bits. -/

namespace Sys2Proof.Machine

/-- How an instruction reads an operand, for the constant codes (R31). -/
inductive ReadAs where
  /-- FP32 or FP64, by the width. -/
  | flt
  /-- An integer, or raw bits. -/
  | int
  /-- A narrow floating-point format in the low bits of a container. -/
  | narrow (fm : Fmt)
deriving DecidableEq, Repr

/-- FP32 at 32 bits, FP64 otherwise. -/
def fmtOfWidth (w : Nat) : Fmt := if w = 32 then fp32 else fp64

/-- The lane of the element i of w bits, 0 to 15 (R153). -/
def laneOf (w i : Nat) : Nat := w * i / 64 % 16

/-- The cluster of the element i of w bits (R153). -/
def clusterOf (w i : Nat) : Nat := w * i / 1024

/-- Elements of w bits in a vector register (R209). -/
def elemCount (w : Nat) : Nat := 8192 / w

/-- The integer that a constant code stands for (R31): +0.5 truncates to 0. -/
def constInt (code w i : Nat) : Int :=
  match code with
  | 73 => 1
  | 74 => -1
  | 76 => 2
  | 78 => laneOf w i
  | 79 => clusterOf w i
  | _ => 0

/-- The exact datum that a constant code stands for (R30, R31). -/
def constDatum (code w i : Nat) : FVal := if code = 75 then .fin false 1 (-1) else ofInteger (constInt code w i)

/-- A datum as the bits of a format, to nearest even and saturating (R31). -/
def constBits (fm : Fmt) (x : FVal) : Nat := (convertF fm fm .rne .sat false 0 x).1

/-- The bits that a constant code 72 to 79 delivers in element i (R31). -/
def constElem (rd : ReadAs) (w code i : Nat) : Nat :=
  if code = 77 then 2 ^ w - 1
  else
    match rd with
    | .flt => constBits (fmtOfWidth w) (constDatum code w i)
    | .int => (BitVec.ofInt w (constInt code w i)).toNat
    | .narrow fm => constBits fm (constDatum code w i)

/-- Element i of w bits of an image (R153). -/
def elemOf (img w i : Nat) : Nat := img >>> (w * i) % 2 ^ w

/-- The image that tap qk names: the entry pushed k + 1 pushes before the bundle, p pushes before it and q of
the bundle itself (R158). -/
def Stream.tap (x : Stream) (q k : Nat) : BitVec 8192 :=
  x.ring[(x.pushes + 15 - q - k) % 8]'(Nat.mod_lt _ (by decide))

/-- The elements that an operand code delivers (R30, R31, R158). -/
def State.vsrc (s : State) (code : BitVec 7) (rd : ReadAs) (w : Nat) : Nat → Nat :=
  if code.toNat < 64 then elemOf (s.curCtx.rv (code.setWidth 6)).toNat w
  else if code.toNat < 72 then elemOf (s.cur.tap s.issue.pushed (code.toNat - 64)).toNat w
  else constElem rd w code.toNat

/-- Element i of w bits is enabled by a mask (R154). -/
def enabled (m : BitVec 512) (w i : Nat) : Bool := m.getLsbD (w * i / 16)

/-- The elements that the mask field of an instruction enables (R154, R209). -/
def State.ven (s : State) (m : BitVec 3) (w : Nat) : Nat → Bool := enabled (s.curCtx.rm m) w

/-- Every element (R209). -/
def allOn : Nat → Bool := fun _ => true

/-! ### Draws (R140) -/

/-- The state of a generator after a draw (R140). -/
def nextGen (x : Word) : Word :=
  let a := x ^^^ (x <<< 13)
  let b := a ^^^ (a >>> 7)
  b ^^^ (b <<< 17)

/-- Draw from generator g, 16 × cluster + lane: the states afterwards and the random word (R140). -/
def drawFrom (gens : Vector Word 128) (g : Nat) : Vector Word 128 × Nat :=
  if h : g < 128 then
    let y := nextGen gens[g]
    (gens.set g y h, y.toNat / 2 ^ 48)
  else (gens, 0)

/-! ### Results -/

/-- A vector result under construction: its bits, the bits written, its flags, the generator states. -/
structure VResult where
  img : Nat
  written : Nat
  flags : BitVec 7
  gens : Vector Word 128
deriving DecidableEq, Repr

/-- Put one element into a result. -/
def VResult.put (r : VResult) (w i x : Nat) (f : BitVec 7) : VResult :=
  { r with img := r.img + (x % 2 ^ w) <<< (w * i), written := r.written + (2 ^ w - 1) <<< (w * i), flags := r.flags ||| f }

/-- VExec (R209): f gives the bits and flags of an element from its random word, drawn only when draw holds, and
its number; elements that on refuses are not written and do not draw. -/
def vmap (w : Nat) (on : Nat → Bool) (draw : Bool) (gens : Vector Word 128) (f : Nat → Nat → Nat × BitVec 7) : VResult :=
  foldUp (elemCount w) (fun r i =>
    if on i then
      if draw then
        let d := drawFrom r.gens (w * i / 64)
        let o := f d.2 i
        { r with gens := d.1 }.put w i o.1 o.2
      else
        let o := f 0 i
        r.put w i o.1 o.2
    else r) { img := 0, written := 0, flags := 0, gens := gens }

/-- Push a ring entry, unless a handler runs (R157, R348): the number of the push. -/
def State.pushRing (s : State) : State × Option Nat :=
  if s.cur.hnd then (s, none)
  else
    let n := s.cur.pushes
    let s1 := s.updCur (fun x => { x with pushes := x.pushes + 1 })
    ({ s1 with issue := { s1.issue with pushed := s1.issue.pushed + 1 } }, some n)

/-- An instruction that writes no vector register pushes an entry of zeros (R157, R210). -/
def State.pushZero (s : State) (lat : Nat) : State :=
  match s.pushRing with
  | (s1, none) => s1
  | (s1, some n) => s1.emit lat (.ringZero n)

/-- A vector result of the issuing stream, with its push (R157, R209). -/
def State.putV (s : State) (lat : Nat) (d : BitVec 6) (r : VResult) : State :=
  let p := s.pushRing
  p.1.emit lat (.vec d (BitVec.ofNat 8192 r.written) (BitVec.ofNat 8192 r.img) p.2)

/-- A vector result with flags and draws (R140, R151, R209). -/
def State.putF (s : State) (lat : Nat) (d : BitVec 6) (r : VResult) : Answer :=
  .next (((s.putV lat d r).emit lat (.flags r.flags)).updCur (fun x => { x with gens := r.gens }))

/-- The mask bits that an element of w bits, 16 or more, covers (R154). -/
def coverBits (w i : Nat) : Nat := (2 ^ (w / 16) - 1) <<< (w * i / 16)

/-- A mask result under construction: its bits and the bits written. -/
structure MResult where
  bits : Nat
  written : Nat
  flags : BitVec 7
deriving DecidableEq, Repr

/-- A compare (R154, R210): f gives the condition and flags of an element. A pair of 8-bit elements writes 1 only
when both satisfy it. -/
def mmap (w : Nat) (on : Nat → Bool) (f : Nat → Bool × BitVec 7) : MResult :=
  if w = 8 then
    foldUp 512 (fun r j =>
      if on (2 * j) then
        { bits := r.bits + (if (f (2 * j)).1 && (f (2 * j + 1)).1 then 2 ^ j else 0)
          written := r.written + 2 ^ j, flags := r.flags ||| (f (2 * j)).2 ||| (f (2 * j + 1)).2 }
      else r) { bits := 0, written := 0, flags := 0 }
  else
    foldUp (elemCount w) (fun r i =>
      if on i then
        { bits := r.bits + (if (f i).1 then coverBits w i else 0), written := r.written + coverBits w i
          flags := r.flags ||| (f i).2 }
      else r) { bits := 0, written := 0, flags := 0 }

/-- A mask result of the issuing stream with its push of zeros (R210). -/
def State.putM (s : State) (lat : Nat) (k : BitVec 3) (r : MResult) : State :=
  (s.pushZero lat).emit lat (.mask k (BitVec.ofNat 512 r.written) (BitVec.ofNat 512 r.bits))

/-- The generators of the issuing stream. -/
def State.gens (s : State) : Vector Word 128 := s.cur.gens

/-- The issuing stream flushes subnormals: exposed mode (R149). -/
def State.exposed (s : State) : Bool := !s.cur.inter

/-- The default rounding mode of the issuing stream (R137, R211). -/
def State.rmode (s : State) : RMode := RMode.ofRnd s.cur.rnd

/-- The mode of a V1 rounding field (R137). -/
def State.rfield (s : State) (r : BitVec 3) : RMode := RMode.ofField r.toNat s.cur.rnd

/-- The element width of a type bit: 0 FP32, 1 FP64 (R212). -/
def typeWidth (t : Bool) : Nat := if t then 64 else 32

/-- The element width of a width code (R218). -/
def codeWidth (w : BitVec 2) : Nat := 8 <<< w.toNat

/-- A number of w bits as a two's complement integer (R135). -/
def toSigned (w x : Nat) : Int := if 2 * x < 2 ^ w then (x : Int) else (x : Int) - 2 ^ w

/-- An integer as w bits of two's complement (R135). -/
def ofSigned (w : Nat) (x : Int) : Nat := (x % (2 ^ w : Nat)).toNat

end Sys2Proof.Machine
end

