-- ==== Sys2Proof/Machine/Rns.lean ====
section
/-! DEFINITION. Residue numbers: moduli, reconstruction, bands (R136, R278, R283), and the V-slot instructions
MODMUL, RESF, RESX and SLC (R295, R299). -/

namespace Sys2Proof.Machine

/-- The modulus of a channel (R136). -/
def modulus (c : Nat) : Nat :=
  match c with
  | 0 => 239
  | 1 => 241
  | 2 => 247
  | 3 => 251
  | 4 => 253
  | 5 => 255
  | 6 => 256
  | _ => 257

/-- M_I, the product of the information moduli (R278). -/
def modInfo : Nat := 230380820071545

/-- The inverse of a modulo m, 0 if there is none. -/
def modInverse (a m : Nat) : Nat := ((List.range m).find? (fun t => a * t % m = 1)).getD 0

/-- The least natural number with the residues of the listed channels, and the product of their moduli. -/
def crt (res : Nat → Nat) : List Nat → Nat × Nat
  | [] => (0, 1)
  | c :: r =>
    let t := crt res r
    let m := modulus c
    let k := (res c % m + m - t.1 % m) * modInverse (t.2 % m) m % m
    (t.1 + t.2 * k, t.2 * m)

/-- Reconstruct (R283): the value from −MC/2 up to but not including MC/2. -/
def reconstruct (res : Nat → Nat) (cs : List Nat) : Int :=
  let t := crt res cs
  if 2 * t.1 < t.2 then (t.1 : Int) else (t.1 : Int) - t.2

/-- What the classification of an element says (R283): a valid value with its band, a corrected value with the
channel excluded and its band, or nothing. The Bool holds for band O. -/
inductive Verdict where
  | valid (x : Int) (o : Bool)
  | located (c : Nat) (x : Int) (o : Bool)
  | uncorrectable
deriving DecidableEq, Repr

/-- A value lies in band V (R283). -/
def bandV (x : Int) : Bool := 2 * x.natAbs < modInfo

/-- A container is canonical for a channel (R136). -/
def canonicalRes (c r : Nat) : Bool := r < modulus c

/-- Classify (R283). -/
def classify (res : Nat → Nat) (bound : Nat) (deg : Bool) : Verdict :=
  if deg then
    if (List.range 7).any (fun c => !canonicalRes c (res c)) then .uncorrectable
    else
      let x := reconstruct res (List.range 7)
      if bandV x then .valid x false else .uncorrectable
  else
    let bad := (List.range 8).filter (fun c => !canonicalRes c (res c))
    let x := reconstruct res (List.range 8)
    if bad = [] && bandV x then .valid x false
    else if bad = [] && x.natAbs < 2 ^ 52 then .valid x true
    else
      let hits := (List.range 8).filterMap (fun c =>
        if bad.all (· = c) then
          let y := reconstruct res ((List.range 8).filter (· ≠ c))
          if y.natAbs ≤ bound then some (c, y) else none
        else none)
      match hits with
      | [(c, y)] => .located c y (!bandV y)
      | _ => .uncorrectable

/-- MODMUL on one container of channel c (R299). -/
def modmulElem (c a b z : Nat) : Nat :=
  if canonicalRes c a && canonicalRes c b && canonicalRes c z then (a * b + z) % modulus c else 0x0200

/-- MODMUL (R299). -/
def execModmul (d : BitVec 6) (a b : BitVec 7) (c : BitVec 5) (h : Bool) (s : State) : Answer :=
  let x := s.vsrc a .int 16
  let y := s.vsrc b .int 16
  let z := s.vsrc (c.setWidth 7) .int 16
  .next (s.putV 4 d (vmap 16 allOn false s.gens (fun _ i =>
    (modmulElem (i % 4 + if h then 4 else 0) (x i) (y i) (z i), 0))))

/-- The integer that RESF reads from a lane word (R299). -/
def resfInt (f x : Nat) : Int := if f < 12 then toSigned (fmtWidth f) (x % 2 ^ fmtWidth f) else x % 2 ^ fmtWidth f

/-- RESF (R299). -/
def execResf (d : BitVec 6) (a : BitVec 7) (f : BitVec 5) (m : BitVec 3) (h : Bool) (s : State) : Answer :=
  let x := s.vsrc a .int 64
  .next (s.putV 4 d (vmap 16 (s.ven m 16) false s.gens (fun _ i =>
    ((resfInt f.toNat (x (i / 4)) % (modulus (i % 4 + if h then 4 else 0) : Int)).toNat, 0))))

/-- The value that RESX writes (R299). -/
def Verdict.word : Verdict → Nat
  | .valid x _ => ofSigned 64 x
  | .located _ x _ => ofSigned 64 x
  | .uncorrectable => 2 ^ 63

/-- A verdict counts in OVC, LOCC and UNC (R299). -/
def Verdict.counts : Verdict → Nat × Nat × Nat
  | .valid _ o => (if o then 1 else 0, 0, 0)
  | .located _ _ o => (if o then 1 else 0, 1, 0)
  | .uncorrectable => (0, 0, 1)

/-- RESX (R299). -/
def execResx (d : BitVec 6) (a : BitVec 7) (m : BitVec 3) (deg : Bool) (s : State) : Answer :=
  let lo := s.vsrc a .int 16
  let hi := s.vsrc (a + 1) .int 16
  let on := s.ven m 64
  let verdict := fun i => classify (fun c => if c < 4 then lo (4 * i + c) else hi (4 * i + (c - 4))) (2 ^ 52) deg
  let n := foldUp 128 (fun (t : Nat × Nat × Nat) i =>
    if on i then
      let k := (verdict i).counts
      (t.1 + k.1, t.2.1 + k.2.1, t.2.2 + k.2.2)
    else t) (0, 0, 0)
  let s1 := s.putV 10 d (vmap 64 on false s.gens (fun _ i => ((verdict i).word, 0)))
  .next (s1.emit 10 (.residueCounts n.1 n.2.1 n.2.2))

/-- Clamp a number to a signed range of n bits, symmetric about 0: at most 2^n − 1 in magnitude. -/
def clampSym (n : Nat) (x : Int) : Int := Max.max (-(2 ^ n - 1)) (Min.min x (2 ^ n - 1))

/-- The fixed-point number A of SLC with its flags (R295). -/
def slcFixed (e : Int) (x : FVal) : Int × BitVec 7 :=
  match x with
  | .nan _ _ _ => (0, fNV)
  | .inf n => (if n then -(2 ^ 55 - 1) else 2 ^ 55 - 1, fNV ||| fSAT)
  | .fin n m ex =>
    let sh := ex + 55 - e
    let mag : Nat := if m = 0 then 0 else if 60 < Nat.log2 m + sh then 2 ^ 60
      else if 0 ≤ sh then m * 2 ^ sh.toNat else m / 2 ^ (-sh).toNat
    let a : Int := if n then -(mag : Int) else mag
    (clampSym 55 a, flagIf (2 ^ 55 - 1 < mag) fSAT)

/-- The balanced low digit of 14 bits (R295). -/
def slcLow (a : Int) : Int := (a + 2 ^ 13) % 2 ^ 14 - 2 ^ 13

/-- What remains above the low digit (R295). -/
def slcHigh (a : Int) : Int := (a - slcLow a) / 2 ^ 14

/-- Digit n of a fixed-point number; digit 3 is the rest (R295). -/
def slcDigit (n : Nat) (a : Int) : Int :=
  match n with
  | 0 => slcLow a
  | 1 => slcLow (slcHigh a)
  | 2 => slcLow (slcHigh (slcHigh a))
  | _ => slcHigh (slcHigh (slcHigh a))

/-- SLC (R295): subnormals are honoured in both modes. -/
def execSlc (d src : BitVec 6) (n : BitVec 2) (v : BitVec 6) (s : State) : Answer :=
  let e := Max.max (-32768) (Min.min (s.cur.rs src).toInt 32767)
  let img := (s.curCtx.rv v).toNat
  s.putF 4 d (vmap 64 allOn false s.gens (fun _ i =>
    let a := slcFixed e (fp64.decode (elemOf img 64 i))
    (ofSigned 64 (slcDigit n.toNat a.1), a.2)))

end Sys2Proof.Machine
end

