-- ==== Sys2Proof/Machine/Shadow.lean ====
section
/-! DEFINITION. The recomputation of the shadow units (R368). -/

namespace Sys2Proof.Machine

/-- A finite value rounded to nearest with n fraction bits; ties go to even (assumption 68). -/
def FVal.roundFrac (n : Nat) (x : FVal) : FVal :=
  match x with
  | .fin neg m e =>
    let q : Int := (Nat.log2 m : Int) + e - n
    if m = 0 || q ≤ e then x else .fin neg (roundQ .rne neg 0 m e q).1 q
  | x => x

/-- The exponent of a finite value that is not zero. -/
def FVal.expo (x : FVal) : Option Int :=
  match x with
  | .fin _ m e => if m = 0 then none else some ((Nat.log2 m : Int) + e)
  | _ => none

/-- A datum is finite. -/
def FVal.finite (x : FVal) : Bool :=
  match x with
  | .fin .. => true
  | _ => false

/-- |main − shadow| exceeds b × 2^(e − 4) (R368). -/
def diverges (b : Nat) (main shadow : FVal) (e : Int) : Bool :=
  match addVal .rne main shadow.negate with
  | some (.fin _ m k) => decide (b * 2 ^ (e - 4 - k).toNat < m * 2 ^ (k - (e - 4)).toNat)
  | _ => false

/-- The larger of two exponents. -/
def maxExpo (x y : Option Int) : Option Int :=
  match x, y with
  | some a, some b => some (Max.max a b)
  | some a, none => some a
  | none, b => b

/-- The check of an exact product, or sum of products, against what rounded operands give (R368): low is the least exponent
that is checked. -/
def productDiverges (b : Nat) (low : Int) (exact rough : FVal) : Bool :=
  match exact.expo with
  | some e => rough.finite && low ≤ e && diverges b exact (rough.roundFrac 4) e
  | none => false

/-- The check of a sum x + y whose main unit gave r (R368). -/
def addDiverges (b : Nat) (low : Int) (x y r : FVal) : Bool :=
  match maxExpo x.expo y.expo, addVal .rne (x.roundFrac 8) (y.roundFrac 8) with
  | some e, some z => x.finite && y.finite && r.finite && low ≤ e && diverges b r (z.roundFrac 4) e
  | _, _ => false

/-- The divergence bound B of ctl.shbound (R369). -/
def shadowBound (shbound : Word) : Nat := Nat.max 1 (shbound.toNat % 16)

end Sys2Proof.Machine
end

