-- ==== Sys2Proof/Machine/CubeBase.lean ====
section
/-! DEFINITION. What a step of the cube reads and computes: stream registers, element places, the bank rules,
summation, plane sums, and the regulator's tests on a step (R119, R127, R155, R238 to R258, R264, R278 to R282,
R395 to R397, R412). -/

namespace Sys2Proof.Machine

/-! ### Stream registers (R155) -/

/-- BASE. -/
def sdBase (d : BitVec 512) : Nat := (d.extractLsb' 0 27).toNat
/-- GRP: north. -/
def sdNorth (d : BitVec 512) : Bool := d.getLsbD 27
/-- FMT. -/
def sdFmt (d : BitVec 512) : Nat := (d.extractLsb' 28 5).toNat
/-- DIMS. -/
def sdDims (d : BitVec 512) : Nat := (d.extractLsb' 33 2).toNat
/-- MAG. -/
def sdMag (d : BitVec 512) : Nat := (d.extractLsb' 35 4).toNat
/-- EXT0. -/
def sdExt0 (d : BitVec 512) : Nat := (d.extractLsb' 64 32).toNat
/-- EXT1. -/
def sdExt1 (d : BitVec 512) : Nat := (d.extractLsb' 96 32).toNat
/-- EXT2. -/
def sdExt2 (d : BitVec 512) : Nat := (d.extractLsb' 128 32).toNat
/-- STR0. -/
def sdStr0 (d : BitVec 512) : Int := (d.extractLsb' 192 32).toInt
/-- STR1. -/
def sdStr1 (d : BitVec 512) : Int := (d.extractLsb' 224 32).toInt
/-- STR2. -/
def sdStr2 (d : BitVec 512) : Int := (d.extractLsb' 256 32).toInt
/-- SBASE. -/
def sdSbase (d : BitVec 512) : Nat := (d.extractLsb' 320 27).toNat
/-- SSTR. -/
def sdSstr (d : BitVec 512) : Int := (d.extractLsb' 352 32).toInt
/-- CUR1. -/
def sdCur1 (d : BitVec 512) : Nat := (d.extractLsb' 416 32).toNat
/-- The tile index t (R264). -/
def sdTile (d : BitVec 512) : Nat := if sdDims d = 3 then sdCur1 d else 0

/-- The slice offset of element (k, row) of the tile (R155, R264). -/
def elemOff (d : BitVec 512) (fmt k row : Nat) : Int :=
  sdBase d + (if fmt = 6 then ((k / 2 : Nat) : Int) else k * sdStr0 d) + row * sdStr1 d + sdTile d * sdStr2 d

/-- The slice offset of the scale of the block of element (k, row) (R155). -/
def scaleOff (d : BitVec 512) (k row : Nat) : Int := sdSbase d + ((k / 32 : Nat) : Int) + row * sdSstr d

/-- Bytes of an element (R128). -/
def elemSize (fmt : Nat) : Nat := Nat.max 1 (fmtWidth fmt / 8)

/-- The bytes of n from an offset. -/
def bytesFrom (o : Int) (n : Nat) : List Int := (List.range n).map (fun (b : Nat) => o + (b : Int))

/-- The slice offsets that a step reads of one stream, in stream order (R127): the elements by row, then by k, then
the scale bytes of their blocks. -/
def streamBytes (d : BitVec 512) (fmt rows k0 k1 : Nat) : List Int :=
  let cells := (List.range rows).flatMap (fun r => (List.range (k1 - k0)).map (fun k => (k0 + k, r)))
  cells.flatMap (fun c => bytesFrom (elemOff d fmt c.1 c.2) (elemSize fmt)) ++
    (if fmt = 6 then (cells.map (fun c => scaleOff d c.1 c.2)).eraseDups else [])

/-- An offset lies in the west or the north group (R116, R119). -/
def inGroup (north : Bool) (o : Int) : Bool :=
  if north then 0x3000000 ≤ o && o ≤ 0x5FFFFFF else 0 ≤ o && o < 0x3000000

/-- The bank rules of one step (R119, R127): the bytes in stream order, each with whether it must lie north, and the
rows met so far by sub-bank; the record of the first offence. R127 orders offences within a kind; of an offence of kind 1 or
2 and one of kind 3, the one that stream order meets first is reported: the model's choice (assumption 71). -/
def stepConflict : List (Int × Bool) → List (Nat × Nat) → Option Word
  | [], _ => none
  | (o, north) :: r, seen =>
    let kind := if north then 2 else 1
    if o < 0 || 0x5FFFFFF < o then some (bankRecordOut kind)
    else
      let p := slicePlace o.toNat
      if !inGroup north o then some (bankRecord p kind)
      else
        let key := p.index
        match aget seen key with
        | some row => if row = p.row then stepConflict r seen else some (bankRecord p 3)
        | none => stepConflict r ((key, p.row) :: seen)

/-! ### Tile operations -/

/-- The formats of A and B (R262, R291, R296). -/
def tileFmts (kind : TileKind) (fmt : Nat) : Nat × Nat :=
  match kind with
  | .mmi =>
    match fmt with
    | 0 => (8, 8)
    | 1 => (9, 9)
    | 2 => (8, 9)
    | _ => (9, 8)
  | .xdot _ => (9, 9)
  | _ =>
    match fmt with
    | 0 => (2, 2)
    | 1 => (3, 3)
    | 2 => (4, 4)
    | 3 => (4, 5)
    | 4 => (5, 4)
    | 5 => (5, 5)
    | _ => (6, 6)

/-- Products per cell and step, w (R241, R262). -/
def tileW (fmt : Nat) : Nat := if fmt ≤ 1 then 1 else if fmt ≤ 5 then 2 else 4

/-- The operation works on the plane set (R248, R256). -/
def TileKind.plane : TileKind → Bool
  | .mmi => true
  | .xdot _ => true
  | _ => false

/-- The number of active layers (R242). -/
def lactOf (mask : BitVec 16) : Nat := popN 16 mask.toNat

/-- Both groups are used (R257). -/
def bothGroups (mask : BitVec 16) : Bool := mask &&& 0xFF ≠ 0 && mask >>> 8 ≠ 0

/-- Values of k per step, Q (R242, R257). -/
def tileQ (kind : TileKind) (fmt : Nat) (mask : BitVec 16) : Nat :=
  if kind.plane then (if bothGroups mask then 8 else 4) else lactOf mask * tileW fmt

/-- A core reads its own A stream for the operation (R255, R264, R269). -/
def TileOp.readsA (t : TileOp) (c : CoreId) : Bool :=
  (match t.kind with | .mma => true | .mmi => true | .xdot _ => true | _ => false) &&
    t.aCore = c && 0 < t.rows && 0 < t.cols

/-- A core reads its own B stream for the operation (R255, R264, R268, R269). -/
def TileOp.readsB (t : TileOp) (c : CoreId) : Bool :=
  (match t.kind with | .mma => !t.hold | .mmz => true | .mmi => true | .xdot _ => true | _ => false) &&
    t.bCore = c && 0 < t.rows && 0 < t.cols

/-- The values of k of step j: first and end (R242, R257). -/
def TileOp.kRange (t : TileOp) (j : Nat) : Nat × Nat :=
  let q := tileQ t.kind t.fmt.toNat t.mask
  (Nat.min (j * q) t.k, Nat.min (j * q + q) t.k)

/-- The bytes of step j that a core reads from its own slice, with the group each must lie in (R118, R119). -/
def TileOp.stepBytes (t : TileOp) (c : CoreId) (j : Nat) : List (Int × Bool) :=
  let kr := t.kRange j
  let fm := tileFmts t.kind t.fmt.toNat
  (if t.readsA c then (streamBytes t.astr fm.1 t.rows kr.1 kr.2).map (fun o => (o, false)) else []) ++
  (if t.readsB c then (streamBytes t.bstr fm.2 t.cols kr.1 kr.2).map (fun o => (o, true)) else [])

/-- The operation with the stream registers that its gang reads for it: those of the members whose slices hold the operands
(R255, R264). -/
def TileOp.reading (t : TileOp) (ms : List (CoreId × TileOp)) : TileOp :=
  { t with
    astr := ((ms.find? (fun m => m.1 = t.aCore)).map (·.2.astr)).getD t.astr
    bstr := ((ms.find? (fun m => m.1 = t.bCore)).map (·.2.bstr)).getD t.bstr }

/-- The IAs that step j reads for an operation, its own slice or a partner's, in stream order (R127, R255). -/
def TileOp.readOrder (t : TileOp) (j : Nat) : List Nat :=
  let kr := t.kRange j
  let fm := tileFmts t.kind t.fmt.toNat
  let ia := fun (c : CoreId) (o : Int) => sliceBase c.val + o.toNat
  (if t.kind = .mmz then [] else (streamBytes t.astr fm.1 t.rows kr.1 kr.2).map (ia t.aCore)) ++
    (if t.hold then [] else (streamBytes t.bstr fm.2 t.cols kr.1 kr.2).map (ia t.bCore))

/-- The places of step j in the core's own slice (R118). -/
def TileOp.stepPlaces (t : TileOp) (c : CoreId) (j : Nat) : List SlicePlace :=
  ((t.stepBytes c j).map (fun o => slicePlace o.1.toNat)).eraseDups

/-- The bank rules of all steps (R119). -/
def TileOp.conflict (t : TileOp) (c : CoreId) : Option Word :=
  (List.range t.steps).findSome? (fun j => stepConflict (t.stepBytes c j) [])

/-- The operations in the feed, in order (R246). -/
def Ctx.feed (x : Ctx) : List TileOp := x.tiles.filter (fun t => t.stage = .feed)

/-- What the feed of a context takes in the n-th cycle after the present one, n 1 or 2: an operation and its step
(R118, R120, R247). -/
def Ctx.feedAt (x : Ctx) (now n : Nat) : Option (TileOp × Nat) :=
  let at_ := fun (l : List TileOp) (c : Nat) =>
    match l.filter (fun t => t.done < t.steps) with
    | t :: _ => if t.ready ≤ now + c then some (t, t.done) else none
    | [] => none
  let first := at_ x.feed 1
  if n ≤ 1 then first
  else
    match first with
    | none => at_ x.feed 2
    | some (t, _) => at_ (x.feed.map (fun u => if u.id = t.id then { u with done := u.done + 1 } else u)) 2

/-! ### Reading operands -/

/-- The IA of a slice offset of a core. -/
def sliceIa (c : CoreId) (o : Int) : Nat := sliceBase c.val + o.toNat

/-- An element as read: its bits, its scale byte, and the IA of the poisoned word met first (R123, R264, R267). -/
structure Operand where
  bits : Nat
  scale : Nat
  bad : Option Nat
deriving DecidableEq, Repr

/-- Read an element of a stream from a slice (R117, R155, R264). -/
def State.readElem (s : State) (c : CoreId) (d : BitVec 512) (fmt k row : Nat) : Operand :=
  let as := addrs (sliceIa c (elemOff d fmt k row)) (elemSize fmt)
  let x := natOfBytes (as.map s.byteNow)
  let sc := sliceIa c (scaleOff d k row)
  let bad := ((s.firstPoison as).orElse (fun _ => if fmt = 6 then s.firstPoison [sc] else none)).map unitOf
  if fmt = 6 then { bits := x / 16 ^ (k % 2) % 16, scale := (s.byteNow sc).toNat, bad := bad }
  else { bits := x, scale := 0, bad := bad }

/-- The value of a floating-point operand (R244, R267). -/
def Operand.value (o : Operand) (fmt : Nat) : FVal :=
  if o.bad.isSome then .nan false true 0
  else if fmt = 6 then
    if o.scale = 0xFF then .nan false true 0
    else match e2m1.decode o.bits with
      | .fin n m e => .fin n m (e + ((o.scale : Int) - 127))
      | v => v
  else (fmtOfCode fmt).decode o.bits

/-- The integer of an operand (R280). -/
def Operand.int (o : Operand) (fmt : Nat) : Int := toSigned (fmtWidth fmt) o.bits

/-- An operand as a latch of the slab holds it (R250). -/
def Operand.latch (o : Operand) : BitVec 25 := BitVec.ofNat 25 (o.bits + 65536 * o.scale + (if o.bad.isSome then 2 ^ 24 else 0))

/-- An operand from a latch of the slab (R250). -/
def Operand.ofLatch (x : BitVec 25) : Operand :=
  { bits := (x.extractLsb' 0 16).toNat, scale := (x.extractLsb' 16 8).toNat, bad := if x.getLsbD 24 then some 0 else none }

/-- The A operands of step j, by row and then by k (R240, R255). -/
def TileOp.aOperands (t : TileOp) (s : State) (j : Nat) : List (List Operand) :=
  let kr := t.kRange j
  (List.range t.rows).map (fun i => (List.range (kr.2 - kr.1)).map (fun k =>
    s.readElem t.aCore t.astr (tileFmts t.kind t.fmt.toNat).1 (kr.1 + k) i))

/-- The B operands of step j, by column and then by k (R240, R250, R255). -/
def TileOp.bOperands (t : TileOp) (s : State) (x : Ctx) (j : Nat) : List (List Operand) :=
  let kr := t.kRange j
  (List.range t.cols).map (fun i => (List.range (kr.2 - kr.1)).map (fun k =>
    if t.hold then Operand.ofLatch (tget 0 x.slabVals (192 * (kr.1 + k) + i))
    else s.readElem t.bCore t.bstr (tileFmts t.kind t.fmt.toNat).2 (kr.1 + k) i))

/-! ### Floating-point steps (R243, R244) -/

/-- An exact product; none is NaN. -/
def prodOf (x y : FVal) : Option FVal := if x.isNan || y.isNan then none else mulVal x y

/-- Add, none being NaN. -/
def sumOf (x y : Option FVal) : Option FVal :=
  match x, y with
  | some a, some b => if a.isNan || b.isNan then none else addVal .rne a b
  | _, _ => none

/-- ExactSum of the products of one cell. -/
def exactSum : List (Option FVal) → Option FVal
  | [] => some (.fin false 0 0)
  | x :: r => r.foldl sumOf x

/-- CubeRound of a running sum of FP32 bits and an addend: bits and events. A NaN that the running sum already holds sets NV
again: the model's choice, as R277 does not say (assumption 90). -/
def cubeAdd (acc : Nat) (x : Option FVal) : Nat × BitVec 8 := cubeRound (sumOf (some (fp32.decode acc)) x)

/-- Split a list into pieces of w, the last perhaps shorter; n at least its length. -/
def pieces {α : Type} (w : Nat) : Nat → List α → List (List α)
  | 0, _ => []
  | _, [] => []
  | n + 1, l => l.take w :: pieces w n (l.drop w)

/-- One step of one element (R243): from the accumulator's bits, the products in order of k. -/
def cubeElement (w acc : Nat) (ps : List (Option FVal)) : Nat × BitVec 8 :=
  let c := (pieces w ps.length ps).foldl (fun (t : Nat × BitVec 8) p =>
    let r := cubeAdd t.1 (exactSum p)
    (r.1, t.2 ||| r.2)) (2 ^ 31, 0)
  let r := cubeAdd acc (some (fp32.decode c.1))
  (r.1, c.2 ||| r.2)

/-- The shadow checks of one layer of one element (R368): its chain before, its pairs of operands; the chain afterwards, and
whether a product (false) or the layer's add (true) diverges. -/
def layerShadow (b chain : Nat) (p : List (FVal × FVal)) : Nat × Option Bool :=
  let exact := exactSum (p.map (fun x => prodOf x.1 x.2))
  let r := cubeAdd chain exact
  (r.1,
    match exact, exactSum (p.map (fun x => prodOf (x.1.roundFrac 8) (x.2.roundFrac 8))) with
    | some x, some y =>
      if productDiverges b (-120) x y then some false
      else if r.2 &&& 8 = 0 && addDiverges b (-120) (fp32.decode chain) x (fp32.decode r.1) then some true else none
    | _, _ => none)

/-- The first active layer, counted from 0, at which an element diverges in a step, and whether in its add (R243, R368). -/
def elementShadow (b w : Nat) (ps : List (FVal × FVal)) : Option (Nat × Bool) :=
  ((pieces w ps.length ps).zipIdx.foldl (fun (t : Nat × Option (Nat × Bool)) p =>
    let r := layerShadow b t.1 p.1
    (r.1, t.2.orElse (fun _ => r.2.map (fun a => (p.2, a))))) (2 ^ 31, none)).2

/-- The layers of a mask, in ascending order. -/
def layersOf (mask : BitVec 16) : List Nat := (List.range 16).filter (fun l => mask.getLsbD l)

/-- ctl.tval of a divergence in the cube (R369). -/
def shadowRecord (c : CoreId) (cat : Vector (BitVec 5) 16) (x y layer : Nat) (add : Bool) (step : Nat) : Word :=
  BitVec.ofNat 64 (x + 2 ^ 7 * y + 2 ^ 15 * layer + 2 ^ 19 * (cat.toList.getD layer 0).toNat + (if add then 2 ^ 25 else 0) +
    2 ^ 26 * c.val + 2 ^ 29 * Nat.min step (2 ^ 24 - 1))

/-- The first divergence of a step, in (x, y, L) order (R368, R369). A unit without fault stays below 1.2 × 2^(e_max − 4), so
only a bound of 1 can report it. -/
def stepShadow (c : CoreId) (cat : Vector (BitVec 5) 16) (t : TileOp) (av bv : List (List FVal)) : Option Word :=
  if 2 ≤ t.bnd then none
  else
    let found := (List.range av.length).flatMap (fun i => (List.range bv.length).filterMap (fun j =>
      (elementShadow t.bnd (tileW t.fmt.toNat) (List.zip (av.getD i []) (bv.getD j []))).map (fun r =>
        (24576 * 16 * ((t.ox + i) % 128) + 16 * ((t.oy + j) % 192) + (layersOf t.mask).getD r.1 0,
          shadowRecord c cat ((t.ox + i) % 128) ((t.oy + j) % 192) ((layersOf t.mask).getD r.1 0) r.2 t.done))))
    (found.foldl (fun (m : Option (Nat × Word)) f => match m with
      | some g => if f.1 < g.1 then some f else m
      | none => some f) none).map (·.2)

/-- The key of element (x, y) of accumulator n (R159). -/
def accKey (n x y : Nat) : Nat := 24576 * n + 192 * x + y

/-- One step over the tile (R243): the accumulators and the events. -/
def cubeStep (w n : Nat) (acc : Table (BitVec 32)) (av bv : List (List FVal)) : Table (BitVec 32) × BitVec 8 :=
  foldUp av.length (fun t i => foldUp bv.length (fun (t : Table (BitVec 32) × BitVec 8) j =>
    let r := cubeElement w (tget 0 t.1 (accKey n i j)).toNat (List.zipWith prodOf (av.getD i []) (bv.getD j []))
    (tput 0 t.1 (accKey n i j) (BitVec.ofNat 32 r.1), t.2 ||| r.2)) t) (acc, 0)

/-! ### Plane steps (R256, R257, R278, R280) -/

/-- DEG of a group (R279). -/
def rnsDeg (rns : Word) (g : Nat) : Bool := rns.getLsbD (1 + 4 * g)

/-- XL of a group (R279). -/
def rnsXl (rns : Word) (g : Nat) : Nat := getBits rns (2 + 4 * g) 3

/-- The channel that a layer computes (R278); deg: the operation runs degraded. -/
def channelOf (rns : Word) (deg : Bool) (layer : Nat) : Option Nat :=
  let p := layer % 8
  if rnsDeg rns (layer / 8) then
    let x := rnsXl rns (layer / 8)
    if p = x then none else some (if p < x then p else p - 1)
  else if deg && p = 7 then none
  else some p

/-- gmask(g) (R291). -/
def gmask (rns : Word) (g : Nat) : Word :=
  (0xFF#64 <<< (8 * g)) &&& ~~~(if rnsDeg rns g then BitVec.ofNat 64 (2 ^ (8 * g + rnsXl rns g)) else 0)

/-- An operation with a layer mask runs degraded (R278). -/
def maskDeg (rns : Word) (mask : BitVec 16) : Bool :=
  (mask &&& 0xFF ≠ 0 && rnsDeg rns 0) || (mask >>> 8 ≠ 0 && rnsDeg rns 1)

/-- The place of tile element (i, j) in a layer (R252, R359). -/
def cellKey (ox oy layer i j : Nat) : Nat := 24576 * layer + 192 * ((ox + i) % 128) + (oy + j) % 192

/-- The positions within a step's values of k that a layer's group takes: first and end (R257). -/
def groupSpan (mask : BitVec 16) (layer n : Nat) : Nat × Nat :=
  if bothGroups mask && 8 ≤ layer then (Nat.min 4 n, n) else (0, Nat.min 4 n)

/-- The dot product of two lists. -/
def dot (a b : List Int) : Int := (List.zipWith (· * ·) a b).foldl (· + ·) 0

/-- A list from position lo up to but not including hi. -/
def span {α : Type} (l : List α) (p : Nat × Nat) : List α := (l.drop p.1).take (p.2 - p.1)

/-- One plane-mode step (R257, R280). -/
def planeStep (rns : Word) (deg : Bool) (mask : BitVec 16) (ox oy : Nat) (sums : Table (BitVec 16))
    (av bv : List (List Int)) : Table (BitVec 16) :=
  foldUp 16 (fun sums layer =>
    match (if mask.getLsbD layer then channelOf rns deg layer else none) with
    | none => sums
    | some c =>
      foldUp av.length (fun sums i => foldUp bv.length (fun sums j =>
        let a := av.getD i []
        let p := groupSpan mask layer a.length
        if p.1 < p.2 then
          let key := cellKey ox oy layer i j
          let v := ((tget 0 sums key).toNat + dot (span a p) (span (bv.getD j []) p)) % (modulus c : Int)
          tput 0 sums key (BitVec.ofNat 16 v.toNat)
        else sums) sums) sums) sums

/-- The declared magnitude exponent in force (R281). -/
def magOf (d : BitVec 512) (fmt : Nat) : Nat :=
  if sdMag d = 0 || fmtWidth fmt - 1 < sdMag d then fmtWidth fmt - 1 else sdMag d

/-- Some element exceeds its declared magnitude (R282). -/
def exceeds (mag : Nat) (l : List (List Int)) : Bool := l.any (fun r => r.any (fun x => 2 ^ mag < x.natAbs))

/-- The one-time value of ctl.rinj added to a plane sum (R412): n values of k in the step; armed: the register has not been
written since the operation issued with it armed. -/
def injectInto (rinj rns : Word) (armed : Bool) (t : TileOp) (n : Nat) (sums : Table (BitVec 16)) : Option (Table (BitVec 16)) :=
  let lay := getBits rinj 1 4
  let i := getBits rinj 5 7
  let j := getBits rinj 12 8
  let p := groupSpan t.mask lay n
  match (if t.mask.getLsbD lay then channelOf rns t.deg lay else none) with
  | none => none
  | some c =>
    if armed && rinj.getLsbD 0 && i < t.rows && j < t.cols && p.1 < p.2 then
      let key := cellKey t.ox t.oy lay i j
      some (tput 0 sums key (BitVec.ofNat 16 (((tget 0 sums key).toNat + getBits rinj 20 9) % modulus c)))
    else none

/-! ### The regulator's tests on a step (R395 to R397) -/

/-- Reverse the four bits of a number (R395). -/
def bitRev4 (n : Nat) : Nat := 8 * (n % 2) + 4 * (n / 2 % 2) + 2 * (n / 4 % 2) + n / 8 % 2

/-- The cost of a step (R397). -/
def TileOp.cost (t : TileOp) : Nat :=
  lactOf t.mask * (match t.kind with
    | .mmz => 2
    | .mmi => 5
    | .xdot _ => 5
    | _ => if t.fmt.toNat ≤ 1 then 4 else if t.fmt.toNat ≤ 5 then 6 else 8)

/-- The duty cycle withholds the step of this cycle (R395). -/
def Core.dutyWithheld (k : Core) : Bool := bitRev4 (k.cyc.toNat % 16) < getBits k.thr 0 4

/-- The balance is short (R396). -/
def Core.shortOf (k : Core) (cost : Nat) : Bool := k.balance < 16 * cost

/-- The frame limit is reached (R396). -/
def Core.slewOf (k : Core) (cost : Nat) : Bool := Nat.max 128 (k.framePrev + k.slew) < k.frameCost + cost

/-- Set reason bits of ctl.thr (R398). -/
def Core.reason (k : Core) (m : Word) : Core := { k with thr := k.thr ||| m, thrFresh := k.thrFresh ||| m }

/-- The reasons for a withheld step (R398): CAP and REL, by the floors that the last evaluation applied, where the duty cycle
withholds it and the thermal step alone would not; else CURR and SLEW. -/
def Core.withhold (k : Core) (cost : Nat) : Core :=
  let fl := k.floors.1
  let rf := k.floors.2
  if k.dutyWithheld then
    if bitRev4 (k.cyc.toNat % 16) < k.thermalStep then k
    else k.reason ((if rf ≤ fl then 0x80 else 0) ||| (if fl ≤ rf then 0x100 else 0))
  else k.reason ((if k.shortOf cost then 0x20 else 0) ||| (if k.slewOf cost then 0x40 else 0))

/-- Charge a step (R396). -/
def Core.charge (k : Core) (cost : Nat) : Core :=
  { k with balance := k.balance - 16 * cost, frameCost := k.frameCost + cost }

end Sys2Proof.Machine
end

