-- ==== Sys2Proof/Machine/Cube.lean ====
section
/-! DEFINITION. The M-slot instructions that issue tile operations and manage the cube: MMA, MMZ, MHOLD, MORG,
MGANG, MSTAT, MMI, XDOT, and the feed (R246 to R273, R276, R277, R281, R291, R296). -/

namespace Sys2Proof.Machine

/-! ### The operation that an instruction asks for -/

/-- A tile operation with streams, as its word names it. -/
structure TileReq where
  kind : TileKind
  acc : BitVec 3
  a : BitVec 4
  b : BitVec 4
  sg : BitVec 6
  fmt : BitVec 5
  g : Bool
  adv : Bool
  z : Bool
  hold : Bool
  instr : Instr
deriving DecidableEq, Repr

/-- ctl.tval of a failed operand check (R261). -/
def checkRecord (code : Nat) (i : Instr) : Word := ((encode i).getD 0) ++ BitVec.ofNat 32 (5 + 256 * code)

/-- Raise a failed operand check (R260, R261). -/
def State.failCheck (s : State) (code : Nat) (i : Instr) : State := s.raise { cause := 0x01, tval := checkRecord code i }

/-- A register of the group of an MT form (R29, R263). -/
def State.groupReg (s : State) (sg : BitVec 6) (n : BitVec 6) : Nat := (s.cur.rs (sg + n)).toNat

/-- The part of length n, in halves of size h, that falls to half r (R254). -/
def partOf (n h r : Nat) : Nat := Nat.min h (n - h * r)

/-- Rows of rank r in a configuration (R254). -/
def gangRows (cfg : BitVec 2) (r m : Nat) : Nat :=
  match cfg.toNat with
  | 1 => partOf m 128 r
  | 3 => partOf m 128 (r / 2)
  | _ => m

/-- Columns of rank r in a configuration (R254). -/
def gangCols (cfg : BitVec 2) (r n : Nat) : Nat :=
  match cfg.toNat with
  | 2 => partOf n 192 r
  | 3 => partOf n 192 (r % 2)
  | _ => n

/-- The rank that reads the A rows of rank r (R255). -/
def gangARank (cfg : BitVec 2) (r : Nat) : Nat :=
  match cfg.toNat with
  | 1 => r
  | 3 => 2 * (r / 2)
  | _ => 0

/-- The rank that reads the B columns of rank r (R255). -/
def gangBRank (cfg : BitVec 2) (r : Nat) : Nat :=
  match cfg.toNat with
  | 2 => r
  | 3 => r % 2
  | _ => 0

/-- The steps of k values taken q at a time (R242). -/
def stepsOf (k q : Nat) : Nat := if q = 0 then 0 else (k + q - 1) / q

/-- The operation that an instruction would put into the feed (R249, R254, R263, R265, R268, R269). -/
def State.tileOf (s : State) (r : TileReq) : TileOp :=
  let x := s.curCtx
  let c := s.issue.core
  let cfg := if r.g then x.gang else 0
  let ms := x.gangMembers c cfg
  let rank := rankIn ms c
  let m := s.groupReg r.sg 0
  let n := s.groupReg r.sg 1
  let k := s.groupReg r.sg 2
  let mask := (s.cur.rs (r.sg + 3)).setWidth 16
  let held := r.kind = .mmi && !r.z && x.plane.held
  { id := s.nextId, sec := s.issue.sec, kind := r.kind, acc := r.acc
    astr := x.rstr r.a, bstr := x.rstr r.b, anum := r.a, bnum := r.b
    aCore := ms.getD (gangARank cfg rank) c, bCore := ms.getD (gangBRank cfg rank) c
    rows := if r.kind = .mmz then 1 else gangRows cfg rank m
    cols := gangCols cfg rank n, k := k, mask := mask, fmt := r.fmt, z := r.z, g := r.g, cfg := cfg
    gn := x.gangCount, hold := r.hold, deg := r.kind.plane && maskDeg x.rns mask, mode := x.rns.getLsbD 0
    ox := if held then x.plane.ox else if r.hold then (x.slab.map (·.ox)).getD 0 else s.curCore.ox
    oy := if held then x.plane.oy else if r.hold then (x.slab.map (·.oy)).getD 0 else s.curCore.oy
    steps := if r.kind = .mmz then m else stepsOf k (tileQ r.kind r.fmt.toNat mask)
    done := 0, stage := .feed, ready := s.now + 2, events := 0, poison := none, inj := if s.curCore.rinj.getLsbD 0 then some (c, s.curCore.rinjSet) else none, shadow := none
    bnd := shadowBound x.shbound, waits := none }

/-! ### Operand checks (R260 to R264, R268, R269, R290, R291, R296) -/

/-- A stream register passes for a format, a group, K values and n rows or columns (R264). -/
def streamOk (d : BitVec 512) (fmt : Nat) (north : Bool) (k n : Nat) : Bool :=
  sdFmt d = fmt && (sdDims d = 2 || sdDims d = 3) && k ≤ sdExt0 d && n ≤ sdExt1 d &&
    (sdDims d ≠ 3 || sdCur1 d < sdExt2 d) && sdNorth d == north &&
    (fmtWidth fmt ≠ 16 || (sdBase d % 2 = 0 && sdStr0 d % 2 = 0 && sdStr1 d % 2 = 0 && sdStr2 d % 2 = 0)) &&
    (fmt ≠ 6 || sdStr0 d = 1)

/-- A layer mask register passes (R263, R291). -/
def State.maskOk (s : State) (kind : TileKind) (v : Word) : Bool :=
  let x := s.curCtx
  v ≠ 0 && v >>> 16 = 0 && v &&& ~~~(s.curCore.layers.setWidth 64) = 0 &&
    (!kind.plane || v = gmask x.rns 0 || v = gmask x.rns 1 || v = gmask x.rns 0 ||| gmask x.rns 1)

/-- The slab passes for a hold-mode operation (R269). -/
def slabOk (b : Option Slab) (t : TileOp) (n : Nat) : Bool :=
  match b with
  | none => false
  | some b => b.fmt = t.fmt && b.n = n && b.mask = t.mask && b.g == t.g && (!t.g || b.cfg = t.cfg)

/-- The code of the first operand check that fails (R260). -/
def State.tileCheck (s : State) (r : TileReq) (t : TileOp) : Option Nat :=
  let x := s.curCtx
  let c := s.issue.core
  let m := s.groupReg r.sg 0
  let n := s.groupReg r.sg 1
  let q := tileQ r.kind r.fmt.toNat t.mask
  let mMax := if r.kind = .mmz then 8 else if t.cfg = 1 || t.cfg = 3 then 256 else 128
  let nMax := if t.cfg = 2 || t.cfg = 3 then 384 else 192
  let kMax := match r.kind with | .xdot _ => 2 ^ 20 | _ => 2 ^ 24
  let fm := tileFmts r.kind r.fmt.toNat
  let pl := x.plane
  if m = 0 || mMax < m then some 1
  else if n = 0 || nMax < n then some 2
  else if kMax < t.k then some 3
  else if !s.maskOk r.kind (s.cur.rs (r.sg + 3)) then some 4
  else if t.readsA c && !streamOk t.astr fm.1 false t.k t.rows then some 5
  else if t.readsB c && !streamOk t.bstr fm.2 true t.k t.cols then some 6
  else if r.hold && !slabOk x.slab t n then some 7
  else if r.kind = .mmz && m * q < t.k then some 3
  else if r.hold && (x.slab.map (·.k)).getD 0 < t.k then some 3
  else if r.kind.plane && pl.held &&
      (r.kind ≠ .mmi || (!r.z && (pl.rows ≠ t.rows || pl.cols ≠ t.cols || pl.mask ≠ t.mask))) then some 10
  else none

/-- The declared magnitudes of the A and B registers that an operation names (R281). -/
def TileReq.mags (r : TileReq) (t : TileOp) : Nat × Nat :=
  let fm := tileFmts r.kind r.fmt.toNat
  (magOf t.astr fm.1, magOf t.bstr fm.2)

/-- The running bound after an operation whose operands have these declared magnitudes (R281). -/
def State.boundWith (s : State) (r : TileReq) (t : TileOp) (mags : Nat × Nat) : Nat :=
  (if r.kind = .mmi && !r.z then s.curCtx.plane.bound else 0) + t.k * 2 ^ (mags.1 + mags.2)

/-- The running bound after an operation that reads the core's own registers (R281). -/
def State.newBound (s : State) (r : TileReq) (t : TileOp) : Nat := s.boundWith r t (r.mags t)

/-- A bound reaches its limit (R281). -/
def overBound (deg : Bool) (b : Nat) : Bool := if deg then modInfo ≤ 2 * b else 2 ^ 52 ≤ b

/-- The values exchanged at a gang rendezvous (R273). -/
def State.gangVals (s : State) (r : TileReq) (t : TileOp) : List Nat :=
  [match r.kind with | .mma => 1 | .mmz => 2 | .mmi => 8 | _ => 12, t.cfg.toNat, s.groupReg r.sg 0, s.groupReg r.sg 1,
    t.k, t.mask.toNat, t.fmt.toNat, if r.z then 1 else 0, if r.hold then 1 else 0]

/-! ### Freezes at issue (R160, R187, R248, R266, R288, R363) -/

/-- The cycle in which the last step now in the feed enters it, the present one if there is none (R248). -/
def Ctx.feedEnd (x : Ctx) (now : Nat) : Nat :=
  x.feed.foldl (fun e t => if t.done < t.steps then Nat.max (e + 1) t.ready + (t.steps - t.done) - 1 else e) now

/-- A landing is an ACCWR to an accumulator. -/
def Landing.toAcc (l : Landing) (n : BitVec 3) : Bool :=
  match l.dest with
  | .accBlock m _ _ => m == n
  | _ => false

/-- An ACCWR that the issuing stream issued before this bundle to an accumulator has not landed (R160, R407). -/
def State.ownAccwr (s : State) (n : BitVec 3) : Bool :=
  s.cur.inflight.any (fun l => l.toAcc n && l.due < s.cur.sc + 6) || s.cur.latches.any (fun l => l.toAcc n)

/-- An ACCWR of the other stream to an accumulator has not landed (R160, R407). -/
def State.otherAccwr (s : State) (n : BitVec 3) : Bool :=
  let y := s.stream s.issue.core (!s.issue.sec)
  y.inflight.any (fun l => l.toAcc n) || y.latches.any (fun l => l.toAcc n)

/-- A drain issued before this bundle reads the accumulator and has not completed (R266). -/
def State.drainReads (s : State) (n : BitVec 3) : Bool :=
  s.curCtx.tiles.any (fun t => t.acc == n && t.id < s.issue.base &&
    (match t.kind with | .mdrn .. => true | .xfin .. => true | _ => false))

/-- A drain of the plane set issued before this bundle has not completed (R288). -/
def State.planeDraining (s : State) : Bool :=
  s.curCtx.tiles.any (fun t => t.id < s.issue.base &&
    (match t.kind with | .rnsx .. => true | .rnschk => true | .xdot _ => true | _ => false))

/-- Hold for the cube: for an ACCWR of the stream's own (accwr), or as backpressure (R160, R248). -/
def State.holdCube (s : State) (accwr : Bool) : State := s.holdFor (if accwr then .accwr else .cube)

/-- A drain of the plane set into the accumulator, issued before this bundle, has not completed: a later operation adds
only after it (R246; assumption 69). -/
def State.planeDrains (s : State) (n : BitVec 3) : Bool :=
  s.curCtx.tiles.any (fun t => t.acc == n && t.id < s.issue.base && (match t.kind with | .rnsx .. => true | _ => false))

/-- The freeze that a tile operation or a drain on an accumulator meets: none, or whether it awaits an ACCWR of
its own stream. -/
def State.cubeFreeze (s : State) (acc : BitVec 3) (feeds : Bool) : Option Bool :=
  if s.ownAccwr acc then some true
  else if s.otherAccwr acc || (feeds && (s.drainReads acc || s.planeDrains acc)) || (feeds && s.now + 1 < s.curCtx.feedEnd s.now) ||
    s.curCore.cubeDrain || 8 ≤ s.cur.tl then some false
  else none

/-- The place that the L slot of the same bundle needs two cycles on, while step 0 of an operation about to enter takes its
sub-bank then (R118, R120). -/
def State.lateClash (s : State) (t : TileOp) : Option SlicePlace :=
  match { s.curCtx with tiles := s.curCtx.tiles ++ [t] : Ctx }.feedAt s.now 2 with
  | some (u, j) =>
    if u.id = t.id then
      (s.issue.late.map (fun p => ({ bank := p.1, row := p.2 } : SlicePlace))).find? (fun p =>
        (t.stepPlaces s.issue.core j).any p.sameSub)
    else none
  | none => none

/-! ### Issue -/

/-- Advance CUR1 of a stream register, unless an STSET of its word 6 landed in this cycle (R156, R265). -/
def Ctx.advStream (x : Ctx) (n : BitVec 4) : Ctx :=
  if x.strFresh.getLsbD n.toNat then x
  else
    let w := x.strWord n 6
    x.wstr n 6 (putBits w 32 32 (BitVec.ofNat 64 (getBits w 32 32 + 1)))

/-- Advance the stream registers that a tile operation reads, each once (R265). -/
def Ctx.advTile (x : Ctx) (c : CoreId) (t : TileOp) : Ctx :=
  let y := if t.readsA c then x.advStream t.anum else x
  if t.readsB c && !(t.readsA c && t.anum = t.bnum) then y.advStream t.bnum else y

/-- The plane set from the issue of an operation on (R281, R282, R288). -/
def PlaneSet.issued (p : PlaneSet) (t : TileOp) (z : Bool) (bound : Nat) : PlaneSet :=
  { p with held := true, bound := bound, magx := p.magx && !z, rows := t.rows, cols := t.cols, mask := t.mask
           deg := t.deg, ox := t.ox, oy := t.oy }

/-- The effects of a tile operation at its issue (R265, R268, R288). -/
def State.enterTile (s : State) (r : TileReq) (t : TileOp) (bound : Nat) : State :=
  let c := s.issue.core
  let n := s.groupReg r.sg 1
  let h := s.groupReg r.sg 0
  let s1 := s.updCurCtx (fun x =>
    let y := if r.adv then x.advTile c t else x
    { y with
      tiles := y.tiles ++ [t]
      gangCount := y.gangCount + (if r.g then 1 else 0)
      gangMet := if t.cfg = 0 then y.gangMet else none
      plane := if r.kind.plane then y.plane.issued t (r.z || r.kind ≠ .mmi) bound else y.plane
      slab := if r.kind = .mmz then
          some { h := h, n := n, k := h * tileQ r.kind r.fmt.toNat t.mask, mask := t.mask, fmt := t.fmt, g := t.g
                 cfg := t.cfg, ox := t.ox, oy := t.oy }
        else y.slab })
  { s1.updCur (fun y => { y with tl := y.tl + 1 }) with nextId := s1.nextId + 1 }

/-- The trap of a bound at its limit (R281). -/
def boundTrap (b : Nat) : TrapReq := { cause := 0x09, tval := BitVec.ofNat 64 (Nat.min b (2 ^ 63 - 1)) }

/-- What follows the operand checks and the rendezvous: the bound, the bank rules, the freezes, the L slot of the same bundle
and the effect (R120, R260, R265, R281). In interlocked mode an L slot of the same bundle that meets step 0 in its second cycle
holds the bundle, and holds it again in every cycle: R120 gives it no outcome that ends, so that is the model's choice
(assumption 36). -/
def State.placeTile (s : State) (r : TileReq) (t : TileOp) (mags : Nat × Nat) : State :=
  let b := s.boundWith r t mags
  if r.kind.plane && overBound t.deg b then s.raise (boundTrap b)
  else
    match t.conflict s.issue.core with
    | some rec => s.raise { cause := 0x03, tval := rec }
    | none =>
      match s.cubeFreeze t.acc true with
      | some accwr => s.holdCube accwr
      | none =>
        match s.lateClash t with
        | some p => if s.cur.inter then s.holdFor .bank else s.raise { cause := 0x03, tval := bankRecord p 4 }
        | none => s.enterTile r t b

/-- The rendezvous that the issuing stream's operation has had (R273). -/
def State.meetingOf (s : State) : Option GangMet := s.curCtx.gangMet.filter (fun q => q.sec == s.issue.sec)

/-- A rendezvous is used up by the trap that it gives. -/
def State.dropMeeting (s : State) : State :=
  { s.updCurCtx (fun x => { x with gangMet := none }) with issue := { s.issue with unmet := true } }

/-- The cycle since which the issuing stream waits for its partners. -/
def Stream.gangSince (x : Stream) (now : Nat) : Nat :=
  match x.hold with
  | .gang _ _ t => t
  | _ => now

/-- Issue a tile operation with streams: checks, rendezvous, bank rules, freezes, effect (R260, R265, R273, R281). An
operation that comes to a rendezvous already held with other values fails it. -/
def State.issueTile (s : State) (r : TileReq) : State :=
  let t := s.tileOf r
  if r.kind.plane && s.planeDraining then s.holdFor .cube
  else
    match s.tileCheck r t with
    | some code => s.failCheck code r.instr
    | none =>
      if t.cfg = 0 then s.placeTile r t (r.mags t)
      else
        match s.meetingOf with
        | none => s.holdFor (.gang (s.gangVals r t) (r.mags t) (s.cur.gangSince s.now))
        | some q =>
          if q.verdict = 1 || q.vals ≠ s.gangVals r t then s.dropMeeting.failCheck 8 r.instr
          else if q.verdict = 2 then s.dropMeeting.raise (boundTrap (s.boundWith r t q.mags))
          else s.placeTile r t q.mags

/-- MMA (R262 to R265). -/
def execMma (acc : BitVec 2) (a b : BitVec 4) (sg : BitVec 6) (f : BitVec 5) (g adv z : Bool) (s : State) : Answer :=
  .next (s.issueTile { kind := .mma, acc := acc.setWidth 3, a := a, b := b, sg := sg, fmt := f, g := g, adv := adv, z := z
                       hold := false, instr := .mma acc a b sg f g adv z })

/-- MMA in hold mode (R269). -/
def execMmaHold (acc : BitVec 2) (a : BitVec 4) (sg : BitVec 6) (f : BitVec 5) (g adv z : Bool) (s : State) : Answer :=
  .next (s.issueTile { kind := .mma, acc := acc.setWidth 3, a := a, b := 0, sg := sg, fmt := f, g := g, adv := adv, z := z
                       hold := true, instr := .mmaHold acc a sg f g adv z })

/-- MMZ (R250, R268). -/
def execMmz (b : BitVec 4) (sg : BitVec 6) (f : BitVec 5) (g adv : Bool) (s : State) : Answer :=
  .next (s.issueTile { kind := .mmz, acc := 5, a := 0, b := b, sg := sg, fmt := f, g := g, adv := adv, z := false
                       hold := false, instr := .mmz b sg f g adv })

/-- MMI (R281, R291). -/
def execMmi (a b : BitVec 4) (sg : BitVec 6) (f : BitVec 5) (g adv z : Bool) (s : State) : Answer :=
  .next (s.issueTile { kind := .mmi, acc := 5, a := a, b := b, sg := sg, fmt := f, g := g, adv := adv, z := z
                       hold := false, instr := .mmi a b sg f g adv z })

/-- XDOT (R296): its shift is 14 (p + q). -/
def execXdot (a b : BitVec 4) (sg : BitVec 6) (f : BitVec 5) (g adv z : Bool) (s : State) : Answer :=
  .next (s.issueTile { kind := .xdot (14 * (f.toNat % 4 + f.toNat / 4)), acc := 4, a := a, b := b, sg := sg, fmt := f
                       g := g, adv := adv, z := z, hold := false, instr := .xdot a b sg f g adv z })

/-- The values and the declared magnitudes with which a stream waits at a rendezvous, and since when. -/
def Stream.gangWaits (x : Stream) : Option (List Nat × (Nat × Nat) × Nat) :=
  match x.hold with
  | .gang v m t => some (v, m, t)
  | _ => none

/-- The stream of a core whose operation is its next G-flagged one to issue: the one that waits longest, the primary of two
(R273). None while an earlier one has met its partners and not issued. -/
def State.gangFront (s : State) (c : CoreId) : Option Bool :=
  if !(s.core c).live || (s.ctx c).gangMet.isSome then none
  else
    match (s.stream c false).gangWaits, (s.stream c true).gangWaits with
    | some p, some q => some (q.2.2 < p.2.2)
    | some _, none => some false
    | none, some _ => some true
    | none, none => none

/-- The values with which a stream waits. -/
def State.gangValsAt (s : State) (m : CoreId × Bool) : List Nat := (((s.stream m.1 m.2).gangWaits).map (·.1)).getD []

/-- The members whose streams wait with a stream for their rendezvous: each member with its stream; none while some
partner has not arrived (R273). -/
def State.gangMeeting (s : State) (c : CoreId) (sec : Bool) : Option (List (CoreId × Bool)) :=
  let x := s.ctx c
  let cfg : BitVec 2 := BitVec.ofNat 2 ((s.gangValsAt (c, sec)).getD 1 0)
  if s.gangFront c = some sec then
    (x.gangMembers c cfg).mapM (fun m =>
      if m = c then some (c, sec)
      else if (s.ctx m).gangCount = x.gangCount && (s.ctx m).task = x.task then (s.gangFront m).map (fun b => (m, b)) else none)
  else none

/-- The declared magnitudes of the registers that a member's operation reads: those of the members whose slices hold its
operands (R255, R281). -/
def State.gangMags (s : State) (ms : List (CoreId × Bool)) (m : CoreId × Bool) : Nat × Nat :=
  let cfg : BitVec 2 := BitVec.ofNat 2 ((s.gangValsAt m).getD 1 0)
  let rank := ms.findIdx (· = m)
  let mags := fun (r : Nat) => (((ms[r]?).bind (fun q => (s.stream q.1 q.2).gangWaits)).map (·.2.1)).getD (0, 0)
  ((mags (gangARank cfg rank)).1, (mags (gangBRank cfg rank)).2)

/-- The bound of a member's plane set fails with the operation that it waits to issue (R281, R291). -/
def State.gangOver (s : State) (ms : List (CoreId × Bool)) (m : CoreId × Bool) : Bool :=
  let v := s.gangValsAt m
  let x := s.ctx m.1
  let mags := s.gangMags ms m
  let major := v.getD 0 0
  (major = 8 || major = 12) && overBound (maskDeg x.rns (BitVec.ofNat 16 (v.getD 5 0)))
    ((if major = 8 && v.getD 7 0 = 0 then x.plane.bound else 0) + v.getD 4 0 * 2 ^ (mags.1 + mags.2))

/-- GANG_RENDEZVOUS (R273, R291): every partner's matching operation has arrived, and every member gets the same verdict. -/
def execGangRendezvous (c : CoreId) (sec : Bool) (s : State) : Answer :=
  match s.gangMeeting c sec with
  | none => .next s
  | some ms =>
    let same := ms.all (fun m => s.gangValsAt m = s.gangValsAt (c, sec))
    let verdict := if !same then 1 else if ms.any (s.gangOver ms) then 2 else 0
    .next (ms.foldl (fun t m => t.updCtx m.1 (fun x =>
      { x with gangMet := some { sec := m.2, n := x.gangCount, vals := s.gangValsAt m, verdict := verdict, mags := s.gangMags ms m } })) s)

/-- The verdict of a member's rendezvous (R273). -/
def State.gangVerdict (s : State) (m : CoreId × Bool) : Option Nat :=
  ((s.ctx m.1).gangMet.filter (fun q => q.sec == m.2)).map (·.verdict)

/-! ### The feed (R246, R247, R265) -/

/-- Set the accumulator elements of a tile to −0 (R265, R292). -/
def Ctx.zeroTile (x : Ctx) (n rows cols : Nat) : Ctx :=
  { x with
    acc := foldUp rows (fun t i => foldUp cols (fun t j => tput 0 t (accKey n i j) (0x80000000#32)) t) x.acc
    accBad := x.accBad.filter (fun e =>
      !(24576 * n ≤ e && e < 24576 * n + 24576 && (e - 24576 * n) / 192 < rows && (e - 24576 * n) % 192 < cols)) }

/-- What happens before step 0 (R265, R282, R291). -/
def Ctx.beforeSteps (x : Ctx) (t : TileOp) : Ctx :=
  match t.kind with
  | .mma => if t.z then x.zeroTile t.acc.toNat t.rows t.cols else x
  | .mmz => { x with slabVals := [] }
  | .mmi => if t.z then { x with plane := { x.plane with sums := [], magx := false } } else x
  | .xdot _ => { x with plane := { x.plane with sums := [], magx := false } }
  | _ => x

/-- The steps entered so far, as CUR0 shows them (R265), unless an STSET of word 6 landed in this cycle (R156). -/
def Ctx.setCur0 (x : Ctx) (n : BitVec 4) (v : Nat) : Ctx :=
  if x.strFresh.getLsbD n.toNat then x else x.wstr n 6 (putBits (x.strWord n 6) 0 32 (BitVec.ofNat 64 v))

/-- Record the outcome of a step: its events, and the first poisoned word with PSN (R267, R277). -/
def TileOp.stepped (t : TileOp) (ev : BitVec 8) (bad : Option Nat) : TileOp :=
  { t with done := t.done + 1, events := t.events ||| ev ||| (if bad.isSome then 0x10 else 0)
           poison := t.poison.orElse (fun _ => bad.map (fun a => BitVec.ofNat 64 a)) }

/-- Cycles from the last step's entry, or from the issue plus 2 of an operation without steps, to the event that
follows (R249, R250, R257, R292): of RNSX and RNSCHK the classification, one cycle a row before the end. -/
def TileOp.settleTime (t : TileOp) : Nat :=
  let g := if t.cfg = 0 then 0 else 4
  let total := match t.kind with
    | .mma => t.rows + t.cols + lactOf t.mask + 8 + g
    | .mmz => 136
    | .rnsx .. => t.cols + 48
    | .rnschk => t.cols + 48
    | _ => t.rows + t.cols + 8 + g
  if t.steps = 0 then total - 2 else total - 1

/-- The event that follows the last step. -/
def TileOp.settleEvent (t : TileOp) (c : CoreId) : Instr :=
  match t.kind with
  | .xdot _ => .xdotDrainStart c t.id
  | _ => .tileOperationComplete c t.id

/-- Replace a tile operation of a context. -/
def Ctx.updTile (x : Ctx) (id : Nat) (f : TileOp → TileOp) : Ctx :=
  { x with tiles := x.tiles.map (fun t => if t.id = id then f t else t) }

/-- Leave the feed once every step has entered. -/
def State.settleIfDone (s : State) (c : CoreId) (id : Nat) : State :=
  match (s.ctx c).tiles.find? (fun t => t.id = id) with
  | none => s
  | some t =>
    if t.done < t.steps then s
    else (s.updCtx c (fun x => x.updTile id (fun t => { t with stage := .settle }))).afterN t.settleTime (t.settleEvent c)

/-- The integers of operands; a poisoned one is a free value, one for each place of the operands (assumption 4). -/
def State.intOperands (s : State) (base fmt : Nat) (l : List (List Operand)) : List (List Int) :=
  l.zipIdx.map (fun r => r.1.zipIdx.map (fun o =>
    if o.1.bad.isSome then
      toSigned (fmtWidth fmt) ((Config.freeWord (s.free + base + 4096 * r.2 + o.2)).toNat % 2 ^ fmtWidth fmt)
    else o.1.int fmt))

/-- One step of the operation at the head of a core's feed (R243, R250, R257, R265, R282, R412). A core to which no rows or no
columns fall does no work in it (R254). -/
def State.performStep (s : State) (c : CoreId) (t : TileOp) : State :=
  let j := t.done
  let s0 := if j = 0 then s.updCtx c (fun x => x.beforeSteps t) else s
  let s1 := s0.noteReads ((t.stepBytes c j).map (fun o => sliceIa c o.1))
  let x := s1.ctx c
  let fm := tileFmts t.kind t.fmt.toNat
  let kr := t.kRange j
  let av := t.aOperands s1 j
  let bv := t.bOperands s1 x j
  let bad := (s1.firstPoison (t.readOrder j)).map unitOf
  let cur := fun (x : Ctx) =>
    let y := if t.readsA c then x.setCur0 t.anum kr.2 else x
    if t.readsB c then y.setCur0 t.bnum kr.2 else y
  if t.rows = 0 || t.cols = 0 then s0.updCtx c (fun x => x.updTile t.id (fun t => t.stepped 0 none))
  else match t.kind with
  | .mma =>
    let fa := av.map (fun l => l.map (fun o => o.value fm.1))
    let fb := bv.map (fun l => l.map (fun o => o.value fm.2))
    let r := cubeStep (tileW t.fmt.toNat) t.acc.toNat x.acc fa fb
    let sh := stepShadow c (s1.core c).catalogue t fa fb
    s1.updCtx c (fun x => (cur { x with acc := r.1 }).updTile t.id (fun t =>
      { t.stepped r.2 bad with shadow := t.shadow.orElse (fun _ => sh) }))
  | .mmz =>
    let vals := foldUp t.cols (fun v i => foldUp (kr.2 - kr.1) (fun v k =>
      tput 0 v (192 * (kr.1 + k) + i) (((bv.getD i []).getD k { bits := 0, scale := 0, bad := none }).latch)) v) x.slabVals
    s1.updCtx c (fun x => (cur { x with slabVals := vals }).updTile t.id (fun t => t.stepped 0 bad))
  | _ =>
    let ai := s1.intOperands 0 fm.1 av
    let bi := s1.intOperands (2 ^ 20) fm.2 bv
    let sums := planeStep x.rns t.deg t.mask t.ox t.oy x.plane.sums ai bi
    let inj := injectInto (s1.core c).rinj x.rns (t.inj = some (c, (s1.core c).rinjSet)) t (kr.2 - kr.1) sums
    let mx := exceeds (magOf t.astr fm.1) ai || exceeds (magOf t.bstr fm.2) bi
    let s2 := s1.updCtx c (fun x =>
      (cur { x with plane := { x.plane with sums := inj.getD sums, magx := x.plane.magx || mx }
                    rnsstat := setBitIf x.rnsstat 31 mx }).updTile t.id (fun t => t.stepped 0 bad))
    let s3 := if inj.isSome then s2.updCore c (fun k => { k with rinj := k.rinj &&& ~~~1 }) else s2
    if bad.isSome then { s3 with free := s3.free + 2 ^ 21 } else s3

/-- The operation at the head of a core's feed. -/
def State.feedHead (s : State) (c : CoreId) : Option TileOp :=
  if (s.core c).live && !(s.core c).cubeDrain && !(s.core c).sliceBusy && (s.core c).swapEnd ≤ s.now then (s.ctx c).feed.head?
  else none

/-- An aged remote request takes a sub-bank that the step needs (R121, R247). -/
def State.agedConflict (s : State) (c : CoreId) (t : TileOp) : Bool :=
  (t.stepPlaces c t.done).any (fun p => (s.core c).remote.any (fun r => r.bank = p.index && r.arrived + 9 ≤ s.now))

/-- Why the step of a core cannot enter in this cycle: held for a secondary bundle, aged remote request, the duty
cycle, the balance or the frame (R247). -/
def State.stepBlocked (s : State) (c : CoreId) (t : TileOp) : Bool :=
  let k := s.core c
  (k.primHeld && !t.sec) || s.agedConflict c t || k.dutyWithheld || k.shortOf t.cost || k.slewOf t.cost

/-- The heads of the members of an operation's gang that are ready to take the same step (R255). -/
def State.lockstep (s : State) (c : CoreId) (t : TileOp) : Option (List (CoreId × TileOp)) :=
  ((s.ctx c).gangMembers c t.cfg).mapM (fun m =>
    match s.feedHead m with
    | some u => if u.cfg = t.cfg && u.gn = t.gn && u.done = t.done && u.ready ≤ s.now && !(s.core m).fed then some (m, u) else none
    | none => none)

/-- A pause cycle of a core's feed: the issuing stream freezes (R247). -/
def Core.pauseFeed (k : Core) (t : TileOp) : Core := { k with fed := true, pause := some t.sec }

/-- An operation names a layer that is no longer available (R377). -/
def State.layerLost (s : State) (c : CoreId) (t : TileOp) : Bool := t.mask &&& ~~~(s.core c).layers ≠ 0

/-- An operation leaves its counter (R187); one that a stream issued before it was started again is in none (R340). -/
def Stream.endTile (x : Stream) (id : Nat) : Stream := { x with tl := if x.opBase ≤ id then x.tl - 1 else x.tl }

/-- A resumed operation of a layer that is lost fails check code 4 (R261, R377). The word in its record is free
(assumption 4). -/
def State.failTile (s : State) (c : CoreId) (t : TileOp) : State :=
  (((s.updCtx c (fun x => { x with tiles := x.tiles.filter (fun u => u.id ≠ t.id) })).updStream c t.sec
    (fun y => y.endTile t.id)).drawFree).report c t.sec
    { cause := 0x01, tval := (s.freeVal &&& ~~~0xFFFFFFFF) ||| 0x405 }

/-- FEED_STEP (R247, R255, R395 to R397): the head of the feed takes its step, with its partners, or the cycle is a
pause cycle. An operation without steps leaves the feed at once. -/
def execFeedStep (c : CoreId) (s : State) : Answer :=
  match s.feedHead c with
  | none => .next s
  | some t =>
    if s.now < t.ready then .next s
    else if s.layerLost c t then .next (s.failTile c t)
    else if t.steps = 0 then
      .next ((s.updCtx c (fun x => x.beforeSteps t)).settleIfDone c t.id)
    else
      match (if t.cfg = 0 then some [(c, t)] else s.lockstep c t) with
      | none => .next (s.updCore c (fun k => k.pauseFeed t))
      | some ms =>
        if ms.any (fun m => s.stepBlocked m.1 m.2) then
          .next (ms.foldl (fun s m => s.updCore m.1 (fun k =>
            (if k.dutyWithheld || k.shortOf m.2.cost || k.slewOf m.2.cost then k.withhold m.2.cost else k).pauseFeed m.2)) s)
        else
          .next (ms.foldl (fun s m =>
            ((s.performStep m.1 (m.2.reading ms)).updCore m.1 (fun k =>
              { k.charge m.2.cost with
                fed := true, granted := k.granted ++ (m.2.stepPlaces m.1 m.2.done).map (fun p => p.index) })).settleIfDone
              m.1 m.2.id) s)

/-! ### The sub-banks of a slice (R118, R121) -/

/-- The feed takes a sub-bank in the present cycle (R118, R121). -/
def State.feedTakes (s : State) (c : CoreId) (bank : Nat) : Bool :=
  match s.feedHead c with
  | some t => !(s.core c).fed && t.ready ≤ s.now && (t.stepPlaces c t.done).any (fun p => p.index = bank)
  | none => false

/-- An aged request waits at a sub-bank (R121). -/
def State.agedWaits (s : State) (c : CoreId) (bank : Nat) : Bool :=
  (s.core c).remote.any (fun r => r.bank = bank && r.arrived + 9 ≤ s.now)

/-- The slice transfer takes a sub-bank in a cycle: one of those that its present KiB lies in (R121, R335). -/
def Core.xferTakes (k : Core) (now bank : Nat) : Bool :=
  match k.xfer with
  | some (p :: _) =>
    let b := p.lo + (now - k.xferAt)
    !k.xferHeld && k.xferAt ≤ now && b < p.hi && (List.range 32).any (fun j => (slicePlace (1024 * b + 32 * j)).index = bank)
  | _ => false

/-- A sub-bank of a core goes in this cycle to an access of the rank of the L slot, or has been granted (R121). -/
def State.bankHeld (s : State) (c : CoreId) (bank : Nat) : Bool :=
  (s.core c).granted.contains bank || (s.core c).booked.contains (s.now, bank) || s.feedTakes c bank

/-- A sub-bank of a core goes in this cycle to an access of higher rank than a remote request that has not aged: it has been
granted, or an L-slot access, the feed or the slice transfer takes it (R121). -/
def State.bankTaken (s : State) (c : CoreId) (bank : Nat) : Bool := s.bankHeld c bank || (s.core c).xferTakes s.now bank

/-- A sub-bank is granted in this cycle. -/
def Core.grant (k : Core) (bank : Nat) : Core := { k with granted := k.granted ++ [bank] }

/-- The sub-banks of the slices of this package that some addresses lie in, one for each row of a bank (R118). -/
def slicePlaces (as : List Nat) : List (CoreId × Nat) :=
  ((as.filterMap (fun a =>
    match regionOf a with
    | .slice k => if h : k < 8 then some ((⟨k, h⟩ : CoreId), slicePlace (a - sliceBase k)) else none
    | _ => none)).eraseDups).map (fun p => (p.1, p.2.index))

/-- The sub-banks that some accesses get in this cycle, each one access a cycle, none where an aged request waits: the state, and
those that are left; lslot: with the rank of the L slot, else with that of copies (R121). -/
def State.takeBanks (s : State) (lslot : Bool) (ws : List (CoreId × Nat)) : State × List (CoreId × Nat) :=
  ws.foldl (fun (q : State × List (CoreId × Nat)) w =>
    if (if lslot then q.1.bankHeld w.1 w.2 else q.1.bankTaken w.1 w.2) || q.1.agedWaits w.1 w.2 then (q.1, q.2 ++ [w])
    else (q.1.updCore w.1 (fun k => k.grant w.2), q.2)) (s, [])

/-! ### Completion (R249, R265, R267, R276, R277) -/

/-- The bank that holds a tile operation: the live context (false) or the shadow bank (true). -/
def Core.tileBank (k : Core) (id : Nat) : Option (Bool × TileOp) :=
  match k.ctx.tiles.find? (fun t => t.id = id) with
  | some t => some (false, t)
  | none => (k.shadow.tiles.find? (fun t => t.id = id)).map (fun t => (true, t))

/-- Cycles of an hour (R377). -/
def hourCycles : Nat := 5760000000000

/-- A report names a die of a core (R377): 0 a shadow report or 1 a located channel, at the sixteenth of its sort within an hour,
or 2 an uncorrectable channel, at once, has the firmware retire it; whether its replacement passes its march test is free
(assumption 4). -/
def State.nameDie (s : State) (c : CoreId) (die what : Nat) : State :=
  let recent := ((die, s.now, what) :: (s.core c).dieReports).filter (fun r => s.now < r.2.1 + hourCycles)
  let s1 := s.updCore c (fun k => { k with dieReports := recent })
  if (recent.filter (fun r => r.1 = die && r.2.2 = what)).length = (if what = 2 then 1 else 16) then
    (s1.after (.dieRetire c die (s.freeVal.getLsbD 0))).drawFree
  else s1

/-- An operation completes: tl falls, its events are recorded, it is counted, and poison and a divergence of its
shadow checks are reported (R265, R267, R276, R277, R369). -/
def State.finishTile (s : State) (c : CoreId) (sh : Bool) (t : TileOp) : State :=
  let s1 := s.updBank c sh (fun x =>
    { x.updStream t.sec (fun y => y.endTile t.id) with
      tiles := x.tiles.filter (fun u => u.id ≠ t.id)
      cubeEvents := x.cubeEvents ||| t.events
      cubeFresh := x.cubeFresh ||| t.events
      tlDone := x.tlDone + 1 })
  let s2 := match t.poison with
    | none => s1
    | some a => s1.reportBank c sh t.sec { cause := 0x11, tval := a }
  match t.shadow with
  | none => s2
  | some v => (s2.reportBank c sh t.sec { cause := 0x06, tval := v }).nameDie c (getBits v 19 5) 0

/-! ### MHOLD, MORG, MGANG, MSTAT -/

/-- MHOLD.rel (R270). -/
def execMholdRel (s : State) : Answer := .next (s.updCurCtx (fun x => { x with slab := none }))

/-- The slab's description as a word (R270). -/
def slabWord (b : Option Slab) : Word :=
  match b with
  | none => 0
  | some b => BitVec.ofNat 64 (b.h + 16 + 32 * b.n + 2 ^ 14 * b.fmt.toNat + (if b.g then 2 ^ 19 else 0) +
      2 ^ 20 * b.mask.toNat + 2 ^ 36 * b.ox + 2 ^ 43 * b.oy)

/-- MHOLD.chk (R270). -/
def execMholdChk (d : BitVec 6) (s : State) : Answer := s.putS 2 d (slabWord s.curCtx.slab)

/-- Advance the origin of a core (R253). -/
def Core.advOrigin (k : Core) : Core := { k with ox := (k.ox + 37) % 128, oy := (k.oy + 53) % 192 }

/-- MORG.adv (R271). -/
def execMorgAdv (s : State) : Answer := .next (s.updCurCore Core.advOrigin)

/-- MORG.rd (R271). -/
def execMorgRd (d : BitVec 6) (s : State) : Answer :=
  s.putS 2 d (BitVec.ofNat 64 (s.curCore.ox + 65536 * s.curCore.oy))

/-- MGANG (R272). -/
def execMgang (d : BitVec 6) (cfg : BitVec 2) (s : State) : Answer :=
  let x := s.curCtx
  if !x.gangAllowed cfg then .next (s.failCheck 8 (.mgang d cfg))
  else
    let ms := x.gangMembers s.issue.core cfg
    .next ((s.emit 2 (.scalar d (BitVec.ofNat 64 (rankIn ms s.issue.core + 4 * ms.length)))).updCurCtx (fun x => { x with gang := cfg }))

/-- The cube status word (R277). OUT counts every operation of the context that has not completed, also those that a halted
secondary left when it was started again, so it can pass 16: the model's choice (assumption 90). -/
def Ctx.cubeStatus (x : Ctx) : Word :=
  let busy := (List.range 4).foldl (fun b n => if x.tiles.any (fun t => t.acc.toNat = n) then b + 2 ^ n else b) 0
  BitVec.ofNat 64 (x.cubeEvents.toNat + 65536 * busy + (if x.slab.isSome then 2 ^ 20 else 0) + 2 ^ 24 * x.tiles.length)

/-- MSTAT (R276): an event recorded in the cycle of the clear stays set. -/
def execMstat (d : BitVec 6) (clr sel : Bool) (s : State) : Answer :=
  let x := s.curCtx
  let s1 := s.emit 2 (.scalar d (if sel then x.tlDone else x.cubeStatus))
  .next (if clr && !sel then s1.updCurCtx (fun x => { x with cubeEvents := x.cubeFresh }) else s1)

end Sys2Proof.Machine
end

