-- ==== Sys2Proof/Machine/Drain.lean ====
section
/-! DEFINITION. What leaves the cube: RNSX, RNSCHK, RNSDEG, the completion of tile operations, MDRN and XFIN (R274,
R275, R283 to R297, R407). -/

namespace Sys2Proof.Machine

/-! ### Issue of RNSX, RNSCHK and RNSDEG -/

/-- A drain of the plane set as it enters the feed. R248 has RNSX and RNSCHK enter the feed and gives no number of steps: they take
none, so they occupy no cycle of the feed, which is the model's choice (assumption 88). -/
def State.drainTile (s : State) (kind : TileKind) (acc : BitVec 3) (z : Bool) : TileOp :=
  let p := s.curCtx.plane
  { id := s.nextId, sec := s.issue.sec, kind := kind, acc := acc, astr := 0, bstr := 0, anum := 0, bnum := 0
    aCore := s.issue.core, bCore := s.issue.core, rows := p.rows, cols := p.cols, k := 0, mask := p.mask, fmt := 0
    z := z, g := false, cfg := 0, gn := 0, hold := false, deg := p.deg, mode := s.curCtx.rns.getLsbD 0, ox := p.ox
    oy := p.oy, steps := 0, done := 0, stage := .feed, ready := s.now + 2, events := 0, poison := none, inj := none, shadow := none
    bnd := 0, waits := none }

/-- Put an operation without streams into the context's list and count it in tl. -/
def State.addTile (s : State) (t : TileOp) : State :=
  { (s.updCurCtx (fun x => { x with tiles := x.tiles ++ [t] })).updCur (fun y => { y with tl := y.tl + 1 }) with
    nextId := s.nextId + 1 }

/-- Issue RNSX or RNSCHK (R160, R266, R282, R288, R290, R292, R293). -/
def State.issueDrain (s : State) (kind : TileKind) (acc : BitVec 3) (z checks : Bool) (i : Instr) : State :=
  if s.planeDraining then s.holdFor .cube
  else if !s.curCtx.plane.held then s.failCheck 10 i
  else if s.curCtx.plane.magx && !checks then s.raise { cause := 0x09, tval := BitVec.ofNat 64 (2 ^ 63) }
  else
    match s.cubeFreeze acc true with
    | some accwr => s.holdCube accwr
    | none => s.addTile (s.drainTile kind acc z)

/-- RNSX (R292). -/
def execRnsx (z : Bool) (sh : BitVec 7) (n : BitVec 3) (s : State) : Answer :=
  .next (s.issueDrain (.rnsx n sh.toNat) n z false (.rnsx z sh n))

/-- RNSCHK (R293). -/
def execRnschk (s : State) : Answer := .next (s.issueDrain .rnschk 5 false true .rnschk)

/-- The ctl.rns that RNSDEG writes (R279, R294). -/
def rnsAfter (rns : Word) (p : BitVec 4) (g : Bool) : Word :=
  putBits rns (if g then 5 else 1) 4 (if p = 8 then 0 else BitVec.ofNat 64 (1 + 2 * p.toNat))

/-- RNSDEG (R294): privileged. -/
def execRnsdeg (p : BitVec 4) (g : Bool) (s : State) : Answer :=
  if !s.cur.priv then .next (s.raise { cause := 0x02, tval := privilegeRecord 5 (.rnsdeg p g) })
  else if s.curCtx.tiles ≠ [] then .next (s.holdFor .cube)
  else .next (s.updCurCtx (fun x => { x with rns := rnsAfter x.rns p g, plane := PlaneSet.reset }))

/-! ### Classification (R283 to R286) -/

/-- The layer of a group that computes a channel (R278). -/
def layerOf (rns : Word) (deg : Bool) (g c : Nat) : Nat :=
  ((List.range 8).find? (fun p => channelOf rns deg (8 * g + p) = some c)).getD 0 + 8 * g

/-- Classify element (i, j) of a plane set (R283, R284). Of an element located in both groups the channel and layer of G0 are
recorded: the model's choice (assumption 89). -/
def classifyElem (rns : Word) (p : PlaneSet) (i j : Nat) : ElemVerdict :=
  let groups := (List.range 2).filter (fun g => (p.mask >>> (8 * g)) &&& 0xFF ≠ 0)
  groups.foldl (fun (e : ElemVerdict) g =>
    let res := fun c => (tget 0 p.sums (cellKey p.ox p.oy (layerOf rns p.deg g c) i j)).toNat
    match classify res p.bound p.deg with
    | .valid x _ => { e with x := e.x + x, o := !bandV (e.x + x) }
    | .located c x _ =>
      { e with x := e.x + x, o := !bandV (e.x + x)
               loc := e.loc.orElse (fun _ => some (c, layerOf rns p.deg g c)) }
    | .uncorrectable =>
      { e with unc := true
               bad := e.bad ++ ((List.range (if p.deg then 7 else 8)).filter (fun c => !canonicalRes c (res c))).map (layerOf rns p.deg g) })
    { i := i, j := j, x := 0, o := false, loc := none, unc := false, bad := [] }

/-- Every element of the core's part of the tile, in row-major order. -/
def classifyAll (rns : Word) (p : PlaneSet) : List ElemVerdict :=
  (List.range p.rows).flatMap (fun i => (List.range p.cols).map (fun j => classifyElem rns p i j))

/-- An element counts as band E (R292). -/
def ElemVerdict.bandE (e : ElemVerdict) : Bool := e.unc || e.loc.isSome

/-- Channel, layer and physical die of an element; zero for an uncorrectable one (R286). -/
def ElemVerdict.place (e : ElemVerdict) (cat : Vector (BitVec 5) 16) : Nat × Nat × Nat :=
  if e.unc then (0, 0, 0)
  else
    match e.loc with
    | none => (0, 0, 0)
    | some (c, l) => (c, l, (cat.toList.getD l 0).toNat)

/-- ctl.tval of causes 0x07 and 0x08 (R286). -/
def ElemVerdict.record (e : ElemVerdict) (cat : Vector (BitVec 5) 16) : Word :=
  let p := e.place cat
  BitVec.ofNat 64 (e.i + 2 ^ 8 * e.j + 2 ^ 16 * p.1 + 2 ^ 19 * p.2.1 + 2 ^ 23 * p.2.2 + (if e.unc then 2 ^ 28 else 0))

/-- The location record of ctl.rnsstat, bits 62:35 (R287). Of an uncorrectable element its channel, layer and die are zeros, as
R286 gives them for ctl.tval: the model's choice (assumption 89). -/
def ElemVerdict.location (e : ElemVerdict) (cat : Vector (BitVec 5) 16) (ox oy : Nat) : Word :=
  let p := e.place cat
  BitVec.ofNat 64 (1 + 2 * p.1 + 2 ^ 4 * p.2.1 + 2 ^ 8 * p.2.2 + 2 ^ 13 * ((ox + e.i) % 128) + 2 ^ 20 * ((oy + e.j) % 192))

/-- Some of the elements count. -/
def countIf (es : List ElemVerdict) (f : ElemVerdict → Bool) : Nat := (es.filter f).length

/-- ctl.rnsstat after a classification (R285, R287, R293): whether values count as delivered in OVC, and in LOCC. -/
def rnsstatAfter (r : Word) (es : List ElemVerdict) (ovc locc : Bool) (cat : Vector (BitVec 5) 16) (ox oy : Nat) : Word :=
  let loc := countIf es (fun e => e.loc.isSome && !e.unc)
  let unc := countIf es (·.unc)
  let o := if ovc then countIf es (fun e => e.o && !e.unc) else 0
  let r1 := addResidueCounts r o (if locc then loc else 0) unc
  let r2 := setBitIf r1 29 (0 < loc)
  match es.find? (·.bandE) with
  | none => r2
  | some e => if r2.getLsbD 35 then r2 else putBits r2 35 28 (e.location cat ox oy)

/-- Deliver a value into accw (R292). -/
def accwAdd (t : Table (BitVec 160)) (sh : Nat) (e : ElemVerdict) : Table (BitVec 160) :=
  let k := 192 * e.i + e.j
  tput 0 t k (BitVec.ofInt 160 ((tget 0 t k).toInt + e.x * 2 ^ sh))

/-- Deliver a value into an FP32 accumulator (R243, R292). -/
def accAdd (n : Nat) (t : Table (BitVec 32) × BitVec 8) (e : ElemVerdict) : Table (BitVec 32) × BitVec 8 :=
  let k := accKey n e.i e.j
  let r := cubeAdd (tget 0 t.1 k).toNat (some (ofInteger e.x))
  (tput 0 t.1 k (BitVec.ofNat 32 r.1), t.2 ||| r.2)

/-- Set the destination of a drain to zero before classification (R292). -/
def Ctx.zeroDest (x : Ctx) (acc rows cols : Nat) : Ctx :=
  if acc = 4 then
    { x with accw := foldUp rows (fun t i => foldUp cols (fun t j => tput 0 t (192 * i + j) 0) t) x.accw
             accBad := x.accBad.filter (fun e => !(98304 ≤ e && (e - 98304) / 192 < rows && (e - 98304) % 192 < cols)) }
  else x.zeroTile acc rows cols

/-- The shift of a drain (R292, R296). -/
def TileKind.shift : TileKind → Nat
  | .rnsx _ sh => sh
  | .xdot sh => sh
  | _ => 0

/-- The drain meets a set with MAGX, which cause 0x09 reports; RNSCHK only reports the bit (R282, R296). -/
def TileOp.spoiled (t : TileOp) (p : PlaneSet) : Bool := p.magx && !(t.kind = .rnschk)

/-- The drain writes the values of a set that it has classified (R285, R293). -/
def TileOp.drainWrites (t : TileOp) (es : List ElemVerdict) : Bool :=
  !(t.kind = .rnschk) && !es.any (·.unc) && (t.mode || !es.any (fun e => e.loc.isSome && !e.unc))

/-- One row of the values of a drain is written (R292). -/
def Ctx.deliver (x : Ctx) (t : TileOp) (es : List ElemVerdict) : Ctx × BitVec 8 :=
  if t.acc = 4 then ({ x with accw := es.foldl (fun a e => accwAdd a t.kind.shift e) x.accw }, 0)
  else
    let r := es.foldl (accAdd t.acc.toNat) (x.acc, 0)
    ({ x with acc := r.1 }, r.2)

/-- Located channels, and the channels in error of uncorrectable elements, name their dies (R377; assumption 78). -/
def State.nameLocated (s : State) (c : CoreId) (es : List ElemVerdict) : State :=
  es.foldl (fun s e =>
    if e.unc then e.bad.foldl (fun s l => s.nameDie c ((s.core c).catalogue.toList.getD l 0).toNat 2) s
    else if e.loc.isSome then s.nameDie c (e.place (s.core c).catalogue).2.2 1 else s) s

/-- What a drain has classified (R285). -/
def TileOp.verdicts (t : TileOp) : List ElemVerdict :=
  match t.stage with
  | .write _ es => es
  | _ => []

/-- A drain of the plane set ends (R282, R285, R286, R288, R293, R296). One that MAGX stops has neither classified nor counted
anything: the model's choice (assumption 88). -/
def State.endPlaneDrain (s : State) (c : CoreId) (sh : Bool) (t : TileOp) : State :=
  let p := ((s.core c).bankCtx sh).plane
  let cat := (s.core c).catalogue
  if t.spoiled p then (s.finishTile c sh t).reportBank c sh t.sec { cause := 0x09, tval := BitVec.ofNat 64 (2 ^ 63) }
  else
    let es := t.verdicts
    let isChk : Bool := t.kind = .rnschk
    let writes := t.drainWrites es
    let s1 := ((s.nameLocated c es).updBank c sh (fun y =>
      { y with
        rnsstat := setBitIf (rnsstatAfter y.rnsstat es (isChk || writes) (isChk || writes) cat p.ox p.oy) 31 p.magx
        plane := if writes then PlaneSet.reset else y.plane })).finishTile c sh t
    if isChk || writes then s1
    else
      let e := (es.find? (·.bandE)).getD { i := 0, j := 0, x := 0, o := false, loc := none, unc := false, bad := [] }
      s1.reportBank c sh t.sec { cause := if es.any (·.unc) then 0x08 else 0x07, tval := e.record cat }

/-- A drain of the plane set writes its next row (R292, R363); the last one ends it. -/
def State.drainRow (s : State) (c : CoreId) (sh : Bool) (t : TileOp) : State :=
  let d := ((s.core c).bankCtx sh).deliver t (t.verdicts.filter (fun e => e.i = t.done))
  let u := { t with done := t.done + 1, events := t.events ||| d.2 }
  let s1 := s.updBank c sh (fun _ => d.1.updTile t.id (fun _ => u))
  if u.done < t.rows then s1.afterN 1 (.tileOperationComplete c t.id) else s1.endPlaneDrain c sh u

/-- A drain classifies every element of its tile, once, before it writes any (R285, R292, R293, R296): Z is applied first; the rows
follow, one a cycle, or nothing does, after 8 cycles for each element of band E; a part without rows ends at once (R254). -/
def State.classified (s : State) (c : CoreId) (sh : Bool) (t : TileOp) : State :=
  let x := (s.core c).bankCtx sh
  let es := if t.spoiled x.plane then [] else classifyAll x.rns x.plane
  let ok := !t.spoiled x.plane && t.drainWrites es
  let zeroes := t.z && !(t.kind = .rnschk) && (!t.spoiled x.plane || t.kind.plane)
  let u := { t with stage := .write ok es, done := 0 }
  let s1 := s.updBank c sh (fun x => (if zeroes then x.zeroDest t.acc.toNat t.rows t.cols else x).updTile t.id (fun _ => u))
  if t.rows = 0 then s1.endPlaneDrain c sh u
  else s1.afterN (8 * countIf es (·.bandE) + (if ok then 1 else t.rows)) (.tileOperationComplete c t.id)

/-- TILE_OPERATION_COMPLETE (R249, R250, R257, R285, R292, R296, R363): a drain of the plane set classifies its elements, then
writes row by row. -/
def execTileOperationComplete (c : CoreId) (id : Nat) (s : State) : Answer :=
  match (s.core c).tileBank id with
  | none => .next s
  | some (sh, t) =>
    let drains := match t.kind with | .rnsx .. => true | .rnschk => true | .xdot _ => true | _ => false
    if t.stage = .feed then .next s
    else if !drains then .next (s.finishTile c sh t)
    else
      match t.stage with
      | .write true _ => .next (s.drainRow c sh t)
      | .write false _ => .next (s.endPlaneDrain c sh t)
      | _ => .next (s.classified c sh t)

/-- XDOT_DRAIN_START (R296): the plane part has completed; the classification ends one cycle a row before the drain. -/
def execXdotDrainStart (c : CoreId) (id : Nat) (s : State) : Answer :=
  match (s.core c).tileBank id with
  | none => .next s
  | some (sh, t) =>
    if t.stage = .settle then
      .next ((s.updBank c sh (fun x => x.updTile id (fun t => { t with stage := .drain }))).afterN (t.cols + 48)
        (.tileOperationComplete c id))
    else .next s

/-! ### MDRN and XFIN -/

/-- The shape register of a drain: rows and columns, or none where check 9 fails (R274). -/
def drainShape (v : Word) : Option (Nat × Nat) :=
  let r := getBits v 0 8
  let c := getBits v 8 8
  if v >>> 16 = 0 && 1 ≤ r && r ≤ 128 && 1 ≤ c && c ≤ 192 then some (r, c) else none

/-- The destination passes check 6 (R274, R297): size bytes an element. -/
def destOk (d : BitVec 512) (fmt size r c : Nat) : Bool :=
  sdFmt d = fmt && (sdDims d = 2 || sdDims d = 3) && c ≤ sdExt0 d && r ≤ sdExt1 d &&
    (sdDims d ≠ 3 || sdCur1 d < sdExt2 d) && sdBase d % size = 0 && sdStr0 d % (size : Int) = 0 &&
    sdStr1 d % (size : Int) = 0 && sdStr2 d % (size : Int) = 0

/-- The bytes of a drain in write order (R275). -/
def destBytes (d : BitVec 512) (fmt r c : Nat) : List Int :=
  (List.range r).flatMap (fun i => (List.range c).flatMap (fun j => bytesFrom (elemOff d fmt j i) (elemSize fmt)))

/-- The record of the first byte outside the group that GRP names (R127, R274). -/
def destConflict (d : BitVec 512) (fmt r c : Nat) : Option Word :=
  let kind := if sdNorth d then 2 else 1
  ((destBytes d fmt r c).find? (fun o => !inGroup (sdNorth d) o)).map (fun o =>
    if o < 0 || 0x5FFFFFF < o then bankRecordOut kind else bankRecord (slicePlace o.toNat) kind)

/-- The format code of R128 of a storage format of MDRN (R274). -/
def storeFmt (f : Nat) : Nat :=
  match f with
  | 0 => 0
  | 1 => 2
  | 2 => 3
  | 3 => 4
  | _ => 5

/-- Issue MDRN or XFIN once its operand checks have passed (R187, R266, R274, R275, R407). -/
def State.issueStoreDrain (s : State) (kind : TileKind) (acc : BitVec 3) (d : BitVec 4) (fmt r c : Nat) (adv : Bool) : State :=
  let x := s.curCtx
  let t : TileOp :=
    { s.drainTile kind acc false with astr := x.rstr d, anum := d, rows := r, cols := c, mask := 0, deg := false, stage := .drain }
  match destConflict t.astr fmt r c with
  | some rec => s.raise { cause := 0x03, tval := rec }
  | none =>
    match s.cubeFreeze acc false with
    | some accwr => s.holdCube accwr
    | none =>
      ((if adv then s.updCurCtx (fun x => x.advStream d) else s).addTile t).after (.drainComplete s.issue.core t.id)

/-- MDRN (R274, R275). -/
def execMdrn (d : BitVec 4) (a : BitVec 6) (r : BitVec 2) (ovx adv clr : Bool) (f n : BitVec 3) (s : State) : Answer :=
  let i : Instr := .mdrn d a r ovx adv clr f n
  let fmt := storeFmt f.toNat
  match drainShape (s.cur.rs a) with
  | none => .next (s.failCheck 9 i)
  | some (rows, cols) =>
    if !destOk (s.curCtx.rstr d) fmt (elemSize fmt) rows cols then .next (s.failCheck 6 i)
    else .next (s.issueStoreDrain (.mdrn f r ovx clr) n d fmt rows cols adv)

/-- The exponent arrays pass check 11 (R290, R297). -/
def arrayOk (o : Word) (n : Nat) : Bool := o.toNat % 2 = 0 && o.toNat + 2 * n ≤ sliceBytes

/-- XFIN (R297). -/
def execXfin (d : BitVec 4) (a : BitVec 6) (adv clr : Bool) (s : State) : Answer :=
  let i : Instr := .xfin d a adv clr
  let eo := s.cur.rs (a + 1)
  let fo := s.cur.rs (a + 2)
  match drainShape (s.cur.rs a) with
  | none => .next (s.failCheck 9 i)
  | some (rows, cols) =>
    if !destOk (s.curCtx.rstr d) 1 8 rows cols then .next (s.failCheck 6 i)
    else if !(arrayOk eo rows && arrayOk fo cols) then .next (s.failCheck 11 i)
    else .next (s.issueStoreDrain (.xfin clr eo.toNat fo.toNat) 4 d 1 rows cols adv)

/-- The bits that MDRN writes for an accumulator element, and its events (R275, R277): DNX, DOF, DSAT. -/
def drainElem (f : BitVec 3) (r : BitVec 2) (ovx : Bool) (x : Nat) : Nat × BitVec 8 :=
  if f = 0 then (x, 0)
  else
    let dst := fmtOfCode (storeFmt f.toNat)
    let v := fp32.decode x
    if v.isNan then (dst.cnan, 0)
    else
      let ov : OvMode := if !ovx then .dflt else if f = 3 then .nan else .sat
      let y := convertF fp32 dst (RMode.ofRnd r.toNat) ov false 0 v
      (y.1, (if y.2 &&& fNX ≠ 0 then 0x20 else 0) ||| (if y.2 &&& fOF ≠ 0 then 0x40 else 0) |||
        (if y.2 &&& fSAT ≠ 0 then 0x80 else 0))

/-- A drain under way: the state, its events and flags of ctl.rnsstat, and the report of its first poisoned element. -/
structure DrainRun where
  s : State
  events : BitVec 8
  xflags : Word
  bad : Option Word
deriving DecidableEq, Repr

/-- One row of MDRN (R275). -/
def mdrnRow (c : CoreId) (sh : Bool) (t : TileOp) (f : BitVec 3) (r : BitVec 2) (ovx : Bool) (q : DrainRun) (i : Nat) : DrainRun :=
  let x := (q.s.core c).bankCtx sh
  let n := t.acc.toNat
  let fmt := storeFmt f.toNat
  let cells := (List.range t.cols).map (fun j =>
    let key := accKey n i j
    if x.accBad.contains key then (j, 0, 0x10#8, some (BitVec.ofNat 64 (4 * (192 * i + j))))
    else
      let e := drainElem f r ovx (tget 0 x.acc key).toNat
      (j, e.1, e.2, (none : Option Word)))
  let bytes := cells.flatMap (fun e => atAddr (sliceIa c (elemOff t.astr fmt e.1 i)) (bytesOfNat (elemSize fmt) e.2.1))
  { s := q.s.applyWrite (x.writer c t.sec) bytes
    events := cells.foldl (fun ev e => ev ||| e.2.2.1) q.events
    xflags := q.xflags
    bad := q.bad.orElse (fun _ => cells.findSome? (fun e => e.2.2.2)) }

/-- The value that XFIN writes for an accw element and its exponents (R297): FP64 bits, and XNX, XOF, XUF. -/
def xfinElem (w : Int) (e f : Int) : Nat × Word :=
  let r := roundFin fp64 .rne .dflt false 0 (w < 0) w.natAbs (e + f - 110)
  (if w = 0 then 0 else r.1,
   setBitIf (setBitIf (setBitIf 0 32 (r.2 &&& fNX ≠ 0)) 33 (r.2 &&& fOF ≠ 0)) 34 (r.2 &&& fUF ≠ 0))

/-- An INT16 exponent of XFIN, none where it is poisoned (R297). -/
def State.exponent (s : State) (c : CoreId) (o : Nat) : Option Int :=
  let as := addrs (sliceIa c o) 2
  if (s.firstPoison as).isSome then none else some (toSigned 16 (natOfBytes (as.map s.byteNow)))

/-- One row of XFIN (R297). The record of an element that a poisoned exponent spoils is free (assumption 4). -/
def xfinRow (c : CoreId) (sh : Bool) (t : TileOp) (eo fo : Nat) (q : DrainRun) (i : Nat) : DrainRun :=
  let s0 := q.s.noteReads (addrs (sliceIa c ((eo + 2 * i : Nat) : Int)) 2 ++ addrs (sliceIa c (fo : Int)) (2 * t.cols))
  let x := (s0.core c).bankCtx sh
  let cells := (List.range t.cols).map (fun j =>
    let w := tget 0 x.accw (192 * i + j)
    if x.accBad.contains (98304 + 192 * i + j) then
      (j, fp64.cnan, (0 : Word), 0x10#8, some (BitVec.ofNat 64 (20 * (192 * i + j))))
    else
      match s0.exponent c (eo + 2 * i), s0.exponent c (fo + 2 * j) with
      | some e, some f => let r := xfinElem w.toInt e f; (j, r.1, r.2, 0#8, none)
      | _, _ => (j, fp64.cnan, 0, 0x10#8, some s0.freeVal))
  let bytes := cells.flatMap (fun e => atAddr (sliceIa c (elemOff t.astr 1 e.1 i)) (bytesOfNat 8 e.2.1))
  let bad := cells.findSome? (fun e => e.2.2.2.2)
  { s := (if bad.isSome then s0.drawFree else s0).applyWrite (x.writer c t.sec) bytes
    events := cells.foldl (fun ev e => ev ||| e.2.2.2.1) q.events
    xflags := cells.foldl (fun fl e => fl ||| e.2.2.1) q.xflags
    bad := q.bad.orElse (fun _ => bad) }

/-- Set one row of a drain's source to its value after CLR (R275, R297). -/
def Ctx.zeroRow (x : Ctx) (n i cols : Nat) : Ctx :=
  if n = 4 then
    { x with accw := foldUp cols (fun t j => tput 0 t (192 * i + j) 0) x.accw
             accBad := x.accBad.filter (fun e => !(98304 ≤ e && (e - 98304) / 192 = i && (e - 98304) % 192 < cols)) }
  else
    { x with
      acc := foldUp cols (fun t j => tput 0 t (accKey n i j) (0x80000000#32)) x.acc
      accBad := x.accBad.filter (fun e =>
        !(24576 * n ≤ e && e < 24576 * n + 24576 && (e - 24576 * n) / 192 = i && (e - 24576 * n) % 192 < cols)) }

/-- The row of a drain at which it stands (R275, R297). -/
def State.storeRow (s : State) (c : CoreId) (sh : Bool) (t : TileOp) : DrainRun :=
  let q0 : DrainRun := { s := s, events := 0, xflags := 0, bad := none }
  let clear := fun (q : DrainRun) (clr : Bool) =>
    if clr then { q with s := q.s.updBank c sh (fun x => x.zeroRow t.acc.toNat t.done t.cols) } else q
  match t.kind with
  | .mdrn f r ovx clr => clear (mdrnRow c sh t f r ovx q0 t.done) clr
  | .xfin clr eo fo => clear (xfinRow c sh t eo fo q0 t.done) clr
  | _ => q0

/-- The addresses in the slice that one row of a drain that stores reads and writes (R275, R297). -/
def TileOp.rowAddrs (t : TileOp) (c : CoreId) : List Nat :=
  let cells := fun (fmt : Nat) => (List.range t.cols).flatMap (fun j => addrs (sliceIa c (elemOff t.astr fmt j t.done)) (elemSize fmt))
  match t.kind with
  | .mdrn f _ _ _ => cells (storeFmt f.toNat)
  | .xfin _ eo fo =>
    addrs (sliceIa c ((eo + 2 * t.done : Nat) : Int)) 2 ++ addrs (sliceIa c (fo : Int)) (2 * t.cols) ++ cells 1
  | _ => []

/-- DRAIN_COMPLETE (R118, R121, R266, R275, R297, R363): the drain writes the next row of its rectangle and, after the last,
completes; until every operation issued earlier on its accumulator has completed it waits, and for a row it waits for the
row's sub-banks, with the rank of a copy (assumption 28). -/
def execDrainComplete (c : CoreId) (id : Nat) (s : State) : Answer :=
  match (s.core c).tileBank id with
  | none => .next s
  | some (sh, t) =>
    if ((s.core c).bankCtx sh).tiles.any (fun u => u.acc = t.acc && u.id < t.id) then .next (s.afterN 1 (.drainComplete c id))
    else
      let b := s.takeBanks false (t.waits.getD (slicePlaces (t.rowAddrs c)))
      if b.2 ≠ [] then
        .next ((b.1.updBank c sh (fun x => x.updTile id (fun t => { t with waits := some b.2 }))).afterN 1 (.drainComplete c id))
      else
        let q := b.1.storeRow c sh t
        let s1 := q.s.updBank c sh (fun x => { x with rnsstat := x.rnsstat ||| q.xflags })
        let u := { t with done := t.done + 1, waits := none, events := t.events ||| q.events, poison := t.poison.orElse (fun _ => q.bad) }
        if u.done < t.rows then .next ((s1.updBank c sh (fun x => x.updTile id (fun _ => u))).after (.drainComplete c id))
        else .next (s1.finishTile c sh u)

end Sys2Proof.Machine
end

