-- ==== Sys2Proof/Machine/LoadStore.lean ====
section
/-! DEFINITION. The L-slot instructions at issue: addresses, the checks of R195, order and counters, and the work
that they start (R120, R187, R193 to R208). -/

namespace Sys2Proof.Machine

/-! ### Checks and freezes at issue -/

/-- The residency hold (R66, R67, R195): the shares of an access with the address that first touches each, in
element order; a share that its home has answered absent is a page fault. -/
def State.withResidency (s : State) (l : List (Nat × Word)) (z : Bool) (k : State) : State :=
  match l with
  | [] => k
  | (sh, va) :: r =>
    if s.curCore.holds sh then s.withResidency r z k
    else
      match aget s.cur.answers sh with
      | some true => s.withResidency r z k
      | some false => s.raise { cause := 0x04, tval := va }
      | none => s.holdFor (.residency sh z)

/-- The shares that a range touches, each with an address (R195): none where the region has no residency (R66). -/
def sharesFor (ia len : Nat) (va : Word) : List (Nat × Word) :=
  if logged (regionOf ia) then (sharesIn ia len).map (fun sh => (sh, va)) else []

/-- The 64-byte lines of some addresses (R202). -/
def linesOf (as : List Nat) : List Nat := (as.map (fun a => a / 64 * 64)).eraseDups

/-! #### Elements of a vector access (R194, R199) -/

/-- Bytes of a size field (R193). -/
def szBytes (sz : BitVec 2) : Nat := 2 ^ sz.toNat

/-- The address of element i. -/
def VecAccess.va (a : VecAccess) (i : Nat) : Word := a.base + BitVec.ofNat 64 i * a.stride

/-- The enabled elements in ascending order. -/
def VecAccess.elems (a : VecAccess) : List Nat :=
  (List.range (1024 / szBytes a.sz)).filter (enabled a.en (8 * szBytes a.sz))

/-- The IA of element i, within the window of the access. -/
def VecAccess.ia (a : VecAccess) (i : Nat) : Nat := ((a.va i).toNat + a.shift).toNat

/-- The lowest address of the enabled elements. -/
def VecAccess.low (a : VecAccess) : Nat := (a.elems.map (fun i => (a.va i).toNat)).foldl Nat.min (2 ^ 64)

/-- The highest address of the enabled elements. -/
def VecAccess.high (a : VecAccess) : Nat := (a.elems.map (fun i => (a.va i).toNat)).foldl Nat.max 0

/-- The addresses of the bytes of the enabled elements, in element order. -/
def VecAccess.bytes (a : VecAccess) : List Nat := a.elems.flatMap (fun i => addrs (a.ia i) (szBytes a.sz))

/-- The shares that enabled elements touch, each with the first element that does. -/
def VecAccess.shares (a : VecAccess) : List (Nat × Word) :=
  a.elems.foldl (fun l i =>
    let sh := shareOf (a.ia i)
    if logged (regionOf (a.ia i)) && (aget l sh).isNone then l ++ [(sh, a.va i)] else l) []

/-! #### Order and counters (R187, R202, R203) -/

/-- The lines of an operation outstanding. -/
def OpKind.lines : OpKind → List Nat
  | .load _ ia len _ _ => linesOf (addrs ia len)
  | .vload _ acc => linesOf acc.bytes
  | .store bytes _ _ => linesOf (bytes.map (·.1))
  | .atomic _ ia _ _ wide _ _ => linesOf (addrs ia (if wide then 8 else 4))
  | .page .. => []

/-- The operation writes its location. -/
def OpKind.writes : OpKind → Bool
  | .store .. => true
  | .atomic .. => true
  | _ => false

/-- STG, ATOM, CAS and LDG take effect in issue order whatever their classes (R203). -/
def OpKind.newest : OpKind → Bool
  | .load _ _ _ _ n => n
  | .store _ f _ => f
  | .atomic .. => true
  | _ => false

/-- An operation outstanding that a new access must wait for: it shares a line, and the two are related with a
write among them or both act on the newest value (R202, R203). -/
def Op.blocks (o : Op) (place : Nat → Nat) (lines : List Nat) (writes newest : Bool) (cls : BitVec 3) : Bool :=
  (o.kind.lines.map place).any (lines.map place).contains &&
    ((o.kind.newest && newest) ||
     ((o.kind.writes || writes) && (o.cls == cls || o.cls == 0#3 || cls == 0#3)))

/-- The issuing stream must hold an access for an earlier one, wherever their lines lie (R53, R202). -/
def State.orderHeld (s : State) (lines : List Nat) (writes newest : Bool) (cls : BitVec 3) : Bool :=
  s.cur.ops.any (fun o => o.blocks s.place lines writes newest cls)

/-! #### The sub-banks of an own-slice access (R118, R120, R121) -/

/-- The places that the cube feed holds in the n-th cycle after the present one (R118, R120). -/
def State.feedPlaces (s : State) (n : Nat) : List SlicePlace :=
  match s.curCtx.feedAt s.now n with
  | some (t, j) => t.stepPlaces s.issue.core j
  | none => []

/-- The first place that an access needs, in the order of its bytes or elements, while the feed holds its sub-bank; two: it
needs the cycle after next as well, in which step 0 of a tile operation in the merged bundle counts too (R118, R120). Where several places clash, R127 does not say which one its record names:
the first is the model's choice (assumption 71). -/
def State.bankClash (s : State) (ps : List SlicePlace) (two : Bool) : Option SlicePlace :=
  ps.find? (fun p => (s.feedPlaces 1).any p.sameSub || (two && ((s.feedPlaces 2).any p.sameSub || s.issue.beside.any (fun q => p.sameSub { bank := q.1, row := q.2 }))))

/-- An aged remote request takes a sub-bank in the next cycle, or, two, in the one after it (R118, R121). -/
def State.agedAt (s : State) (ps : List SlicePlace) (two : Bool) : Bool :=
  ps.any (fun p => s.curCore.remote.any (fun r => r.bank = p.index && r.arrived + 9 ≤ s.now + (if two then 2 else 1)))

/-- The sub-banks of an L-slot access are taken in its cycles (R118, R121). -/
def State.bookBanks (s : State) (ps : List SlicePlace) (two : Bool) : State :=
  let at_ := fun (n : Nat) => ps.map (fun p => ((s.now + n, p.index) : Nat × Nat))
  { s.updCurCore (fun k => { k with booked := k.booked ++ (if two then at_ 1 ++ at_ 2 else at_ 1) }) with
    issue := { s.issue with late := if two then ps.map (fun p => (p.bank, p.row)) else [] } }

/-- The bank rule of an L-slot access (R120, R121, R195): k has made the access. -/
def State.withBank (s : State) (own : Bool) (ps : List SlicePlace) (two : Bool) (k : State) : State :=
  if !own then k
  else
    match s.bankClash ps two with
    | some p => if s.cur.inter then s.holdFor .bank else s.raise { cause := 0x03, tval := bankRecord p 4 }
    | none => if s.agedAt ps two then s.holdFor .bank else k.bookBanks ps two

/-- Some 8-byte word is written in part (R118, R126). -/
def partialWord (as : List Nat) : Bool :=
  ((as.map (fun a => a / 8)).eraseDups).any (fun w => ((as.filter (fun a => a / 8 = w)).eraseDups).length < 8)

/-- The places of some addresses of the own slice, in order. -/
def State.placesAt (s : State) (as : List Nat) : List SlicePlace :=
  (as.map (fun a => slicePlace (a - sliceBase s.issue.core.val))).eraseDups

/-- The first pass of an access: in each sub-bank its lowest row (R201). -/
def firstPass (ps : List SlicePlace) : List SlicePlace :=
  ps.filter (fun p => !ps.any (fun q => p.sameSub q && q.row < p.row))

/-- An address lies in the issuing core's own slice (R122). -/
def State.ownSlice (s : State) (ia : Nat) : Bool := regionOf ia = .slice s.issue.core.val

/-! ### Starting work -/

/-- The addresses that some operation reads or writes. -/
def OpKind.addrs : OpKind → List Nat
  | .load _ ia len _ _ => Machine.addrs ia len
  | .vload _ acc => acc.bytes
  | .store bytes _ _ => bytes.map (·.1)
  | .atomic _ ia _ _ wide _ _ => Machine.addrs ia (if wide then 8 else 4)
  | .page .. => []

/-- The sub-banks that an access with more than one pass needs after the first, in its own slice (R201). -/
def State.laterPasses (s : State) (as : List Nat) : List (CoreId × Nat) :=
  let ps := s.placesAt (as.filter s.ownSlice)
  (ps.filter (fun p => !(firstPass ps).contains p)).map (fun p => (s.issue.core, p.index))

/-- The sub-banks that an operation awaits behind its issue: of other cores' slices, and for the later passes of its own (R118,
R121, R201). -/
def State.banksOf (s : State) (as : List Nat) : List (CoreId × Nat) :=
  ((slicePlaces (as.map s.place)).filter (fun w => w.1 ≠ s.issue.core)) ++ s.laterPasses as

/-- The requests of an operation go to the sub-banks of other cores' slices, where they wait (R118, R121, R122). -/
def State.askRemote (s : State) (o : Op) : State :=
  (o.waits.filter (fun w => w.1 ≠ s.issue.core)).foldl (fun s w => s.after (.remoteSliceRequest w.1 w.2 s.issue.core.val)) s

/-- Put an operation into the issuing stream's list (R42); its completion timeouts begin (R85). -/
def State.addOp (s : State) (o : Op) : State :=
  { s.updCur (fun x => { x with ops := x.ops ++ [o] }) with nextId := s.nextId + 1 }.awaitLinks s.issue.core o.id o.kind.addrs

/-- The non-temporal attribute of a window (R55, R71). -/
def attrNt (a : BitVec 6) : Bool := a.getLsbD 5

/-- The replica attribute of a window (R55, R68). -/
def attrRep (a : BitVec 6) : Bool := a.getLsbD 4

/-- The first-touch attribute of a window (R55, R65). -/
def attrZ (a : BitVec 6) : Bool := a.getLsbD 2

/-- A new operation of the issuing stream. -/
def State.newOp (s : State) (kind : OpKind) (cls : BitVec 3) (own : List (Nat × Byte)) (attr : BitVec 6) (nt : Bool) : Op :=
  { id := s.nextId, kind := kind, cls := cls, snap := s.cur.snap, own := own, nt := nt || attrNt attr, rep := attrRep attr
    z := attrZ attr, waits := s.banksOf kind.addrs, half := none, sentAt := s.now, ports := s.requests kind.addrs }

/-- Start a counted load (R187, R197). -/
def State.startLoad (s : State) (o : Op) : State :=
  (((s.addOp o).updCur (fun x => { x with ld := x.ld + 1 })).after (.loadDataReturn s.issue.core o.id)).askRemote o

/-- Start a store (R187, R197): a plain one enters the own-write set (R304). -/
def State.startStore (s : State) (o : Op) (bytes : List (Nat × Byte)) (fresh : Bool) (ia : Nat) : State :=
  (((s.addOp o).updCur (fun x =>
    { x with st := x.st + 1
             own := if fresh || !logged (regionOf ia) then x.own
               else { id := o.id, bytes := bytes, cls := o.cls, job := false, applied := none } :: x.own })).after
    (.storeApplied s.issue.core o.id)).askRemote o

/-! ### Scalar loads and stores (R194, R196, R197) -/

/-- The effective address of an LM form (R194). -/
def State.lmAddr (s : State) (base : BitVec 6) (sz : BitVec 2) (off : BitVec 9) : Word :=
  s.cur.rs base + off.signExtend 64 * BitVec.ofNat 64 (szBytes sz)

/-- The checks of an access of n bytes, alignment, translation and residency in that order (R195). -/
def State.withScalar (s : State) (ea : Word) (n : Nat) (kind : AccessKind) (k : Nat → BitVec 6 → State) : State :=
  if ea.toNat % n ≠ 0 then s.raise { cause := 0x05, tval := ea }
  else
    match translate s.curCtx.win ea n kind with
    | none => s.raise { cause := 0x0F, tval := ea }
    | some (ia, attr) => s.withResidency (sharesFor ia n ea) (attrZ attr) (k ia attr)

/-- A load of the own slice: it lands at 6 with the value at the bank; poison lands as zero and is reported (R197,
R198). -/
def State.ownLoad (s : State) (d : BitVec 6) (ia n : Nat) (ea : Word) : State :=
  let s1 := s.noteReads (addrs ia n)
  if (s1.firstPoison (addrs ia n)).isSome then (s1.emit 6 (.scalar d 0)).emit 6 (.report 0x11 ea)
  else s1.emit 6 (.scalar d (BitVec.ofNat 64 (s1.wordNow ia n)))

/-- LD and LDG (R196). -/
def State.issueLoad (s : State) (d base : BitVec 6) (cls : BitVec 3) (sz : BitVec 2) (off : BitVec 9) (newest : Bool) : State :=
  let n := szBytes sz
  let ea := s.lmAddr base sz off
  s.withScalar ea n .read (fun ia attr =>
    let own := s.ownSlice ia
    if s.orderHeld (linesOf (addrs ia n)) false newest cls then s.holdFor .order
    else if !own && 32 ≤ s.cur.ld then s.holdFor .counter
    else s.withBank own (s.placesAt (addrs ia n)) false
      (if own then s.ownLoad d ia n ea
       else s.startLoad (s.newOp (.load d ia n ea newest) cls (s.ownBytes s.nextId s.cur.own cls ia n) attr false)))

/-- LD (R196). -/
def execLd (d base : BitVec 6) (cls : BitVec 3) (sz : BitVec 2) (off : BitVec 9) (s : State) : Answer :=
  .next (s.issueLoad d base cls sz off false)

/-- LDG (R196). -/
def execLdg (d base : BitVec 6) (cls : BitVec 3) (sz : BitVec 2) (off : BitVec 9) (s : State) : Answer :=
  .next (s.issueLoad d base cls sz off true)

/-- Start a store of bytes at an IA once its order, counter and bank allow it (R120, R187, R202). -/
def State.issueBytes (s : State) (bytes : List (Nat × Byte)) (ia : Nat) (cls : BitVec 3) (attr : BitVec 6) (fresh nt : Bool)
    (ps : List SlicePlace) : State :=
  let own := s.ownSlice ia
  let as := bytes.map (·.1)
  if s.orderHeld (linesOf as) true fresh cls then s.holdFor .order
  else if 32 ≤ s.cur.st then s.holdFor .counter
  else s.withBank own ps (own && partialWord as)
    (s.startStore (s.newOp (.store bytes fresh (regionOf ia = .host)) cls [] attr nt) bytes fresh ia)

/-- ST, STG and STNT (R196, R203). -/
def State.issueStore (s : State) (d base : BitVec 6) (cls : BitVec 3) (sz : BitVec 2) (off : BitVec 9) (fresh nt : Bool) : State :=
  let n := szBytes sz
  let ea := s.lmAddr base sz off
  s.withScalar ea n .write (fun ia attr =>
    s.issueBytes (atAddr ia (bytesOfNat n (s.cur.rs d).toNat)) ia cls attr fresh nt
      (if s.ownSlice ia then s.placesAt (addrs ia n) else []))

/-- ST (R196). -/
def execSt (d base : BitVec 6) (cls : BitVec 3) (sz : BitVec 2) (off : BitVec 9) (s : State) : Answer :=
  .next (s.issueStore d base cls sz off false false)

/-- STG (R196, R203). -/
def execStg (d base : BitVec 6) (cls : BitVec 3) (sz : BitVec 2) (off : BitVec 9) (s : State) : Answer :=
  .next (s.issueStore d base cls sz off true false)

/-- STNT (R71, R196). -/
def execStnt (d base : BitVec 6) (cls : BitVec 3) (sz : BitVec 2) (off : BitVec 9) (s : State) : Answer :=
  .next (s.issueStore d base cls sz off false true)

/-! ### Vector loads and stores (R199 to R201) -/

/-- A vector access as its word names it (R194). -/
def State.vecAccess (s : State) (base : Word) (stride : Word) (m : BitVec 3) (sz : BitVec 2) : VecAccess :=
  { base := base, stride := stride, sz := sz, en := s.curCtx.rm m, mask := m, shift := 0 }

/-- The checks of a vector access with enabled elements (R195, R200): alignment of each in element order,
translation of the range that they span, and residency where the form asks for it. -/
def State.withVector (s : State) (a : VecAccess) (kind : AccessKind) (ea : Word) (query : Bool)
    (k : VecAccess → BitVec 6 → State) : State :=
  let n := szBytes a.sz
  match a.elems.find? (fun i => (a.va i).toNat % n ≠ 0) with
  | some i => s.raise { cause := 0x05, tval := a.va i }
  | none =>
    let lo := a.low
    match translate s.curCtx.win (BitVec.ofNat 64 lo) (a.high + n - lo) kind with
    | none => s.raise { cause := 0x0F, tval := ea }
    | some (ia, attr) =>
      let b := { a with shift := (ia : Int) - (lo : Int) }
      if query then s.withResidency b.shares (attrZ attr) (k b attr) else k b attr

/-- The bytes that a vector load delivers: image and bits written, the mask bits of the elements read, and the
address of the first element that reads poison (R198, R199). -/
structure VLoad where
  img : Nat
  written : Nat
  ok : Nat
  bad : Option Word
deriving DecidableEq, Repr

/-- What a vector load reads (R198 to R200, R303): with a mask field an element of an absent share reads zero. at_ gives the
key of a byte's error marks where it is read. -/
def State.vecLoad (s : State) (a : VecAccess) (snap : Nat) (own : List (Nat × Byte)) (at_ : Nat → Nat) : VLoad :=
  let n := szBytes a.sz
  let w := 8 * n
  let absent := fun i => a.mask ≠ 0#3 && !s.resident (a.ia i)
  let r := a.elems.foldl (fun (r : VLoad) i =>
    let as := addrs (a.ia i) n
    let gone := absent i
    let bad := !gone && (s.firstPoison (as.map at_)).isSome
    let x := if gone || bad then 0 else natOfBytes (s.plainBytes snap own (a.ia i) n)
    { img := r.img + x <<< (w * i), written := r.written + (2 ^ w - 1) <<< (w * i)
      ok := if gone || n = 1 then r.ok else r.ok + coverBits w i
      bad := r.bad.orElse (fun _ => if bad then some (a.va i) else none) }) { img := 0, written := 0, ok := 0, bad := none }
  if n = 1 then
    { r with ok := foldUp 512 (fun q j => if a.en.getLsbD j && !absent (2 * j) && !absent (2 * j + 1) then q + 2 ^ j else q) 0 }
  else r

/-- The results of a vector load, for landing (R199). -/
def VLoad.dests (r : VLoad) (d : BitVec 6) (m : BitVec 3) : List Dest :=
  [.vec d (BitVec.ofNat 8192 r.written) (BitVec.ofNat 8192 r.img) none] ++
  (if m = 0#3 then [] else [.mask m (BitVec.allOnes 512) (BitVec.ofNat 512 r.ok)]) ++
  (match r.bad with | some va => [.report 0x11 va] | none => [])

/-- LDV and LDVS (R199 to R201). -/
def State.issueVecLoad (s : State) (d : BitVec 6) (a : VecAccess) (ea : Word) (cls : BitVec 3) : State :=
  if a.elems = [] then (if a.mask = 0#3 then s else s.emit 6 (.mask a.mask (BitVec.allOnes 512) 0))
  else
    s.withVector a .read ea (a.mask = 0#3) (fun b attr =>
      let ia := b.ia (b.elems.headD 0)
      let own := s.ownSlice ia
      let ps := if own then s.placesAt b.bytes else []
      let once := own && (firstPass ps).length = ps.length
      if s.orderHeld (linesOf b.bytes) false false cls then s.holdFor .order
      else if !once && 32 ≤ s.cur.ld then s.holdFor .counter
      else s.withBank own (firstPass ps) false
        (if once then
          let s1 := s.noteReads b.bytes
          ((s1.vecLoad b s1.cur.snap [] id).dests d b.mask).foldl (fun s x => s.emit 6 x) s1
         else
          let lo := (b.elems.map b.ia).foldl Nat.min (2 ^ 64)
          let hi := (b.elems.map b.ia).foldl Nat.max 0
          s.startLoad (s.newOp (.vload d b) cls (s.ownBytes s.nextId s.cur.own cls lo (hi + 8 - lo)) attr false)))

/-- The effective address of LDV and STV (R194). -/
def State.lvAddr (s : State) (base : BitVec 6) (off : BitVec 6) : Word := s.cur.rs base + off.signExtend 64 * 1024

/-- LDV (R199). -/
def execLdv (d base : BitVec 6) (cls : BitVec 3) (m : BitVec 3) (sz : BitVec 2) (off : BitVec 6) (s : State) : Answer :=
  let ea := s.lvAddr base off
  .next (s.issueVecLoad d (s.vecAccess ea (BitVec.ofNat 64 (szBytes sz)) m sz) ea cls)

/-- LDVS (R199). -/
def execLdvs (d base : BitVec 6) (cls : BitVec 3) (m : BitVec 3) (sz : BitVec 2) (k : BitVec 6) (s : State) : Answer :=
  let a := s.vecAccess (s.cur.rs base) (s.cur.rs k) m sz
  .next (s.issueVecLoad d a (a.va (a.elems.headD 0)) cls)

/-- The bytes of the enabled elements of a vector register at their addresses, in element order (R199). -/
def vecBytes (img : Nat) (a : VecAccess) : List (Nat × Byte) :=
  let n := szBytes a.sz
  a.elems.flatMap (fun i => atAddr (a.ia i) (bytesOfNat n (elemOf img (8 * n) i)))

/-- STV and STVS (R199 to R201). -/
def State.issueVecStore (s : State) (d : BitVec 6) (a : VecAccess) (ea : Word) (cls : BitVec 3) : State :=
  if a.elems = [] then s
  else
    s.withVector a .write ea true (fun b attr =>
      let ia := b.ia (b.elems.headD 0)
      s.issueBytes (vecBytes (s.curCtx.rv d).toNat b) ia cls attr false false
        (if s.ownSlice ia then firstPass (s.placesAt b.bytes) else []))

/-- STV (R199). -/
def execStv (d base : BitVec 6) (cls : BitVec 3) (m : BitVec 3) (sz : BitVec 2) (off : BitVec 6) (s : State) : Answer :=
  let ea := s.lvAddr base off
  .next (s.issueVecStore d (s.vecAccess ea (BitVec.ofNat 64 (szBytes sz)) m sz) ea cls)

/-- STVS (R199). -/
def execStvs (d base : BitVec 6) (cls : BitVec 3) (m : BitVec 3) (sz : BitVec 2) (k : BitVec 6) (s : State) : Answer :=
  let a := s.vecAccess (s.cur.rs base) (s.cur.rs k) m sz
  .next (s.issueVecStore d a (a.va (a.elems.headD 0)) cls)

/-! ### Atomics (R204 to R207) -/

/-- Start an atomic (R195, R204, R207): d its destination, a its address, b its operand. -/
def State.issueAtomic (s : State) (d a b : BitVec 6) (k : AtomKind) (scope : BitVec 3) (w : Bool) (hostOk : Bool) : State :=
  let n := if w then 8 else 4
  let ea := s.cur.rs a
  if ea.toNat % n ≠ 0 then s.raise { cause := 0x05, tval := ea }
  else
    match translate s.curCtx.win ea n .rmw with
    | none => s.raise { cause := 0x0F, tval := ea }
    | some (ia, attr) =>
      if regionOf ia = .host && scope = 5#3 && !hostOk then s.raise { cause := 0x0F, tval := ea }
      else s.withResidency (sharesFor ia n ea) (attrZ attr)
        (if s.orderHeld (linesOf (addrs ia n)) true true 0#3 then s.holdFor .order
         else if 16 ≤ s.cur.at_ then s.holdFor .counter
         else
          let own := s.ownSlice ia
          let o := s.newOp (.atomic d ia ea k w (s.cur.rs b) scope) 0#3 [] attr false
          s.withBank own (if own then s.placesAt (addrs ia n) else []) true
            ((((s.addOp o).updCur (fun x => { x with at_ := x.at_ + 1 })).after (.atomicPerformed s.issue.core s.nextId)).askRemote o))

/-- ATOM (R205, R207): on the host window with .sys only .add and .swap exist. -/
def execAtom (d a b : BitVec 6) (f : BitVec 4) (scope : BitVec 3) (w : Bool) (s : State) : Answer :=
  .next (s.issueAtomic d a b (.op f) scope w (f = 0#4 || f = 8#4))

/-- CAS (R206): the expected value is s_d read at issue. -/
def execCas (d a b : BitVec 6) (scope : BitVec 3) (w : Bool) (s : State) : Answer :=
  .next (s.issueAtomic d a b (.cas (s.cur.rs d)) scope w true)

/-! ### Page requests (R208) -/

/-- The attributes that a page request asks for (R208). -/
def pageDenied (attr : BitVec 6) (wr : Bool) : Bool :=
  if wr then !attr.getLsbD 1 || attr.getLsbD 3 else !attr.getLsbD 0

/-- Count a page request and put its answer under way (R187, R208); whether the firmware finds a frame is free. -/
def State.startPage (s : State) (o : Op) : State :=
  (((s.addOp o).updCur (fun x => { x with at_ := x.at_ + 1 })).after
    (.pageRequestSettled s.issue.core o.id (!Config.frameFree s.free))).drawFree

/-- PGREQ (R208): a length above 2^30 is answered without translation. -/
def execPgreq (d a b : BitVec 6) (wr : Bool) (s : State) : Answer :=
  let va := s.cur.rs a
  let len := Nat.max (s.cur.rs b).toNat 1
  if 2 ^ 30 < len then
    .next (if 16 ≤ s.cur.at_ then s.holdFor .counter
      else s.startPage (s.newOp (.page d 0 len) 0#3 [] 0 false))
  else
    match translate s.curCtx.win va len .probe with
    | none => .next (s.raise { cause := 0x0F, tval := va })
    | some (ia, attr) =>
      if pageDenied attr wr then .next (s.raise { cause := 0x0F, tval := va })
      else if 16 ≤ s.cur.at_ then .next (s.holdFor .counter)
      else .next (s.startPage (s.newOp (.page d ia len) 0#3 [] attr false))

end Sys2Proof.Machine
end

