-- ==== Sys2Proof/Machine/MemEvents.lean ====
section
/-! DEFINITION. What the homes and banks do: loads return, stores and atomics are applied, residency and page
requests are answered, replicas, snoops, patrols and remote slice requests (R63 to R74, R79, R121 to R124, R197 to
R208). -/

namespace Sys2Proof.Machine

/-! ### Operations outstanding -/

/-- An operation of a context, with its stream. -/
def Ctx.findOp (x : Ctx) (id : Nat) : Option (Bool × Op) :=
  match x.prim.ops.find? (fun o => o.id = id) with
  | some o => some (false, o)
  | none => (x.sec.ops.find? (fun o => o.id = id)).map (fun o => (true, o))

/-- The bank that holds an operation (false: the live context), its stream, and the operation. -/
def Core.opBank (k : Core) (id : Nat) : Option (Bool × Bool × Op) :=
  match k.ctx.findOp id with
  | some (b, o) => some (false, b, o)
  | none => (k.shadow.findOp id).map (fun r => (true, r.1, r.2))

/-- Change a stream of the live context or of the one in the shadow bank. -/
def State.updBankStream (s : State) (c : CoreId) (sh sec : Bool) (f : Stream → Stream) : State :=
  s.updBank c sh (fun x => x.updStream sec f)

/-- An operation ends: it leaves the list, and its counter falls (R187); the counters of a stream that was started again
no longer count what it left outstanding when it halted (R340). -/
def Stream.endOp (x : Stream) (o : Op) : Stream :=
  let y := { x with ops := x.ops.filter (fun q => q.id ≠ o.id) }
  if o.id < x.opBase then y
  else match o.kind with
  | .load .. => { y with ld := y.ld - 1 }
  | .vload .. => { y with ld := y.ld - 1 }
  | .store .. => { y with st := y.st - 1 }
  | .atomic .. => { y with at_ := y.at_ - 1 }
  | .page .. => { y with at_ := y.at_ - 1 }

/-- Results of an operation land, and it ends (R187, R197). -/
def State.landOp (s : State) (c : CoreId) (sh sec : Bool) (o : Op) (ds : List Dest) : State :=
  (s.updBank c sh (fun x => ds.foldl (fun x d => x.land sec d) x)).updBankStream c sh sec (fun x => x.endOp o)

/-- Poison reaches the stream that issued an access (R198). -/
def State.reportPoison (s : State) (c : CoreId) (sh sec : Bool) (va : Word) : State :=
  s.reportBank c sh sec { cause := 0x11, tval := va }

/-- The writes of its own stream that a load sees (R202, R304): those that it took up at its issue, and a later store that is
not related to it where the race gives it. -/
def State.opView (s : State) (c : CoreId) (sh sec : Bool) (o : Op) : List (Nat × Byte) :=
  ((((s.core c).bankCtx sh).stream sec).own.filter (fun w => o.id < w.id && !w.job && !w.related o.cls)).flatMap (·.raced o.id) ++ o.own

/-- The homes serve a read of an operation: its lines are checked and cached, and for a plain read the log is read (R68, R71 to
R74, R123, R306). -/
def State.serveRead (s : State) (c : CoreId) (o : Op) : State :=
  let as := o.kind.addrs
  (fun s : State => if o.kind.newest then s else s.readLogs o.snap as) <| (linesOf as).foldl (fun s l => s.cacheTouch (s.servingHome c (s.place l) o.rep) l o.nt) (s.noteReads (as.map (s.servedAt c o.rep)))

/-! ### Writes that wait for copies or for the host (R69, R79) -/

/-- The page of an IA at its leaf's level (R61, R68). -/
def State.pageOf (s : State) (ia : Nat) : Nat :=
  match s.leafOf ia with
  | some (3, _) => ia / 2 ^ 21 * 2 ^ 21
  | _ => ia / 65536 * 65536

/-- Send an invalidation of a line to every copy, once (R54, R69); a copy silent for 50 µs is fenced (R70). -/
def State.invalidate (s : State) (line : Nat) : State :=
  let h := homeOf line
  if (aget (s.home h).invalidating line).isSome then s
  else
    let m := s.rmask line
    let s1 := s.updHome h (fun q => { q with invalidating := q.invalidating ++ [(line, m)] })
    (coresOf m).foldl (fun s c => (s.after (.replicaInvalidationAck h line c)).afterN 80000 (.replicaFence h line c)) s1

/-- The host may hold a line: CXL.mem is negotiated and the line is host-visible (R77, R79; assumption 12). -/
def State.hostHolds (s : State) (a : Nat) : Bool := s.hub.hlstat.getLsbD 9 && s.hostVisible a

/-- Send a back-invalidation snoop for a line, once (R79). -/
def State.snoop (s : State) (l : Nat) : State :=
  if (aget (s.home (homeOf l)).snoops l).isSome then s
  else (s.updHome (homeOf l) (fun q => { q with snoops := q.snoops ++ [(l, false)] })).after (.hostSnoopResponse l)

/-- The lines that the host may hold, among some, and for which it has not answered (R79). -/
def State.unanswered (s : State) (ls : List Nat) : List Nat :=
  ls.filter (fun l => s.hostHolds l && aget (s.home (homeOf l)).snoops l ≠ some true)

/-- The lines among some whose copies are to be invalidated or have not all acknowledged (R69). -/
def State.copiesOf (s : State) (ls : List Nat) : List Nat :=
  ls.filter (fun l => s.rmask l ≠ 0 || (aget (s.home (homeOf l)).invalidating l).isSome)

/-- The home of a page holds a write of it that it received before the one of event e (R69). -/
def State.behind (s : State) (e : Instr) (page : Nat) : Bool :=
  (((s.home (homeOf page)).held.takeWhile (fun q => q.2 ≠ e)).any (fun q => q.1 = page && s.agenda.any (fun p => p.2 = q.2)))

/-- The home of a page holds the write of an event, once. -/
def State.holdWrite (s : State) (e : Instr) (page : Nat) : State :=
  if (s.home (homeOf page)).held.contains (page, e) then s
  else s.updHome (homeOf page) (fun q => { q with held := q.held ++ [(page, e)] })

/-- The home of a page no longer holds it. -/
def State.unholdWrite (s : State) (e : Instr) (page : Nat) : State :=
  if (s.home (homeOf page)).held.contains (page, e) then s.updHome (homeOf page) (fun q => { q with held := q.held.erase (page, e) })
  else s

/-- The operations of every context that is live or in a shadow bank, with core and bank. -/
def State.allOps (s : State) : List Op :=
  [(0 : CoreId), 1, 2, 3, 4, 5, 6, 7].flatMap (fun c => [false, true].flatMap (fun b =>
    (((s.core c).bankCtx b).stream false).ops ++ (((s.core c).bankCtx b).stream true).ops))

/-- The hub performs an atomic on the host window as a read and then a write (R207). -/
def OpKind.inHalves : OpKind → Bool
  | .atomic _ ia _ _ _ _ scope => regionOf ia = .host && scope ≠ 5#3
  | _ => false

/-- An atomic of the device to one of some lines is between its read and its write, and is not the one that the event performs:
towards the device's agents it is indivisible, so their writes wait (R207). -/
def State.hubBusy (s : State) (e : Option Instr) (ls : List Nat) : Bool :=
  let own := match e with | some (.atomicPerformed _ id) => some id | _ => none
  s.allOps.any (fun o => o.half.isSome && own ≠ some o.id && o.kind.lines.any ls.contains)

/-- Whether the write of an event may be applied: no copy is left valid, the host has answered, no earlier write of a page is
held, and the hub is not within an atomic on its lines; otherwise the home holds it, and the invalidations and snoops are on
their way (R69, R79, R207). -/
def State.writeReady (s : State) (e : Instr) (as : List Nat) : State × Bool :=
  let ls := linesOf (as.map s.place)
  let pages := ((ls.filter (fun l => pagedHere (regionOf l))).map s.pageOf).eraseDups
  let copied := s.copiesOf ls
  let waiting := s.unanswered ls
  if copied = [] && waiting = [] && !pages.any (s.behind e) && !s.hubBusy (some e) ls then (pages.foldl (fun s p => s.unholdWrite e p) s, true)
  else (waiting.foldl State.snoop (copied.foldl State.invalidate (pages.foldl (fun s p => s.holdWrite e p) s)), false)

/-- The answers of the host to the snoops of a write are used up (R79). -/
def State.snoopsUsed (s : State) (as : List Nat) : State :=
  (linesOf (as.map s.place)).foldl (fun s l => s.updHome (homeOf l) (fun q => { q with snoops := adel q.snoops l })) s

/-- A request from outside the streams is served by its homes, through their caches (R71). -/
def State.serveOutside (s : State) (as : List Nat) : State :=
  (linesOf as).foldl (fun s l => s.cacheTouch (homeOf (s.place l)) l false) (s.noteReads as)

/-- A write through a device agent is applied (R69, R71, R79, R85). -/
def State.agentWrite (s : State) (w : Writer) (bytes : List (Nat × Byte)) (nt : Bool) : State :=
  let as := bytes.map (·.1)
  (linesOf as).foldl (fun s l => s.cacheTouch (homeOf (s.place l)) l nt) ((s.snoopsUsed as).deviceWrite w bytes)

/-- The firmware's writes that wait for the host are applied in order, as far as the host has answered; a completion's vector
follows its entry (R79, R81, R324). -/
def State.drainFirmware (s : State) : List (Nat × List Byte × Option Nat) → State
  | [] => s.updHub (fun h => { h with fwWrites := [] })
  | w :: r =>
    let as := addrs w.1 w.2.1.length
    let waiting := s.unanswered (linesOf as)
    if waiting = [] && !s.hubBusy none (linesOf as) then
      let s1 := s.agentWrite Writer.outside (atAddr w.1 w.2.1) false
      State.drainFirmware (match w.2.2 with | some v => s1.msix v | none => s1) r
    else (waiting.foldl State.snoop s).updHub (fun h => { h with fwWrites := w :: r })

/-- The firmware writes bytes, and a vector may follow them: at once, or behind what waits for the host (R79). -/
def State.firmwareWrites (s : State) (ia : Nat) (bytes : List Byte) (vector : Option Nat) : State :=
  s.drainFirmware (s.hub.fwWrites ++ [(ia, bytes, vector)])

/-- The writes of the firmware that wait are tried again (R79, R207). -/
def State.firmwareAgain (s : State) : State := if s.hub.fwWrites = [] then s else s.drainFirmware s.hub.fwWrites

/-- HOST_SNOOP_RESPONSE (R79): the held write may now apply. -/
def execHostSnoopResponse (line : Nat) (s : State) : Answer :=
  let s1 := s.updHome (homeOf line) (fun q =>
    { q with snoops := q.snoops.map (fun p => if p.1 = line then (line, true) else p) })
  .next s1.firmwareAgain

/-! ### Loads, stores, atomics (R187, R197, R198, R203 to R206) -/

/-- Change an operation of a stream. -/
def Stream.updOp (x : Stream) (id : Nat) (f : Op → Op) : Stream := { x with ops := x.ops.map (fun o => if o.id = id then f o else o) }

/-- An operation takes the sub-banks that its later passes need in its core's own slice, as far as they are free (R121, R201):
the state, and whether it waits for no grant any more. -/
def State.opTakes (s : State) (c : CoreId) (sh sec : Bool) (o : Op) : State × Bool :=
  if o.waits = [] then (s, true)
  else
    let b := s.takeBanks true (o.waits.filter (fun w => w.1 = c))
    let left := o.waits.filter (fun w => w.1 ≠ c) ++ b.2
    (b.1.updBankStream c sh sec (fun x => x.updOp o.id (fun o => { o with waits := left })), left = [])

/-- An operation goes on once it has the grants of its sub-banks (R121). -/
def State.withGrants (s : State) (c : CoreId) (id : Nat) (e : Instr) (k : State → Bool → Bool → Op → State) : Answer :=
  match (s.core c).opBank id with
  | some (sh, sec, o) =>
    let b := s.opTakes c sh sec o
    .next (if b.2 then k b.1 sh sec o else b.1.afterN 1 e)
  | none => .next s

/-- LOAD_DATA_RETURN (R121, R197 to R200). -/
def execLoadDataReturn (c : CoreId) (id : Nat) (s : State) : Answer :=
  s.withGrants c id (.loadDataReturn c id) (fun s sh sec o =>
    match o.kind with
    | .load d ia len ea newest =>
      let s1 := s.serveRead c o
      if (s1.firstPoison ((addrs ia len).map (s.servedAt c o.rep))).isSome then
        (s1.landOp c sh sec o [.scalar d 0]).reportPoison c sh sec ea
      else
        let v := if newest then s1.wordNow ia len else natOfBytes (s1.plainBytes o.snap (s.opView c sh sec o) ia len)
        s1.landOp c sh sec o [.scalar d (BitVec.ofNat 64 v)]
    | .vload d a =>
      let s0 := if a.mask = 0#3 then s else a.shares.foldl (fun s p => (s.touchShare p.1 o.z).1) s
      let s1 := s0.serveRead c o
      let r := s1.vecLoad a o.snap (s.opView c sh sec o) (s0.servedAt c o.rep)
      let s2 := s1.landOp c sh sec o ({ r with bad := none }.dests d a.mask)
      match r.bad with | some va => s2.reportPoison c sh sec va | none => s2
    | _ => s)

/-- Mark a store of the own-write set as applied (R304). -/
def Stream.markApplied (x : Stream) (id now : Nat) : Stream :=
  { x with own := x.own.map (fun w => if w.id = id && !w.job then { w with applied := some now } else w) }

/-- STORE_APPLIED (R69, R84, R85, R121, R126, R187, R203): the requests that were sent on no port are dropped. Those whose port
has left the up state since, while another leads there or it comes back, stay outstanding until they time out: R85 does not
say what becomes of them, and that is the model's choice (assumption 76). -/
def execStoreApplied (c : CoreId) (id : Nat) (s : State) : Answer :=
  s.withGrants c id (.storeApplied c id) (fun s sh sec o =>
    match o.kind with
    | .store bytes fresh host =>
      let r := s.writeReady (.storeApplied c id) (bytes.map (·.1))
      if r.2 then
        let lost := o.ports.filter (fun p => p.2.isNone)
        let rest := o.ports.filter (fun p => match p.2 with | some i => !s.portUp i | none => false)
        let of := fun (ps : List (Nat × Option Nat)) (b : Nat × Byte) => ps.any (fun p => p.1 = b.1 / 256)
        let s1 := r.1.agentWrite ((((r.1.core c).bankCtx sh)).writer c sec) (bytes.filter (fun b => !of lost b && !of rest b)) o.nt
        let s2 := lost.foldl (fun s p => s.dropRequest p.2) s1
        s2.updBankStream c sh sec (fun x =>
          if rest = [] then (x.endOp o).markApplied id s2.now
          else x.updOp id (fun o => { o with kind := .store (bytes.filter (of rest)) fresh host, ports := rest }))
      else r.1.afterN 1 (.storeApplied c id)
    | _ => s)

/-- FAddAtomic (R205): to nearest even, no flags, the first NaN quieted, and the canonical NaN for an invalid
operation. -/
def faddAtomic (w : Nat) (a b : Nat) : Nat :=
  let fm := fmtOfWidth w
  let x := fm.decode a
  let y := fm.decode b
  ((firstNan fm [x, y]).getD (deliver fm .rne false 0 (addVal .rne x y))).1

/-- AtomOp (R205): the new value of w bits. -/
def atomNew (f w old b : Nat) : Nat :=
  let lt := fun (x y : Int) => decide (x ≤ y)
  match f with
  | 0 => (old + b) % 2 ^ w
  | 1 => old &&& b
  | 2 => old ||| b
  | 3 => old ^^^ b
  | 4 => if lt (toSigned w old) (toSigned w b) then old else b
  | 5 => if lt (toSigned w b) (toSigned w old) then old else b
  | 6 => if old ≤ b then old else b
  | 7 => if b ≤ old then old else b
  | 8 => b
  | _ => faddAtomic w old b

/-- What an atomic writes, from the old value: none where a compare fails (R205, R206). -/
def AtomKind.write (k : AtomKind) (w old b : Nat) : Option Nat :=
  match k with
  | .op f => some (atomNew f.toNat w old b)
  | .cas e => if old = e.toNat % 2 ^ w then some b else none

/-- An operation of a stream has its first half done, with the value that the hub read (R207). -/
def Stream.readHalf (x : Stream) (id old : Nat) : Stream :=
  x.updOp id (fun o => { o with half := some old })

/-- ATOMIC_PERFORMED (R69, R121, R204 to R207): indivisible but on the host window with a scope narrower than .sys, where the
hub's read comes first and its write in a later cycle. -/
def execAtomicPerformed (c : CoreId) (id : Nat) (s : State) : Answer :=
  s.withGrants c id (.atomicPerformed c id) (fun s sh sec o =>
    match o.kind with
    | .atomic d ia ea k wide b _ =>
      let n := if wide then 8 else 4
      let r := s.writeReady (.atomicPerformed c id) (addrs ia n)
      if r.2 then
        let s1 := r.1.serveRead c o
        if (s1.firstPoison (addrs ia n)).isSome then
          ((s1.landOp c sh sec o [.scalar d 0]).reportPoison c sh sec ea).firmwareAgain
        else if o.kind.inHalves && o.half.isNone then
          (s1.updBankStream c sh sec (fun x => x.readHalf id (s1.wordNow ia n))).after (.atomicPerformed c id)
        else
          let old := if o.kind.inHalves then o.half.getD (s1.wordNow ia n) else s1.wordNow ia n
          let s2 := match k.write (8 * n) old (b.toNat % 2 ^ (8 * n)) with
            | some v => s1.agentWrite (((s1.core c).bankCtx sh).writer c sec) (atAddr ia (bytesOfNat n v)) o.nt
            | none => s1.snoopsUsed (addrs ia n)
          (s2.landOp c sh sec o [.scalar d (BitVec.ofNat 64 old)]).firmwareAgain
      else r.1.afterN 1 (.atomicPerformed c id)
    | _ => s)

/-- An access of an operation fails on its link (R85): reads give poison, a write is dropped and counted by drop. -/
def State.failOp (s : State) (c : CoreId) (id : Nat) (drop : State → State) : State :=
  match (s.core c).opBank id with
  | some (sh, sec, o) =>
    match o.kind with
    | .load d _ _ ea _ => (s.landOp c sh sec o [.scalar d 0]).reportPoison c sh sec ea
    | .vload d a =>
      let n := szBytes a.sz
      let all := a.elems.foldl (fun (q : Nat × Nat) i =>
        (q.1 + (2 ^ (8 * n) - 1) <<< (8 * n * i), if n = 1 then q.2 ||| 2 ^ (i / 2) else q.2 ||| coverBits (8 * n) i)) (0, 0)
      (s.landOp c sh sec o ({ img := 0, written := all.1, ok := all.2, bad := none : VLoad }.dests d a.mask)).reportPoison
        c sh sec (a.va (a.elems.headD 0))
    | .store .. => (drop s).updBankStream c sh sec (fun x => (x.endOp o).markApplied id s.now)
    | .atomic d _ ea _ _ _ _ => (s.landOp c sh sec o [.scalar d 0]).reportPoison c sh sec ea
    | .page d _ _ => s.landOp c sh sec o [.scalar d 1]
  | none => s

/-! ### Residency and page requests (R65 to R67, R208) -/

/-- A core's residency cache records a share (R67). -/
def Core.confirm (k : Core) (sh : Nat) : Core := { k with resCache := addRecent 256 k.resCache sh }

/-- RESIDENCY_ANSWER (R65, R67). -/
def execResidencyAnswer (c : CoreId) (sec : Bool) (s : State) : Answer :=
  match (s.stream c sec).hold with
  | .residency sh z =>
    let r := s.touchShare sh z
    let s1 := r.1.updStream c sec (fun x => { x with answers := aput x.answers sh r.2 })
    .next (if r.2 then s1.updCore c (fun k => k.confirm (s1.confirmKey sh)) else s1)
  | _ => .next s

/-- The firmware makes a share resident (R65, R208): a share of a peer becomes present there. -/
def State.bringIn (s : State) (ia : Nat) : State :=
  let sh := s.place ia
  match regionOf sh with
  | .peerPkg _ => s.updHub (fun h => { h with peerAbsent := h.peerAbsent.filter (· ≠ shareOf sh) })
  | _ => (s.mapPointers sh).mapShare sh false

/-- PAGE_REQUEST_SETTLED (R208): first touch comes first in a window with Z; the firmware maps the rest unless it
declines. -/
def execPageRequestSettled (c : CoreId) (id : Nat) (declined : Bool) (s : State) : Answer :=
  match (s.core c).opBank id with
  | some (sh, sec, o) =>
    match o.kind with
    | .page d ia len =>
      if 2 ^ 30 < len then .next (s.landOp c sh sec o [.scalar d 2])
      else
        let shares := if logged (regionOf ia) then sharesIn ia len else []
        let s1 := shares.foldl (fun s a => (s.touchShare a o.z).1) s
        let s2 := if declined then s1 else shares.foldl (fun s a => if s.resident a then s else s.bringIn a) s1
        let ok := shares.all s2.resident
        .next (s2.landOp c sh sec o [.scalar d (if ok then 0 else 1)])
    | _ => .next s
  | none => .next s

/-- POOL_REFILL (R65): the firmware refills the pools of a home from its free frames; while it has none it tries again. -/
def execPoolRefill (h : CoreId) (s : State) : Answer :=
  let s1 := s.updHome h Home.fill
  .next (if (s1.home h).pool8.length < 256 || (s1.home h).pool64.length < 256 then s1.after (.poolRefill h) else s1)

/-- An address belongs to the share of the leaf that holds an IA (R62): the whole of it, of a 64 KiB or a 2 MiB page. -/
def State.inLeafOf (s : State) (ia a : Nat) : Bool :=
  match s.leafOf ia with
  | some (3, _) => bigShare a = bigShare ia
  | _ => shareOf a = shareOf ia

/-- What a residency cache records names that share, or a part of it. -/
def State.namesLeafOf (s : State) (ia key : Nat) : Bool :=
  match s.leafOf ia with
  | some (3, _) => bigShare key = bigShare ia
  | _ => key = shareOf ia || key = bigShare ia

/-- Some operation under way touches the share of the leaf that holds an IA, or its home holds a write of its page (R63, R69). -/
def State.shareInUse (s : State) (ia : Nat) : Bool :=
  s.allOps.any (fun o => o.kind.addrs.any (fun a => s.inLeafOf ia (s.place a))) ||
    (s.home (homeOf ia)).held.any (fun q => q.1 = s.pageOf ia && s.agenda.any (fun p => p.2 = q.2))

/-- The firmware may unmap the share (R63, R79): a present leaf without PIN. -/
def State.mayUnmap (s : State) (ia : Nat) : Bool :=
  pagedHere (regionOf ia) && !s.hostVisible ia &&
    (match s.leafOf ia with
     | some (_, e) => !e.getLsbD 2
     | none => false)

/-- What a stream has been told of some shares is taken back (R63). -/
def Stream.forget (x : Stream) (hit : Nat → Bool) : Stream := { x with answers := x.answers.filter (fun p => !hit p.1) }

/-- Every residency cache, and every answer that a held bundle has had, forgets some shares (R63, R67). -/
def State.forgetShares (s : State) (hit : Nat → Bool) : State :=
  [(0 : CoreId), 1, 2, 3, 4, 5, 6, 7].foldl (fun s c => s.updCore c (fun k =>
    { k with resCache := k.resCache.filter (fun a => !hit a)
             ctx := { k.ctx with prim := k.ctx.prim.forget hit, sec := k.ctx.sec.forget hit }
             shadow := { k.shadow with prim := k.shadow.prim.forget hit, sec := k.shadow.sec.forget hit } })) s

/-- The firmware unmaps a share (R63): it takes PIN away; every residency cache drops the share; once the home has completed
every access it accepted it takes the frame back. -/
def State.unmapShare (s : State) (ia : Nat) : State :=
  let s1 := s.updHome (homeOf ia) (fun m => m.unpin ia)
  if s.shareInUse ia then s1.afterN 1 (.shareUnmap (homeOf ia) ia)
  else (s1.forgetShares (fun k => s.namesLeafOf ia (s.place k))).updHome (homeOf ia) (fun m => m.unmap ia)

/-- SHARE_UNMAP (R63). -/
def execShareUnmap (h : CoreId) (ia : Nat) (s : State) : Answer :=
  .next (if homeOf ia ≠ h || !s.mayUnmap ia then s else s.unmapShare ia)

/-! ### Replicas (R68 to R70) -/

/-- A window of a context is enabled, replicable, and holds an IA (R55, R68). -/
def Ctx.replicates (x : Ctx) (ia : Nat) : Bool :=
  [(0 : Fin 8), 1, 2, 3, 4, 5, 6, 7].any (fun n => winEnabled x.win n && attrRep (winAttr x.win n) &&
    winOff x.win n ≤ ia && ia < winOff x.win n + winSize x.win n)

/-- A page is written or read through a replicable window: one of a context that is live or of a task that is not (R68). -/
def State.replicable (s : State) (ia : Nat) : Bool :=
  [(0 : CoreId), 1, 2, 3, 4, 5, 6, 7].any (fun c => (s.core c).ctx.replicates ia || (s.core c).shadow.replicates ia) ||
    s.tasks.any (fun t => t.start.replicates ia)

/-- A home holds a present level-4 leaf for a copy of a page (R68). -/
def State.copyLeaf (s : State) (c : CoreId) (page : Nat) : Bool :=
  match (walk (s.home c).pte page).1 with
  | .leaf 4 _ => true
  | _ => false

/-- A copy of a page is placed in a home: pointers, a frame with its leaf, and the page's bytes, free of errors (R65, R68). -/
def State.placeCopy (s : State) (page : Nat) (c : CoreId) : State :=
  let lo := 2 ^ 52 * (c.val + 1) + page / 65536 * 65536
  let keep := fun (l : List Nat) => l.filter (fun a => !(lo ≤ a && a < lo + 65536))
  let s1 := s.updHome c (fun m => (m.pointers page).mapLeaf page false)
  { s1 with poison := keep s1.poison, flips := keep s1.flips, fatals := keep s1.fatals }

/-- REPLICA_PLACE (R68): RMASK names the homes that have room for a copy of the 64 KiB page. -/
def execReplicaPlace (h : CoreId) (page : Nat) (copies : BitVec 8) (s : State) : Answer :=
  match regionOf page, s.leafOf page with
  | .stack _, some (4, _) =>
    if homeOf page = h && s.replicable page then
      let s1 := (coresOf (copies &&& ~~~coreBit h)).foldl (fun s c => s.placeCopy page c) s
      let m := (coresOf (copies &&& ~~~coreBit h)).foldl (fun m c => if s1.copyLeaf c page then m ||| coreBit c else m) 0
      .next (s1.setRmask page m)
    else .next s
  | _, _ => .next s

/-- A copy has acknowledged the invalidation of a line: once every copy has, RMASK is clear and the held write may apply
(R69). -/
def State.copyGone (s : State) (h : CoreId) (line : Nat) (copy : CoreId) : State :=
  match aget (s.home h).invalidating line with
  | none => s
  | some m =>
    let left := m &&& ~~~coreBit copy
    let s1 := s.cancelEvent (.replicaFence h line copy)
    if left = 0 then (s1.updHome h (fun q => { q with invalidating := adel q.invalidating line })).setRmask line 0
    else s1.updHome h (fun q => { q with invalidating := aput q.invalidating line left })

/-- REPLICA_INVALIDATION_ACK (R69). -/
def execReplicaInvalidationAck (h : CoreId) (line : Nat) (copy : CoreId) (s : State) : Answer :=
  .next (s.copyGone h line copy)

/-- A copy's leaf at a home is marked not present, and its frame handed back (R70). -/
def Home.dropCopy (m : Home) (ia : Nat) : Home :=
  let q := match (walk m.pte ia).1 with
    | .leaf 4 _ => m.unmap ia
    | _ => m
  { q with pte := tput 0 q.pte (pteKey 4 ia) 0 }

/-- REPLICA_FENCE (R70, R81): the copy's home is logged to the firmware. -/
def execReplicaFence (h : CoreId) (line : Nat) (copy : CoreId) (s : State) : Answer :=
  match aget (s.home h).invalidating line with
  | none => .next s
  | some m =>
    if m.getLsbD copy.val then
      let s1 := (s.updHome copy (fun q => q.dropCopy line)).setHestat h 2
      let s2 := (s1.setRmask line (s1.rmask line &&& ~~~coreBit copy)).msix 0
      let s3 := s2.updHub (fun q => { q with reports := q.reports ++ [.copyFenced h (s.pageOf line) (coreBit copy)] })
      .next (((s3.cancelEvent (.replicaInvalidationAck h line copy))).copyGone h line copy)
    else .next s

/-! ### Patrols and corrections (R72, R123, R124) -/

/-- HBM_PATROL_READ (R72, R73): every word of the line is checked, and the words that it corrects are rewritten. -/
def execHbmPatrolRead (line : Nat) (s : State) : Answer :=
  let u := lineOf line
  let h := markHome u
  if !(pagedHere (regionOf u) || 2 ^ 52 ≤ u) || s.poison.contains u then .next s
  else
    let s1 := s.updHome h (fun m => { m with hecnt := satAdd m.hecnt 0 32 (s.flipsIn u) })
    let s2 := { s1 with flips := s1.flips.filter (fun w => lineOf w ≠ u || s1.fatals.contains w) }
    if s.fatalsIn u = 0 then .next s2
    else
      let s3 := s2.updHome h (fun m => { m with hecnt := satAdd m.hecnt 48 12 (s.fatalsIn u) })
      .next ({ s3 with fatals := s3.fatals.filter (fun w => lineOf w ≠ u) }.addPoison u |>.markUe u)

/-- HBM_REFRESH_SCRUB (R72, R74): the counts read after a refresh window. -/
def execHbmRefreshScrub (h : CoreId) (count : Nat) (s : State) : Answer :=
  .next (s.updHome h (fun m => { m with hecnt := satAdd m.hecnt 32 16 count }))

/-! ### The sub-banks of a slice (R121) -/

/-- REMOTE_SLICE_REQUEST (R121): each requester has one request at a sub-bank; a further one waits in its port. -/
def execRemoteSliceRequest (c : CoreId) (bank requester : Nat) (s : State) : Answer :=
  if (s.core c).remote.any (fun r => r.bank = bank && r.requester = requester) then
    .next (s.afterN 1 (.remoteSliceRequest c bank requester))
  else if bank < 256 && requester ≤ 8 && requester ≠ c.val then
    .next (s.updCore c (fun k => { k with remote := k.remote ++ [{ bank := bank, requester := requester, arrived := s.now }] }))
  else .next s

/-- The request that a sub-bank serves next: the oldest, and of equal age the lowest requester (R121). -/
def nextRemote (l : List RemoteReq) (bank : Nat) : Option RemoteReq :=
  (l.filter (fun r => r.bank = bank)).foldl (fun (o : Option RemoteReq) r =>
    match o with
    | none => some r
    | some q => if r.arrived < q.arrived || (r.arrived = q.arrived && r.requester < q.requester) then some r else some q) none

/-- A sub-bank may grant a remote request in this cycle: one a cycle, an aged one before the feed (R121). -/
def State.mayGrant (s : State) (c : CoreId) (bank : Nat) : Bool :=
  match nextRemote (s.core c).remote bank with
  | some r => if r.arrived + 9 ≤ s.now then !(s.core c).granted.contains bank else !s.bankTaken c bank
  | none => false

/-- The first operation of a stream that waits for a sub-bank has its grant (R121). -/
def Stream.bankGranted (x : Stream) (w : CoreId × Nat) : Stream :=
  match x.ops.find? (fun o => o.waits.contains w) with
  | some o => { x with ops := x.ops.map (fun p => if p.id = o.id then { p with waits := p.waits.erase w } else p) }
  | none => x

/-- A stream has an operation that waits for a sub-bank. -/
def Stream.waitsFor (x : Stream) (w : CoreId × Nat) : Bool := x.ops.any (fun o => o.waits.contains w)

/-- A job waits for a sub-bank. -/
def Job.waitsFor (j : Job) (w : CoreId × Nat) : Bool := (j.waits.getD []).contains w

/-- The first job of a list that waits for a sub-bank has its grant (R121). -/
def jobsGranted (w : CoreId × Nat) : List Job → List Job
  | [] => []
  | j :: r => if j.waitsFor w then { j with waits := j.waits.map (fun l => l.erase w) } :: r else j :: jobsGranted w r

/-- The same for the jobs of a core's live context, then for its copies of packets (R121). -/
def Core.jobGranted (k : Core) (w : CoreId × Nat) : Core :=
  if k.ctx.jobs.any (fun j => j.waitsFor w) then { k with ctx := { k.ctx with jobs := jobsGranted w k.ctx.jobs } }
  else { k with packetJobs := jobsGranted w k.packetJobs }

/-- The core that asked has its grant: its oldest operation that waits for the sub-bank, of the live context first, then a job of
its engines (R121). -/
def State.bankGranted (s : State) (q : CoreId) (w : CoreId × Nat) : State :=
  let k := s.core q
  if k.ctx.prim.waitsFor w then s.updBankStream q false false (fun x => x.bankGranted w)
  else if k.ctx.sec.waitsFor w then s.updBankStream q false true (fun x => x.bankGranted w)
  else if k.shadow.prim.waitsFor w then s.updBankStream q true false (fun x => x.bankGranted w)
  else if k.shadow.sec.waitsFor w then s.updBankStream q true true (fun x => x.bankGranted w)
  else s.updCore q (fun k => k.jobGranted w)

/-- The first access that waits at the hub for a sub-bank has its grant (R121). -/
def hubGranted (w : CoreId × Nat) : List (Instr × List (CoreId × Nat)) → List (Instr × List (CoreId × Nat))
  | [] => []
  | p :: r => if p.2.contains w then (p.1, p.2.erase w) :: r else p :: hubGranted w r

/-- An aged request takes a sub-bank before the slice transfer, which loses a cycle (R121). -/
def State.putOffTransfer (s : State) (c : CoreId) : State :=
  { s.updCore c (fun k => { k with xferAt := k.xferAt + 1 }) with
    agenda := s.agenda.map (fun e => if e.2 = .sliceTransferEnd c then (e.1 + 1, e.2) else e) }

/-- REMOTE_REQUEST_GRANT (R121). -/
def execRemoteRequestGrant (c : CoreId) (bank : Nat) (s : State) : Answer :=
  match nextRemote (s.core c).remote bank with
  | some r =>
    if s.mayGrant c bank then
      let s0 := if (s.core c).xferTakes s.now bank then s.putOffTransfer c else s
      let s1 := s0.updCore c (fun k => { k with remote := k.remote.erase r }.grant bank)
      .next (if h : r.requester < 8 then s1.bankGranted ⟨r.requester, h⟩ (c, bank)
        else s1.updHub (fun q => { q with hubWaits := hubGranted (c, bank) q.hubWaits }))
    else .next s
  | none => .next s

/-- A collective's event takes the sub-banks of its accesses in its cycle (R118; assumption 28). -/
def State.banksUsed (s : State) (as : List Nat) : State :=
  (slicePlaces as).foldl (fun s w => s.updCore w.1 (fun k => k.grant w.2)) s

/-- An access from outside to slices takes their sub-banks: its requests go out once, and it waits for their grants (R118, R121). -/
def State.hubTakes (s : State) (e : Instr) (as : List Nat) : State × Bool :=
  match s.hub.hubWaits.find? (fun p => p.1 = e) with
  | some w => if w.2 = [] then (s.updHub (fun h => { h with hubWaits := h.hubWaits.erase w }), true) else (s, false)
  | none =>
    let bs := slicePlaces (as.map s.place)
    if bs = [] then (s, true)
    else ((bs.foldl (fun s b => s.afterN 0 (.remoteSliceRequest b.1 b.2 8)) s).updHub (fun h => { h with hubWaits := h.hubWaits ++ [(e, bs)] }),
      false)

/-- ctl.spdiag.RAW of a core, which suspends the patrol and the rewriting of corrected words (R411). -/
def Core.raw (k : Core) : Bool := k.spdiag.getLsbD 2

/-- SLICE_PATROL_READ (R121, R124): a word is read in a cycle in which nothing else takes its sub-bank. -/
def execSlicePatrolRead (c : CoreId) (word : Nat) (s : State) : Answer :=
  let bank := (slicePlace (8 * word)).index
  if 8 * word < sliceBytes && !s.bankTaken c bank && !(s.core c).raw then
    .next ((s.noteWord (sliceBase c.val + 8 * word)).updCore c (fun k =>
      { k with patrol := if word = k.patrol % (sliceBytes / 8) then k.patrol + 1 else k.patrol }.grant bank))
  else .next s

/-- SLICE_WORD_WRITEBACK (R121, R123): a corrected word is rewritten in a cycle in which its sub-bank is free. -/
def execSliceWordWriteback (c : CoreId) (word : Nat) (s : State) : Answer :=
  let u := sliceBase c.val + 8 * word
  let bank := (slicePlace (8 * word)).index
  if (s.core c).writeback.contains u && !s.bankTaken c bank && !(s.core c).raw then
    .next { s.updCore c (fun k => { k with writeback := k.writeback.filter (· != u) }.grant bank) with flips := s.flips.filter (· != u) }
  else .next s

end Sys2Proof.Machine
end

