-- ==== Sys2Proof/Machine/Sync.lean ====
section
/-! DEFINITION. Phase boundaries, release and acquire, waiting on a word, and shadow reports (R300 to R316, R368,
R369). -/

namespace Sys2Proof.Machine

/-! ### Domains (R300 to R302) -/

/-- The level at which a boundary of a level acts (R302). -/
def effectiveLevel (domain : Word) (level : BitVec 3) : Nat :=
  let podv := domain.getLsbD 40
  let sysv := domain.getLsbD 41
  match level.toNat with
  | 5 => if sysv then 5 else if podv then 4 else 3
  | 4 => if podv then 4 else 3
  | n => n

/-- The cores of a core's own domain at a level (R300, R301). -/
def Ctx.domainOf (x : Ctx) (c : CoreId) (level : Nat) : List CoreId :=
  match level with
  | 1 => [c]
  | 2 => coresOf (x.domain.extractLsb' 0 8 ||| coreBit c)
  | _ => coresOf (x.domain.extractLsb' 8 8 ||| coreBit c)

/-- The group of a level 4 or 5 (R301). -/
def Ctx.groupOf (x : Ctx) (level : Nat) : Nat := if level = 4 then getBits x.domain 16 12 else getBits x.domain 28 12

/-- All that a stream issued before a boundary has drained (R310, R373): chk waits for SPAN jobs too. -/
def Ctx.drained (x : Ctx) (sec chk : Bool) : Bool :=
  let y := x.stream sec
  y.ld = 0 && y.st = 0 && y.at_ = 0 && y.tl = 0 && !x.jobs.any (fun j => j.sec == sec && (chk || !j.span))

/-- A stream that waits at a boundary: its level and whether it is a checkpoint, whether it has arrived. -/
def Stream.boundary (x : Stream) : Option (BitVec 3 × Bool × Bool) :=
  match x.hold with
  | .phase l chk arrived none => some (l, chk, arrived)
  | _ => none

/-- Every check of the work that a stream issued has reported, and none reports a failure (R310). -/
def Stream.checked (x : Stream) (now : Nat) : Bool := x.pending = [] && x.checks ≤ now && !x.reporting false

/-- A stream has arrived at the n-th boundary of an effective level, or does not take part in it (R302, R311): one that has
halted arrives once its work has drained and is checked; one that the firmware has stopped stays a member that does not
(R300). -/
def Ctx.arrivedAt (x : Ctx) (sec : Bool) (level : Nat) (n : BitVec 32) (chk : Bool) (now : Nat) : Bool :=
  let y := x.stream sec
  if y.stopped.isSome then false
  else if y.live then
    match y.boundary with
    | some (l, _, a) => a && effectiveLevel x.domain l = level && y.count level = n
    | none => false
  else if y.halted then x.drained sec chk && y.checked now
  else true

/-- The boundaries of two cores at a level match (R301, R302, R342): their domains agree, or both follow the same DOMJ
(assumption 16). -/
def State.sameBoundary (s : State) (c m : CoreId) (level : Nat) : Bool :=
  (s.ctx m).domainOf m level = (s.ctx c).domainOf c level || (s.ctx m).joins.toList.getD level 0 = (s.ctx c).joins.toList.getD level 0

/-- Every member of a core's own domain at a level has arrived at the n-th boundary (R301, R310); chk is a checkpoint,
for which a halted stream's SPAN jobs have completed too (R373). -/
def State.allArrived (s : State) (c : CoreId) (level : Nat) (n : BitVec 32) (chk : Bool) : Bool :=
  ((s.ctx c).domainOf c level).all (fun m =>
    (s.core m).live && (s.ctx m).task = (s.ctx c).task && (s.ctx m).arrivedAt false level n chk s.now &&
      (s.ctx m).arrivedAt true level n chk s.now &&
      ((!(s.ctx m).prim.live && !(s.ctx m).sec.live) || s.sameBoundary c m level))

/-! ### Group barriers (R311, R380, R381) -/

/-- The devices of a group, in rank order (R380). -/
def Group.devices (g : Group) : List (Nat × Nat) := (g.ranks.map (fun r => (r.1, r.2.1))).eraseDups

/-- Pod and pod device number of this device (R178). -/
def State.device (s : State) : Nat × Nat := (s.hub.settings.pod.toNat, s.hub.settings.podDevice.toNat)

/-- The striker that numbers a group: of the pod of its rank 0 (R380). -/
def Group.striker (g : Group) : Nat := (g.ranks.head?.map (·.1)).getD 0

/-- A group by its number. -/
def State.group (s : State) (n : Nat) : Option Group := s.hub.groups.find? (fun g => g.number = n)

/-- The pair index under which a group's barrier of an index is numbered (R380; the model's own). -/
def barrierIndex (b : Nat) : Nat := 2 ^ 32 + b

/-- A pair at its striker. -/
def State.pair (s : State) (group index : Nat) : Option Pair :=
  s.hub.strikers.findSome? (fun k => k.2.pairs.find? (fun p => p.group = group && p.index = index))

/-- The barrier of a group that a boundary needs has completed: the one that stands, or the one after it (R311, R373). -/
def State.barrierDone (s : State) (group ahead : Nat) : Bool :=
  match s.group group with
  | none => false
  | some g => !g.closed && (match s.pair group (barrierIndex (g.barrier + ahead)) with
      | some p => p.state = .completed
      | none => false)

/-- A request of this device goes to its striker (R381, R383); while it has no answer it is repeated to the standby, first after
50 µs (R384). who: the rank, or for a barrier the device. -/
def State.askStrike (s : State) (group index who : Nat) (d : StrikeDesc) : State :=
  let s1 := (s.updHub (fun h =>
    { h with asked := if h.asked.contains (group, index, who, d) then h.asked else h.asked ++ [(group, index, who, d)] })).after
      (.strikeRequest group index who d)
  if s1.agenda.any (fun e => e.2 = .strikeRequestRetry group index) then s1 else s1.afterN 80000 (.strikeRequestRetry group index)

/-- This device asks its striker for a barrier of a group (R311, R381). -/
def State.joinBarrier (s : State) (group ahead : Nat) : State :=
  match s.group group with
  | none => s
  | some g =>
    (s.updHub (fun h => { h with groups := h.groups.map (fun q =>
        if q.number = group then { q with joined := q.barrier + ahead + 1 } else q) })).askStrike
      group (barrierIndex (g.barrier + ahead)) (g.devices.findIdx (· = s.device))
        { op := 6, fmt := 0, red := 0, n := 0, root := 0, failed := g.closed }

/-! ### PHASE and CHKPT (R309 to R311, R373) -/

/-- The stream issues its boundary bundle once released; until then it is held, and keeps its arrival. A bundle that another
slot holds after the release does not meet the boundary again (R310). -/
def State.atBoundary (s : State) (d : BitVec 6) (level : BitVec 3) (chk : Bool) : State :=
  match s.cur.hold with
  | .phase l k a (some w) =>
    if l = level && k == chk then
      s.emit 2 (.scalar d (if chk then w else (s.cur.count (effectiveLevel s.curCtx.domain level)).setWidth 64))
    else s.holdFor (.phase level chk a none)
  | .phase l k a none => s.holdFor (.phase level chk (a && l = level && k == chk) none)
  | _ =>
    match s.cur.passed.filter (fun q => q.1 = s.cur.pc) with
    | some (_, w) => s.emit 2 (.scalar d (if chk then w else (s.cur.count (effectiveLevel s.curCtx.domain level)).setWidth 64))
    | none => s.holdFor (.phase level chk false none)

/-- PHASE (R309, R310). -/
def execPhase (d : BitVec 6) (level : BitVec 3) (s : State) : Answer := .next (s.atBoundary d level false)

/-- CHKPT (R373). -/
def execChkpt (d : BitVec 6) (level : BitVec 3) (s : State) : Answer := .next (s.atBoundary d level true)

/-- A stream has drained before its boundary and may arrive: no trap is pending, and the shadow checks of its
vector instructions have reported (R310, R369). -/
def State.mayArrive (s : State) (c : CoreId) (sec : Bool) : Bool :=
  let x := s.ctx c
  let y := x.stream sec
  (s.core c).live && y.live && y.checked s.now &&
    (match y.boundary with
     | some (_, chk, false) => x.drained sec chk
     | _ => false)

/-- The level-3 members of a boundary of levels 4 and 5 have all arrived, the last of them by arriving or by halting, and
the device has not joined the group's barrier for it (R311). -/
def State.mayJoin (s : State) (c : CoreId) (sec : Bool) : Bool :=
  match (s.stream c sec).boundary with
  | some (l, chk, true) =>
    let e := effectiveLevel (s.ctx c).domain l
    4 ≤ e && (s.group ((s.ctx c).groupOf e)).any (fun g => g.joined ≤ g.barrier) &&
      s.allArrived c e ((s.stream c sec).count e) chk
  | _ => false

/-- PHASE_ARRIVAL (R310, R311): a drained stream arrives; at levels 4 and 5 the device joins the group's barrier once its
level-3 members have arrived. -/
def execPhaseArrival (c : CoreId) (sec : Bool) (s : State) : Answer :=
  match (s.stream c sec).boundary with
  | some (l, chk, _) =>
    if s.mayArrive c sec then .next (s.updStream c sec (fun x => { x with hold := .phase l chk true none }))
    else if s.mayJoin c sec then .next (s.joinBarrier ((s.ctx c).groupOf (effectiveLevel (s.ctx c).domain l)) 0)
    else .next s
  | none => .next s

/-- The task of a core's live context. -/
def State.taskOf (s : State) (c : CoreId) : Option Task := s.tasks.find? (fun t => t.key = (s.ctx c).task)

/-- Change a task. -/
def State.updTask (s : State) (key : Nat) (f : Task → Task) : State :=
  { s with tasks := s.tasks.map (fun t => if t.key = key then f t else t) }

/-- A checkpoint of the task on a core is under way. -/
def State.copyingOf (s : State) (c : CoreId) : Nat := ((s.taskOf c).map (·.copying)).getD 0

/-- A boundary of a stream may complete (R310, R311, R373): 0 not, 1 its arrivals are complete, 2 the barrier behind
a checkpoint's copies is complete. -/
def State.boundaryReady (s : State) (c : CoreId) (sec : Bool) : Nat :=
  let x := s.ctx c
  match (x.stream sec).boundary with
  | some (l, chk, true) =>
    let e := effectiveLevel x.domain l
    let ok := (s.core c).live && s.allArrived c e ((x.stream sec).count e) chk
    match s.copyingOf c with
    | 0 => if ok && (e ≤ 3 || s.barrierDone (x.groupOf e) 0) then 1 else 0
    | 2 => if ok && s.barrierDone (x.groupOf e) 1 then 2 else 0
    | _ => 0
  | _ => 0

/-- The members, live on this device, that a boundary of an effective level releases: those at it whose own domain
has arrived (R301, R310). -/
def State.released (s : State) (c : CoreId) (level : Nat) (n : BitVec 32) : List (CoreId × Bool) :=
  ((s.ctx c).domainOf c level).flatMap (fun m => [false, true].filterMap (fun b =>
    if (s.stream m b).live && (s.ctx m).arrivedAt b level n false s.now && s.allArrived m level n false then some (m, b) else none))

/-- Release a member (R302, R303, R310): its snapshot point is this cycle and its count rises. -/
def State.release (s : State) (m : CoreId × Bool) (level : Nat) (status : Word) : State :=
  s.updStream m.1 m.2 (fun x =>
    match x.hold with
    | .phase l chk a _ =>
      { (x.setSnap s.now).setCount level (x.count level + 1) with hold := .phase l chk a (some status) }
    | _ => x)

/-- The barriers of a group that a boundary has used up. -/
def State.passBarriers (s : State) (group n : Nat) : State :=
  s.updHub (fun h => { h with groups := h.groups.map (fun g => if g.number = group then { g with barrier := g.barrier + n } else g) })

/-- Release every member with one status. -/
def State.releaseAll (s : State) (c : CoreId) (level : Nat) (n : BitVec 32) (status : Word) (barriers : Nat) : State :=
  let ms := s.released c level n
  let s1 := ms.foldl (fun s m => s.release m level status) s
  (if 4 ≤ level then s1.passBarriers ((s.ctx c).groupOf level) barriers else s1).trimLog

/-- The status of a checkpoint boundary that acts as PHASE only: checkpoints off on a member core 2, a member at a
PHASE or a core of the placement left out 3; none where a checkpoint is taken (R373). -/
def State.checkpointStatus (s : State) (c : CoreId) (level : Nat) (ms : List (CoreId × Bool)) : Option Word :=
  let cores := (s.ctx c).domainOf c level
  if cores.any (fun m => !(s.ctx m).chk.getLsbD 0) then some 2
  else if ms.any (fun m => match (s.stream m.1 m.2).boundary with | some (_, k, _) => !k | none => false) ||
    (coresOf (s.ctx c).placed).any (fun m => !cores.contains m) then some 3
  else none

/-- Half of the area of a core's next checkpoint: its IA (R372, R373). -/
def checkpointArea (x : Ctx) (c : CoreId) : Nat :=
  getBits x.chk 25 27 * 2 ^ 25 + 0x400000 * c.val + (if (getBits x.chk 4 17 + 1) % 2 = 1 then 0x200000 else 0)

/-- The striker of a group records its next number and the indices of every group that it numbers at a checkpoint (R392). -/
def State.markStrikes (s : State) (group icnt : Nat) : State :=
  match s.group group with
  | none => s
  | some g =>
    let next := ((aget s.hub.strikers g.striker).map (·.next)).getD 0
    s.updHub (fun h => { h with
      marks := { group := group, interval := icnt, next := next
                 indices := (h.groups.filter (fun q => q.striker = g.striker)).map (fun q => (q.number, q.barrier, q.counts)) } :: h.marks })

/-- Commit a checkpoint (R371 to R373): the contexts are kept, ICNT rises, a new interval opens, and the entries
older than the previous interval are released. -/
def State.commitCheckpoint (s : State) (c : CoreId) (level : Nat) : State :=
  let task := (s.ctx c).task
  let cores := (s.ctx c).domainOf c level
  let kept := cores.map (fun m => (m.val, s.ctx m))
  let icnt := (getBits (s.ctx c).chk 4 17 + 1) % 2 ^ 17
  let s1 := cores.foldl (fun s m => s.updCtx m (fun x =>
    { x with chk := (putBits x.chk 4 17 (BitVec.ofNat 64 (getBits x.chk 4 17 + 1)) ||| 2) &&& ~~~8 })) s
  let s1 := if 4 ≤ level then s1.markStrikes ((s.ctx c).groupOf level) icnt else s1
  let s2 := s1.updTask task (fun t => { t with checkpoints := ((icnt, kept) :: t.checkpoints).take 2, copying := 0 })
  [(0 : CoreId), 1, 2, 3, 4, 5, 6, 7].foldl (fun s h => s.updHome h (fun m =>
    { m with chkLines := m.chkLines.filter (fun e =>
        e.task ≠ task || e.interval = icnt || (e.interval + 1) % 2 ^ 17 = icnt) })) s2

/-- PHASE_BOUNDARY_COMPLETE (R310, R311, R373): every member is released in this cycle; a checkpoint first has its
contexts copied, in at most 2 µs a core. -/
def execPhaseBoundaryComplete (c : CoreId) (sec : Bool) (s : State) : Answer :=
  match (s.stream c sec).boundary with
  | none => .next s
  | some (l, chk, _) =>
    let e := effectiveLevel (s.ctx c).domain l
    let n := (s.stream c sec).count e
    match s.boundaryReady c sec with
    | 1 =>
      let ms := s.released c e n
      let any := ms.any (fun m => match (s.stream m.1 m.2).boundary with | some (_, k, _) => k | none => false)
      if chk || any then
        match s.checkpointStatus c e ms with
        | some w => .next (s.releaseAll c e n w 1)
        | none => .next ((s.updTask (s.ctx c).task (fun t => { t with copying := 1 })).after
            (.checkpointCopyDone (s.ctx c).task))
      else .next (s.releaseAll c e n 0 1)
    | 2 => .next ((s.commitCheckpoint c e).releaseAll c e n 0 2)
    | _ => .next s

/-! ### REL and ACQ (R312) -/

/-- REL (R312, R316). -/
def execRel (scope : BitVec 3) (s : State) : Answer :=
  let x := s.cur
  let f := match x.hold with | .rel a b => (a, b) | _ => (false, false)
  if x.ld = 0 && x.st = 0 && x.at_ = 0 && x.checks ≤ s.now && !x.reporting true then
    if scope = 5#3 && !f.2 then .next (s.holdFor (.rel true f.2)) else .next s
  else .next (s.holdFor (.rel f.1 f.2))

/-- HOST_WINDOW_FLUSH_COMPLETE (R312). -/
def execHostWindowFlushComplete (c : CoreId) (sec : Bool) (s : State) : Answer :=
  match (s.stream c sec).hold with
  | .rel true _ => .next (s.updStream c sec (fun x => { x with hold := .rel true true }))
  | _ => .next s

/-- ACQ (R303, R312): it sets the snapshot point as it issues. -/
def execAcq (_scope : BitVec 3) (s : State) : Answer := .next ((s.updCur (fun x => x.setSnap s.now)).trimLog)

/-! ### WADDR (R315) -/

/-- WADDR (R195, R203, R315): the word is first read once the stream is frozen. Where a trap becomes pending before that first
read, R315 has no word as last read: that s_d then receives s_b is the model's choice (assumption 43). -/
def execWaddr (d a b n : BitVec 6) (s : State) : Answer :=
  let ea := s.cur.rs a
  .next (s.withScalar ea 8 .read (fun ia attr =>
    if s.cur.ops.any (fun o => o.kind.newest && (o.kind.lines.map s.place).contains (s.place (ia / 64 * 64))) then s.holdFor .order
    else s.freeze (.addr { d := d, va := ea, ia := ia, attr := attr, expect := s.cur.rs b
                           left := if n = 0 then none else some (2 ^ n.toNat), last := s.cur.rs b, poll := 0, sent := none
                           pend := s.cur.pending.length })))

/-- A waiting stream wakes with a word, or with poison (R198, R315). -/
def State.wakeAddr (s : State) (c : CoreId) (sec : Bool) (d : BitVec 6) (va : Word) (v : Option Word) : State :=
  let s1 := s.updStream c sec (fun x => { x with wait := .none }.emit 2 (.scalar d (v.getD 0)))
  match v with
  | some _ => s1
  | none => s1.report c sec { cause := 0x11, tval := va }

/-- The keys of the error marks of a watched word where a core reads it (R68, R315). -/
def State.watchKeys (s : State) (c : CoreId) (w : Watch) : List Nat := (addrs w.ia 8).map (s.servedAt c (attrRep w.attr))

/-- The home that serves a WADDR of a core reads the word, as for an LDG: its line is checked and cached (R68, R71, R315). -/
def State.watchServe (s : State) (c : CoreId) (w : Watch) : State :=
  (s.noteReads (s.watchKeys c w)).cacheTouch (s.servingHome c (s.place w.ia) (attrRep w.attr)) w.ia (attrNt w.attr)

/-- The word as LDG reads it, none for poison (R315). -/
def State.watchRead (s : State) (c : CoreId) (w : Watch) : Option Word :=
  if (s.firstPoison (s.watchKeys c w)).isSome then none else some (BitVec.ofNat 64 (s.wordNow w.ia 8))

/-- A trap has become pending for a stream in WADDR (R315). -/
def State.waddrMet (s : State) (c : CoreId) (sec : Bool) : Bool :=
  match (s.stream c sec).wait with
  | .addr w => w.pend < (s.stream c sec).pending.length
  | _ => false

/-- WADDR_WAKE (R315): a pending trap ends the wait, with the word as last read. -/
def execWaddrWake (c : CoreId) (sec : Bool) (s : State) : Answer :=
  match (s.stream c sec).wait with
  | .addr w => .next (if s.waddrMet c sec then s.wakeAddr c sec w.d w.va (some w.last) else s)
  | _ => .next s

/-- A poll goes out over its link; it is due to complete within 50 ms (R85, R315). -/
def State.sendPoll (s : State) (c : CoreId) (sec : Bool) (w : Watch) : State :=
  let s1 := { s.updStream c sec (fun x => { x with wait := .addr { w with poll := 1600, sent := some (s.nextId, s.now) } }) with nextId := s.nextId + 1 }
  (s1.after (.waddrPoll c sec)).awaitLinks c s.nextId (addrs w.ia 8)

/-- The timeouts of an access are called off: it has completed (R85). -/
def State.linkDone (s : State) (c : CoreId) (id : Nat) : State :=
  (s.cancelEvent (.hostCompletionTimeout c id)).cancelEvent (.peerAccessTimeout c id)

/-- WADDR_POLL (R85, R315): the word is read, at first, after each write to a line that a home or bank watches, every 1,600
cycles in a window of the host or a peer, and after a swap-in; one that differs or is poisoned wakes the stream. Over a link
the request goes out first and the word comes later. -/
def execWaddrPoll (c : CoreId) (sec : Bool) (s : State) : Answer :=
  match (s.stream c sec).wait with
  | .addr w =>
    if !watched (regionOf w.ia) && w.sent.isNone && s.linkUp (regionOf w.ia) then
      .next (if w.poll = 0 then s.sendPoll c sec w else s)
    else
      let s1 := (match w.sent with | some q => s.linkDone c q.1 | none => s).watchServe c w
      match s1.watchRead c w with
      | none => .next (s1.wakeAddr c sec w.d w.va none)
      | some v =>
        if v ≠ w.expect then .next (s1.wakeAddr c sec w.d w.va (some v))
        else .next (s1.updStream c sec (fun x =>
          { x with wait := .addr { w with last := v, poll := if w.sent.isSome then w.poll else 1600, sent := none } }))
  | _ => .next s

/-- A poll whose link has not completed it in 50 ms reads poison (R85, R315). -/
def State.failPoll (s : State) (c : CoreId) (sec : Bool) (id : Nat) : State :=
  match (s.stream c sec).wait with
  | .addr w => if w.sent.any (fun q => q.1 = id && q.2 + accessLimit ≤ s.now) then s.wakeAddr c sec w.d w.va none else s
  | _ => s

/-- WADDR_TIMEOUT (R315): the word as last read. -/
def execWaddrTimeout (c : CoreId) (sec : Bool) (s : State) : Answer :=
  match (s.stream c sec).wait with
  | .addr w => .next (if w.left = some 0 then s.wakeAddr c sec w.d w.va (some w.last) else s)
  | _ => .next s

/-! ### Shadow reports (R368, R369) -/

/-- The record of a divergence of the vector unit of a core: lane, cluster, and whether of a sum (R369). -/
def vectorReport (c : CoreId) (v : Word) : Word := (v &&& 0x200038F) ||| BitVec.ofNat 64 (2 ^ 24 + 2 ^ 26 * c.val)

/-- The record of a divergence of a tile operation: a layer of its mask, the die that serves it, and a step it has taken (R9,
R369). -/
def State.cubeReport (s : State) (c : CoreId) (t : TileOp) (v : Word) : Option Word :=
  let l := getBits v 15 4
  if t.mask.getLsbD l then
    some (shadowRecord c (s.core c).catalogue (getBits v 0 7) (getBits v 7 8) l (v.getLsbD 25) (Nat.min (getBits v 29 24) (t.done - 1)))
  else none

/-- SHADOW_REPORT (R368, R369): a check of work outstanding finds a unit at fault. v names the place: of it the fields are
taken that the state does not give; in the vector unit it is a check of the oldest instruction outstanding that makes one of
its kind, product or sum (assumption 68). A vector report becomes pending 4 stream cycles after its result lands, or at once
while the stream is held by PHASE, REL or CHKPT; one of a tile operation when the operation completes. -/
def execShadowReport (c : CoreId) (sec : Bool) (v : Word) (s : State) : Answer :=
  let x := s.stream c sec
  if v.getLsbD 24 then
    match x.checking.find? (fun k => s.now ≤ k.by_ && (if v.getLsbD 25 then k.sum else k.product)) with
    | none => .next s
    | some k =>
      match x.hold with
      | .phase .. => .next (s.report c sec { cause := 0x06, tval := vectorReport c v })
      | .rel .. => .next (s.report c sec { cause := 0x06, tval := vectorReport c v })
      | _ => .next (s.updStream c sec (fun y =>
          { y with inflight := y.inflight ++ [{ due := k.lands + 4, dest := .report 0x06 (vectorReport c v) }] }))
  else
    match ((s.ctx c).tiles.find? (fun t => t.sec == sec && t.kind = .mma && 0 < t.done)) with
    | none => .next s
    | some t =>
      match s.cubeReport c t v with
      | none => .next s
      | some w => .next (s.updCtx c (fun y => y.updTile t.id (fun u => { u with shadow := u.shadow.orElse (fun _ => some w) })))

end Sys2Proof.Machine
end

