-- ==== Sys2Proof/Machine/Copy.lean ====
section
/-! DEFINITION. Copy engines: the issue of jobs, their checks and footprints, what each kind moves, and completion
(R90 to R115). -/

namespace Sys2Proof.Machine

/-! ### Issue (R93, R94, R103, R104) -/

/-- What an instruction asks the scheduler to do. -/
structure JobReq where
  tag : BitVec 6
  kind : JobKind
  regions : List Region
  cls : BitVec 3
  span : Bool
  nt : Bool
  /-- The value of the register that its word names first (R98). -/
  addr : Word := 0
deriving DecidableEq, Repr

/-- Two regions share a 64-byte line, or are the same pseudo-region (R103, R104). -/
def Region.overlaps (x y : Region) : Bool :=
  match x.table, y.table with
  | some a, some b => a = b
  | none, none => x.lo < x.hi && y.lo < y.hi && x.lo / 64 ≤ (y.hi - 1) / 64 && y.lo / 64 ≤ (x.hi - 1) / 64
  | _, _ => false

/-- The edge from an earlier job to a later one: none, or whether it is read after write (R104). -/
def edgeFrom (earlier later : List Region) : Option Bool :=
  let hits := later.flatMap (fun x => (earlier.filter x.overlaps).map (fun y => (x.wr, y.wr)))
  if hits.any (fun p => p.2 && !p.1) then some true
  else if hits.any (fun p => p.1) then some false
  else none

/-- Stores of the issuing stream that a job's reads are related to and that are not applied yet (R304). -/
def Stream.storesBefore (x : Stream) (regions : List Region) (cls : BitVec 3) : List Nat :=
  (x.ops.filter (fun o => o.kind.writes && !o.kind.newest && (o.cls == cls || o.cls == 0#3 || cls == 0#3) &&
    o.kind.addrs.any (fun a => regions.any (fun r => !r.wr && r.table.isNone && r.lo ≤ a && a < r.hi)))).map (·.id)

/-- The bit of a tag. -/
def tagBit (t : BitVec 6) : Word := BitVec.ofNat 64 (2 ^ t.toNat)

/-- A job of a request, with its edges and the view it reads under (R104, R304). -/
def State.jobOf (s : State) (r : JobReq) : Job :=
  let x := s.curCtx
  { id := s.nextId, tag := r.tag, sec := s.issue.sec, kind := r.kind, cls := r.cls, span := r.span, nt := r.nt
    snap := s.cur.snap, own := s.cur.own, regions := r.regions
    edges := x.jobs.filterMap (fun e => (edgeFrom e.regions r.regions).map (fun b => (e.id, b)))
    stores := s.cur.storesBefore r.regions r.cls, started := false, depFailed := false, engine := none
    cursor := { done := 0, bit := 0, entry := none }, wrote := [], sentAt := 0, addr := r.addr, waits := none }

/-- Put a job into the scheduler: its tag becomes BUSY and cp rises (R93, R94). -/
def State.enterJob (s : State) (j : Job) : State :=
  let s1 := (s.updCurCtx (fun x =>
    { x with jobs := x.jobs ++ [j], tagBusy := x.tagBusy ||| tagBit j.tag
             doneJobs := x.doneJobs.filter (fun d => d.1 ≠ j.tag) })).updCur (fun y => { y with cp := y.cp + 1 })
  let s2 := { s1.clearTagsAtEnd (tagBit j.tag) with nextId := s.nextId + 1
                                                    issue := { s1.issue with tagsNamed := s1.issue.tagsNamed ||| tagBit j.tag, jobs := s1.issue.jobs - 1 } }
  match j.kind with
  | .settled .. => s2.afterN 1 (.jobComplete s.issue.core j.id)
  | _ => s2

/-- IssueJob (R94): a tag in use traps; a scheduler without room for the jobs that the bundle has still to start, or a full
counter, holds the bundle. -/
def State.issueJob (s : State) (r : JobReq) : State :=
  let bit := tagBit r.tag
  if (s.curCtx.tagBusy ||| s.issue.tagsNamed) &&& bit ≠ 0 then s.raise { cause := 0x10, tval := r.tag.setWidth 64 }
  else if 64 < s.curCtx.jobs.length + Nat.max 1 s.issue.jobs then s.holdFor .scheduler
  else if 64 ≤ s.cur.cp then s.holdFor .counter
  else s.enterJob (s.jobOf r)

/-! ### Extents (R57, R100) -/

/-- Translate an extent; one of no bytes is not translated and cannot fail (R100). -/
def State.extent (s : State) (va : Word) (len : Nat) (wr : Bool) : Option Extent :=
  if len = 0 then some { va := va, ia := 0, len := 0, wr := wr, attr := 0 }
  else (translate s.curCtx.win va len (if wr then .write else .read)).map (fun p =>
    { va := va, ia := p.1, len := len, wr := wr, attr := p.2 })

/-- The footprint region of an extent (R103). -/
def Extent.region (e : Extent) : Region := { lo := e.ia, hi := e.ia + e.len, wr := e.wr, table := none }

/-- Two extents overlap in IA (R101). -/
def Extent.meets (a b : Extent) : Bool := a.len ≠ 0 && b.len ≠ 0 && a.ia < b.ia + b.len && b.ia < a.ia + a.len

/-- A job that completes at once (R101): status and ctl.cperr address. -/
def settledReq (tag : BitVec 6) (cls : BitVec 3) (status : Nat) (addr : Word) : JobReq :=
  { tag := tag, kind := .settled status addr, regions := [], cls := cls, span := false, nt := false }

/-- The value of register n of a descriptor group (R99). -/
def State.desc (s : State) (sg n : BitVec 6) : Word := s.cur.rs (sg + n)

/-- Where the rows of an operand start relative to its lowest byte, and the bytes of the hull (R100). -/
def hullOf (rows len : Nat) (stride : Int) : Int × Nat :=
  let last := ((rows - 1 : Nat) : Int) * stride
  (Min.min 0 last, last.natAbs + len)

/-- CPY (R100 to R102). -/
def execCpy (t sg : BitVec 6) (z span nt : Bool) (cls : BitVec 3) (s : State) : Answer :=
  let src := s.desc sg 0
  let dst := s.desc sg 1
  let len := getBits (s.desc sg 2) 0 32
  let rows := getBits (s.desc sg 2) 32 32
  let sstr := ((s.desc sg 3).extractLsb' 0 32).toInt
  let dstr := ((s.desc sg 3).extractLsb' 32 32).toInt
  let sh := hullOf rows len sstr
  let dh := hullOf rows len dstr
  let req : JobReq :=
    if 2 ^ 40 < len * rows || (1 < rows && dstr.natAbs < len) then settledReq t cls 4 src
    else if len = 0 || rows = 0 then settledReq t cls 0 0
    else
      let se := if z then some { va := src, ia := 0, len := 0, wr := false, attr := 0 }
        else s.extent (src + BitVec.ofInt 64 sh.1) sh.2 false
      match se, s.extent (dst + BitVec.ofInt 64 dh.1) dh.2 true with
      | some a, some b =>
        if !z && a.meets b then settledReq t cls 4 src
        else
          { tag := t, kind := .copy a b src dst len rows sstr dstr z
            regions := (if z then [] else [a.region]) ++ [b.region], cls := cls, span := span, nt := nt }
      | _, _ => settledReq t cls 1 0
  .next (s.issueJob req)

/-- An extent lies in the issuing core's own slice (R101). -/
def State.inOwnSlice (s : State) (e : Extent) : Bool := regionOf e.ia = .slice s.issue.core.val

/-- The pseudo-region of a code-table slot (R103). -/
def tableRegion (slot : BitVec 4) (wr : Bool) : Region := { lo := 0, hi := 0, wr := wr, table := some slot }

/-- CPYD (R100, R101, R107). -/
def execCpyd (t sg : BitVec 6) (slot : BitVec 4) (span nt : Bool) (cls : BitVec 3) (s : State) : Answer :=
  let src := s.desc sg 0
  let len := getBits (s.desc sg 2) 0 32
  let clen := getBits (s.desc sg 2) 32 32
  let req : JobReq :=
    if s.desc sg 3 ≠ 0 then settledReq t cls 4 src
    else if len = 0 then settledReq t cls 0 0
    else
      match s.extent src clen false, s.extent (s.desc sg 1) len true with
      | some a, some b =>
        if a.meets b || !s.inOwnSlice b then settledReq t cls 4 src
        else
          { tag := t, kind := .decode a b len clen slot, regions := [a.region, b.region, tableRegion slot false]
            cls := cls, span := span, nt := nt }
      | _, _ => settledReq t cls 1 0
  .next (s.issueJob req)

/-- CPYS (R100, R101, R109): e is log2 of the element size. -/
def execCpys (t sg : BitVec 6) (e : BitVec 2) (span nt : Bool) (cls : BitVec 3) (s : State) : Answer :=
  let src := s.desc sg 0
  let dst := s.desc sg 1
  let g := getBits (s.desc sg 2) 0 32
  let n := szBytes e
  let req : JobReq :=
    if getBits (s.desc sg 2) 32 32 ≠ 0 || src.toNat % n ≠ 0 || dst.toNat % n ≠ 0 then settledReq t cls 4 src
    else if g = 0 then settledReq t cls 0 0
    else
      match s.extent src (2 * g * n) false, s.extent (s.desc sg 3) ((g + 1) / 2) false, s.extent dst (4 * g * n) true with
      | some a, some m, some b =>
        if a.meets b || m.meets b || !s.inOwnSlice b then settledReq t cls 4 src
        else
          { tag := t, kind := .expand a m b g n, regions := [a.region, m.region, b.region], cls := cls, span := span, nt := nt }
      | _, _, _ => settledReq t cls 1 0
  .next (s.issueJob req)

/-- CTAB (R100, R101, R106). -/
def execCtab (t sg : BitVec 6) (slot : BitVec 4) (cls : BitVec 3) (s : State) : Answer :=
  let src := s.desc sg 0
  let req : JobReq :=
    if src.toNat % 64 ≠ 0 then settledReq t cls 4 src
    else
      match s.extent src 128 false with
      | some a => { tag := t, kind := .table a slot, regions := [a.region, tableRegion slot true], cls := cls, span := false, nt := false }
      | none => settledReq t cls 1 0
  .next (s.issueJob req)

/-- EWR (R111): the write lands at the end of the cycle. -/
def execEwr (e : BitVec 4) (a : BitVec 6) (imm : BitVec 14) (s : State) : Answer :=
  .next (s.updCurCore (fun k => { k with endWrites := k.endWrites ++ [.engine s.issue.sec e (s.cur.rs a + imm.signExtend 64)] }))

/-- The used regions of a gather, by number (R110): base, length, written. -/
def gatherRegions (e : Vector Word 16) : List (Word × Nat × Bool) :=
  [0, 1, 2, 3].filterMap (fun j =>
    let b := e.toList.getD (8 + 2 * j) 0
    let l := e.toList.getD (9 + 2 * j) 0
    if getBits l 0 40 = 0 then none else some (b, getBits l 0 40, l.getLsbD 62))

/-- The rules on the engine registers that need no translation (R110). -/
def gatherBad (e : Vector Word 16) : Bool :=
  getBits e[3] 32 32 ≠ 0 || getBits e[4] 32 32 ≠ 0 || getBits e[4] 0 32 = 0 || getBits e[7] 0 2 = 3 || getBits e[7] 9 55 ≠ 0 ||
    [0, 1, 2, 3].any (fun j =>
      let l := e.toList.getD (9 + 2 * j) 0
      getBits l 40 22 ≠ 0 || (getBits l 0 40 ≠ 0 && l.getLsbD 62 == l.getLsbD 63))

/-- EGO (R110, R112). -/
def execEgo (t : BitVec 6) (s : State) : Answer :=
  let e := s.curCtx.e
  let cls := e[7].extractLsb' 6 3
  let req : JobReq :=
    if gatherBad e then settledReq t cls 4 e[0]
    else if getBits e[3] 0 32 = 0 then settledReq t cls 0 0
    else
      match (gatherRegions e).mapM (fun r => s.extent r.1 r.2.1 r.2.2) with
      | none => settledReq t cls 1 0
      | some l =>
        if l.any (fun a => !a.wr && l.any (fun b => b.wr && a.meets b)) then settledReq t cls 4 e[0]
        else
          { tag := t, kind := .gather e l, regions := l.map Extent.region, cls := cls, span := e[7].getLsbD 5, nt := e[7].getLsbD 4 }
  .next (s.issueJob req)

/-- TCLR (R113). -/
def execTclr (d a : BitVec 6) (s : State) : Answer :=
  let v := s.curCtx.tags &&& s.cur.rs a
  .next (((s.emit 2 (.scalar d v)).updCurCtx (fun x => x.observe s.issue.sec v)).clearTagsAtEnd v)

/-! ### Where a job is -/

/-- A job of a context. -/
def Ctx.findJob (x : Ctx) (id : Nat) : Option Job := x.jobs.find? (fun j => j.id = id)

/-- The contexts of a core that their own tasks have swapped out and not staged since (R114, R365, R391). -/
def State.awayOn (s : State) (c : CoreId) : List Ctx :=
  (s.hub.away.filter (fun a => a.2 = c)).filterMap (fun a => aget s.hub.images a.1)

/-- The contexts of a core in memory: those that the scheduler has saved, and those that their tasks have swapped out. -/
def State.savedOn (s : State) (c : CoreId) : List Ctx := s.tasks.filterMap (fun t => aget t.saved c.val) ++ s.awayOn c

/-- The context that holds a job of a core: live, in the shadow bank, or saved (R391). -/
def State.jobCtx (s : State) (c : CoreId) (id : Nat) : Option Ctx :=
  ((s.core c).ctx :: (s.core c).shadow :: s.savedOn c).find? (fun x => (x.findJob id).isSome)

/-- Change the context that holds a job. -/
def State.updJobCtx (s : State) (c : CoreId) (id : Nat) (f : Ctx → Ctx) : State :=
  if ((s.core c).ctx.findJob id).isSome then s.updBank c false f
  else if ((s.core c).shadow.findJob id).isSome then s.updBank c true f
  else
    let tasks := s.tasks.map (fun t => { t with saved := t.saved.map (fun p =>
      if p.1 = c.val && (p.2.findJob id).isSome then (p.1, f p.2) else p) })
    { s with tasks := tasks : State }.updHub (fun h =>
        { h with images := h.images.map (fun p => if h.away.contains (p.1, c) && (p.2.findJob id).isSome then (p.1, f p.2) else p) })

/-- Replace a job of a context. -/
def Ctx.updJob (x : Ctx) (id : Nat) (f : Job → Job) : Ctx := { x with jobs := x.jobs.map (fun j => if j.id = id then f j else j) }

/-! ### Starting (R91, R104, R304) -/

/-- A job needs an engine: collectives run on the hub's engine, and settled jobs on none. -/
def JobKind.needsEngine : JobKind → Bool
  | .settled .. => false
  | .collective .. => false
  | _ => true

/-- A job waits for nothing but an engine: its edges are gone, and the stores it reads after are applied (R104, R304). -/
def Ctx.jobReady (x : Ctx) (j : Job) : Bool :=
  !j.started && j.kind.needsEngine && j.edges = [] && !(x.stream j.sec).ops.any (fun o => j.stores.contains o.id)

/-- An engine of a core that is free (R91), the lowest-numbered first (assumption 77). -/
def State.freeEngine (s : State) (c : CoreId) : Option Nat :=
  let k := s.core c
  let users := k.ctx.jobs ++ k.shadow.jobs ++ (s.savedOn c).flatMap (·.jobs) ++ k.packetJobs
  [0, 1].find? (fun e => !users.any (fun j => j.started && j.engine = some e))

/-- A task drains (R333): its jobs run to their end wherever its contexts are (R114). -/
def State.drains (s : State) (key : Nat) : Bool := s.tasks.any (fun t => t.key = key && t.state = .draining)

/-- The contexts of a core whose jobs may start: the live one while the core runs, and those that a task which drains has left
in the shadow bank or saved (R114, R115). -/
def State.engineCtxs (s : State) (c : CoreId) : List Ctx :=
  let k := s.core c
  (if k.live && k.swapEnd ≤ s.now && !k.sliceBusy then [k.ctx] else []) ++
    (if k.bank = .held && s.drains k.shadow.task then [k.shadow] else []) ++ (s.savedOn c).filter (fun x => s.drains x.task)

/-- The jobs of a core that may start, oldest first in each context, then the copies of packets, which wait for a slice
transfer (R91, R104, R114, R323, R335). Jobs without a pending edge start in any order (R104): oldest first is the model's
choice (assumption 77). -/
def State.readyJobs (s : State) (c : CoreId) : List Job :=
  let free := (s.freeEngine c).isSome
  (s.engineCtxs c).flatMap (fun x => x.jobs.filter (fun j => x.jobReady j && (j.depFailed || free))) ++
    (s.core c).packetJobs.filter (fun j => !j.started && free && !(s.core c).sliceBusy)

/-- Change a copy of a packet. -/
def State.updPacketJob (s : State) (c : CoreId) (id : Nat) (f : Job → Job) : State :=
  s.updCore c (fun k => { k with packetJobs := k.packetJobs.map (fun j => if j.id = id then f j else j) })

/-- A copy of a packet on a core (R323). -/
def Core.packetJob (k : Core) (id : Nat) : Option Job := k.packetJobs.find? (fun j => j.id = id)

/-- Change a job wherever it is. -/
def State.updJob (s : State) (c : CoreId) (id : Nat) (f : Job → Job) : State :=
  if ((s.core c).packetJob id).isSome then s.updPacketJob c id f else s.updJobCtx c id (fun x => x.updJob id f)

/-- The addresses of a job's regions at their ends: what its links are known by. -/
def Job.ends (j : Job) : List Nat := (j.regions.filter (fun r => r.table.isNone && r.lo < r.hi)).map (·.lo)

/-- The requests of a job's next line go out (R85, R91). -/
def State.sendLine (s : State) (c : CoreId) (j : Job) : State :=
  let s1 := (s.cancelEvent (.hostCompletionTimeout c j.id)).cancelEvent (.peerAccessTimeout c j.id)
  ((s1.updJob c j.id (fun q => { q with sentAt := s.now, waits := none })).after (.jobComplete c j.id)).awaitLinks c j.id j.ends

/-- JOB_START (R91, R104, R323): a job that reads after one that failed completes with status 9. -/
def execJobStart (c : CoreId) (id : Nat) (s : State) : Answer :=
  match (s.readyJobs c).find? (fun j => j.id = id) with
  | none => .next s
  | some j =>
    if j.depFailed then
      .next ((s.updJob c id (fun j => { j with started := true, kind := .settled 9 0 })).afterN 1 (.jobComplete c id))
    else .next ((s.updJob c id (fun j => { j with started := true, engine := s.freeEngine c })).sendLine c j)

/-! ### What a job moves (R102, R105 to R109, R112) -/

/-- The view a job reads under: its number and the core of its engine among it. -/
structure JobView where
  id : Nat
  core : CoreId
  snap : Nat
  own : List OwnWrite
  cls : BitVec 3
  nt : Bool
deriving DecidableEq, Repr

/-- A job under way: the state, its writes so far, latest first, the unit read last, and why it stopped: status and
address. -/
structure JobRun where
  s : State
  out : List (Nat × Byte)
  unit : Option Nat
  stop : Option (Nat × Word)
  /-- The addresses read, latest first. -/
  seen : List Nat
  /-- The link that has not completed an access in time: the host's (false) or a peer's (R85). -/
  late : Option Bool
  /-- The code table loaded, with its slot (R106). -/
  table : Option (BitVec 4 × BitVec 1024)
deriving DecidableEq, Repr

/-- The view of a job (R304). -/
def Job.view (j : Job) (c : CoreId) : JobView := { id := j.id, core := c, snap := j.snap, own := j.own, cls := j.cls, nt := j.nt }

/-- A job at its start. -/
def JobRun.start (s : State) : JobRun := { s := s, out := [], unit := none, stop := none, seen := [], late := none, table := none }

/-- Stop with a status (R102). -/
def JobRun.halt (r : JobRun) (status : Nat) (va : Word) : JobRun := if r.stop.isSome then r else { r with stop := some (status, va) }

/-- A share of an access is present after first touch (R65, R66, R102). -/
def JobRun.touch (r : JobRun) (ia : Nat) (z : Bool) : JobRun × Bool :=
  if logged (regionOf ia) then
    let q := r.s.touchShare ia z
    ({ r with s := q.1 }, q.2)
  else (r, true)

/-- An access goes over a link that has timed out (R85). -/
def JobRun.timedOut (r : JobRun) (ia : Nat) : Bool :=
  match r.late with
  | some false => onHost [ia]
  | some true => onPeer [ia]
  | none => false

/-- Read a byte (R85, R102, R304): an absent share stops with 2, poison or a failed link with 3. -/
def JobRun.read (r : JobRun) (v : JobView) (e : Extent) (ia : Nat) (va : Word) : JobRun × Byte :=
  if r.stop.isSome then (r, 0)
  else
    let q := r.touch ia (attrZ e.attr)
    if !q.2 then (q.1.halt 2 va, 0)
    else if r.timedOut ia then (q.1.halt 3 va, 0)
    else
      let u := unitOf ia
      let at_ := q.1.s.servedAt v.core (attrRep e.attr) ia
      let s1 := if q.1.unit = some u then q.1.s
        else ((q.1.s.noteReads [at_]).cacheTouch (q.1.s.servingHome v.core (q.1.s.place ia) (attrRep e.attr)) ia (v.nt || attrNt e.attr)).readLogs v.snap [ia]
      let r1 := { q.1 with s := s1, unit := some u, seen := ia :: q.1.seen }
      if s1.poisoned at_ then (r1.halt 3 va, 0) else (r1, s1.plainByte v.snap (s1.ownBytes v.id v.own v.cls ia 1) ia)

/-- Write a byte (R85, R102): an absent share stops with 2, a failed link with 3. -/
def JobRun.write (r : JobRun) (e : Extent) (ia : Nat) (va : Word) (b : Byte) : JobRun :=
  if r.stop.isSome then r
  else
    let q := r.touch ia (attrZ e.attr)
    if !q.2 then q.1.halt 2 va
    else if r.timedOut ia || !q.1.s.linkUp (regionOf ia) then q.1.halt 3 va
    else { q.1 with out := (ia, b) :: q.1.out }

/-- The IA of an address of an extent. -/
def Extent.iaOf (e : Extent) (va : Word) : Nat := e.ia + (va - e.va).toNat

/-- The source and destination addresses of byte n of a plain copy (R102). -/
def copyAddrs (sva dva : Word) (len : Nat) (sstr dstr : Int) (n : Nat) : Word × Word :=
  let at_ := fun (stride : Int) => BitVec.ofInt 64 (((n / len : Nat) : Int) * stride + ((n % len : Nat) : Int))
  (sva + at_ sstr, dva + at_ dstr)

/-- Byte n of CopyPlain (R102). -/
def copyUnit (v : JobView) (src dst : Extent) (sva dva : Word) (len : Nat) (sstr dstr : Int) (zero : Bool) (n : Nat) (r : JobRun) : JobRun :=
  let a := copyAddrs sva dva len sstr dstr n
  if zero then r.write dst (dst.iaOf a.2) a.2 0
  else
    let q := r.read v src (src.iaOf a.1) a.1
    q.1.write dst (dst.iaOf a.2) a.2 q.2

/-- The code length of a symbol (R105). -/
def codeLen (t : BitVec 1024) (sym : Nat) : Nat := (t.extractLsb' (4 * sym) 4).toNat

/-- The codes of one length in symbol order, from a first code (R105): symbol and code; and the next code. -/
def codesOfLen (t : BitVec 1024) (n code : Nat) : List (Nat × Nat) × Nat :=
  let syms := (List.range 256).filter (fun y => codeLen t y = n)
  (syms.zipIdx.map (fun p => (p.1, code + p.2)), code + syms.length)

/-- The canonical codes from length n on (R105): length, symbol, code; none for an invalid table. -/
def canonical15 (t : BitVec 1024) : Nat → Nat → Nat → Option (List (Nat × Nat × Nat))
  | 0, _, _ => some []
  | k + 1, n, code =>
    let r := codesOfLen t n code
    if 2 ^ n < r.2 then none
    else (canonical15 t k (n + 1) (2 * r.2)).map (fun l => r.1.map (fun p => (n, p.1, p.2)) ++ l)

/-- A code table is valid (R105). -/
def tableValid (t : BitVec 1024) : Bool := t ≠ 0 && (canonical15 t 15 1 0).isSome

/-- Decode one symbol (R107): k more bits may be examined. -/
def decodeSym (v : JobView) (e : Extent) (codes : List (Nat × Nat × Nat)) (clen : Nat) :
    Nat → Nat → Nat → Nat → JobRun → JobRun × Nat × Option Nat
  | 0, i, _, _, r => (r.halt 5 (e.va + BitVec.ofNat 64 ((i - 1) / 8)), i, none)
  | k + 1, i, n, code, r =>
    if r.stop.isSome then (r, i, none)
    else if i = 8 * clen then (r.halt 5 (if clen = 0 then e.va else e.va + BitVec.ofNat 64 (clen - 1)), i, none)
    else
      let q := r.read v e (e.ia + i / 8) (e.va + BitVec.ofNat 64 (i / 8))
      let code' := 2 * code + (if q.2.getLsbD (i % 8) then 1 else 0)
      match codes.find? (fun p => p.1 = n + 1 && p.2.2 = code') with
      | some p => (q.1, i + 1, some p.2.1)
      | none => decodeSym v e codes clen k (i + 1) (n + 1) code' q.1

/-- Byte n of DecodeCopy, from stream bit i on (R106, R107). -/
def decodeUnit (v : JobView) (src dst : Extent) (clen : Nat) (codes : List (Nat × Nat × Nat)) (n i : Nat) (r : JobRun) : JobRun × Nat :=
  if codes = [] then (r.halt 5 src.va, i)
  else
    let d := decodeSym v src codes clen 15 i 0 0 r
    match d.2.2 with
    | some sym => (d.1.write dst (dst.ia + n) (dst.va + BitVec.ofNat 64 n) (BitVec.ofNat 8 sym), d.2.1)
    | none => (d.1, d.2.1)

/-- Move the e bytes of one value, or zeros (R109). -/
def moveElem (v : JobView) (src : Option (Extent × Nat)) (dst : Extent) (o e : Nat) (r : JobRun) : JobRun :=
  let q := match src with
    | none => (r, List.replicate e (0 : Byte))
    | some (x, p) => foldUp e (fun (q : JobRun × List Byte) b =>
        let y := q.1.read v x (x.ia + p + b) (x.va + BitVec.ofNat 64 (p + b))
        (y.1, q.2 ++ [y.2])) (r, [])
  (q.2.zipIdx).foldl (fun r p => r.write dst (dst.ia + o + p.2) (dst.va + BitVec.ofNat 64 (o + p.2)) p.1) q.1

/-- The metadata entry of group g: its positions must rise strictly (R108, R109). -/
def expandEntry (v : JobView) (pos : Extent) (g : Nat) (r : JobRun) : JobRun × Nat :=
  let ma := pos.va + BitVec.ofNat 64 (g / 2)
  let q := r.read v pos (pos.ia + g / 2) ma
  let m := q.2.toNat / 16 ^ (g % 2) % 16
  (if m / 4 ≤ m % 4 then q.1.halt 6 ma else q.1, m)

/-- Element n of ExpandCopy, under the metadata entry of its group (R109). -/
def expandUnit (v : JobView) (vals dst : Extent) (e m n : Nat) (r : JobRun) : JobRun :=
  let g := n / 4
  let src := if n % 4 = m % 4 then some (vals, 2 * g * e) else if n % 4 = m / 4 then some (vals, (2 * g + 1) * e) else none
  moveElem v src dst (n * e) e r

/-- The region of the right kind that an address lies in (R112). -/
def regionAt (l : List Extent) (wr : Bool) (va : Word) : Option Extent :=
  l.find? (fun e => e.wr == wr && (va - e.va).toNat < e.len)

/-- Read a byte inside a declared region; outside every one the job stops with 8 (R112). -/
def JobRun.gatherRead (r : JobRun) (v : JobView) (l : List Extent) (va : Word) : JobRun × Byte :=
  match regionAt l false va with
  | none => (r.halt 8 va, 0)
  | some e => r.read v e (e.iaOf va) va

/-- Write a byte inside a declared region (R112). -/
def JobRun.gatherWrite (r : JobRun) (l : List Extent) (va : Word) (b : Byte) : JobRun :=
  match regionAt l true va with
  | none => r.halt 8 va
  | some e => r.write e (e.iaOf va) va b

/-- The index of row i of GatherScatter, as its bytes stand (R110, R112). -/
def gatherEntry (v : JobView) (e : Vector Word 16) (l : List Extent) (i : Nat) (r : JobRun) : JobRun × Nat :=
  let n := 2 <<< getBits e[7] 0 2
  let ix := foldUp n (fun (q : JobRun × List Byte) b =>
    let y := q.1.gatherRead v l (e[2] + BitVec.ofNat 64 (i * n + b))
    (y.1, q.2 ++ [y.2])) (r, [])
  (ix.1, natOfBytes ix.2)

/-- The source and destination rows of row i under an index (R112). -/
def gatherRows (e : Vector Word 16) (i raw : Nat) : Word × Word :=
  let x : Int := if e[7].getLsbD 2 then toSigned (8 * (2 <<< getBits e[7] 0 2)) raw else raw
  let far := fun (str : Word) => BitVec.ofInt 64 (x * str.toInt)
  let near := fun (str : Word) => BitVec.ofInt 64 ((i : Int) * str.toInt)
  if e[7].getLsbD 3 then (e[0] + near e[5], e[1] + far e[6]) else (e[0] + far e[5], e[1] + near e[6])

/-- Byte n of GatherScatter, under the index of its row (R112). -/
def gatherUnit (v : JobView) (e : Vector Word 16) (l : List Extent) (raw n : Nat) (r : JobRun) : JobRun :=
  let b := BitVec.ofNat 64 (n % getBits e[4] 0 32)
  let a := gatherRows e (n / getBits e[4] 0 32) raw
  let q := r.gatherRead v l (a.1 + b)
  q.1.gatherWrite l (a.2 + b) q.2

/-- TableLoad (R105, R106). -/
def tableUnit (v : JobView) (src : Extent) (slot : BitVec 4) (r : JobRun) : JobRun :=
  let q := foldUp 128 (fun (q : JobRun × List Byte) b =>
    let y := q.1.read v src (src.ia + b) (src.va + BitVec.ofNat 64 b)
    (y.1, q.2 ++ [y.2])) (r, [])
  let t := BitVec.ofNat 1024 (natOfBytes q.2)
  if q.1.stop.isSome then q.1
  else if tableValid t then { q.1 with table := some (slot, t) }
  else q.1.halt 7 src.va

/-! ### A job, one destination line at a time (R91, R102, R115) -/

/-- How many units of its destination a job writes: bytes, or the elements of an expansion. -/
def JobKind.units (k : JobKind) : Nat :=
  match k with
  | .copy _ _ _ _ len rows .. => len * rows
  | .decode _ _ len .. => len
  | .expand _ _ _ g _ => 4 * g
  | .table .. => 1
  | .gather e _ => getBits e[3] 0 32 * getBits e[4] 0 32
  | _ => 0

/-- The units that one entry of metadata or one index serves, 0 where there is none. -/
def JobKind.perEntry (k : JobKind) : Nat :=
  match k with
  | .expand .. => 4
  | .gather e _ => getBits e[4] 0 32
  | _ => 0

/-- Read the entry that the next unit needs, where it has not been read yet (R109, R112). -/
def JobKind.prepare (k : JobKind) (v : JobView) (u : JobCursor) (r : JobRun) : JobRun × JobCursor :=
  if k.perEntry = 0 || u.entry.isSome then (r, u)
  else
    let q := match k with
      | .expand _ pos _ _ _ => expandEntry v pos (u.done / 4) r
      | .gather e l => gatherEntry v e l (u.done / getBits e[4] 0 32) r
      | _ => (r, 0)
    (q.1, { u with entry := some q.2 })

/-- The destination line of the next unit, by virtual address: windows begin at multiples of 64 KiB, so it is a line of the IA
too (R55). -/
def JobKind.lineAt (k : JobKind) (u : JobCursor) : Nat :=
  match k with
  | .copy _ _ sva dva len _ sstr dstr _ => (copyAddrs sva dva len sstr dstr u.done).2.toNat / 64
  | .decode _ dst .. => (dst.va + BitVec.ofNat 64 u.done).toNat / 64
  | .expand _ _ dst _ e => (dst.va + BitVec.ofNat 64 (e * u.done)).toNat / 64
  | .gather e _ =>
    ((gatherRows e (u.done / getBits e[4] 0 32) (u.entry.getD 0)).2 + BitVec.ofNat 64 (u.done % getBits e[4] 0 32)).toNat / 64
  | _ => 0

/-- The next unit of a job (R102, R106, R107, R109, R112). -/
def JobKind.unit (k : JobKind) (v : JobView) (codes : List (Nat × Nat × Nat)) (u : JobCursor) (r : JobRun) : JobRun × JobCursor :=
  let q := match k with
    | .copy src dst sva dva len _ sstr dstr zero => (copyUnit v src dst sva dva len sstr dstr zero u.done r, u.bit)
    | .decode src dst _ clen _ => decodeUnit v src dst clen codes u.done u.bit r
    | .expand vals _ dst _ e => (expandUnit v vals dst e (u.entry.getD 0) u.done r, u.bit)
    | .table src slot => (tableUnit v src slot r, u.bit)
    | .gather e l => (gatherUnit v e l (u.entry.getD 0) u.done r, u.bit)
    | _ => (r, u.bit)
  (q.1, { done := u.done + 1, bit := q.2, entry := if k.perEntry ≠ 0 && (u.done + 1) % k.perEntry = 0 then none else u.entry })

/-- Run a job on to the end of its destination line, n units at most: line is the one that it is in (R91, R115). -/
def JobKind.runFrom (k : JobKind) (v : JobView) (codes : List (Nat × Nat × Nat)) :
    Nat → Option Nat → JobCursor → JobRun → JobRun × JobCursor
  | 0, _, u, r => (r, u)
  | n + 1, line, u, r =>
    let p := k.prepare v u r
    if p.1.stop.isSome || (line.isSome && line ≠ some (k.lineAt p.2)) then p
    else
      let q := k.unit v codes p.2 p.1
      if q.1.stop.isSome then q else JobKind.runFrom k v codes n (some (k.lineAt p.2)) q.2 q.1

/-- The canonical codes of the slot that a job names (R105, R106). -/
def JobKind.codes (k : JobKind) (x : Ctx) : List (Nat × Nat × Nat) :=
  match k with
  | .decode _ _ _ _ slot => let t := x.codes.toList.getD slot.toNat 0; if t = 0 then [] else (canonical15 t 15 1 0).getD []
  | _ => []

/-- The next line of a job under a view: late names a link that has timed out (R85, R91, R115). -/
def Job.line (j : Job) (x : Ctx) (v : JobView) (late : Option Bool) (s : State) : JobRun × JobCursor :=
  j.kind.runFrom v (j.kind.codes x) (j.kind.units - j.cursor.done) none j.cursor { JobRun.start s with late := late }

/-! ### Completion (R95, R98, R104) -/

/-- ctl.cperr after a status (R98). -/
def cperrAfter (old : Word) (tag : BitVec 6) (status : Nat) (va : Word) : Word :=
  if 2 ≤ status && status ≤ 8 && !old.getLsbD 63 then 1#1 ++ tag ++ va.extractLsb' 0 57 else old

/-- The writes of a job for own-write sets, the latest first: each line left the set of later reads once a snapshot point came
at or after its application (R304). out is its last line, applied now. -/
def Job.writes (j : Job) (out : List (Nat × Byte)) (now : Nat) : List OwnWrite :=
  ((now, out) :: j.wrote).map (fun p => { id := j.id, bytes := p.2, cls := j.cls, job := true, applied := some p.1 })

/-- A job completes in its context: status, tag, counter, error record, edges (R95, R98, R104). ws: its writes. -/
def Ctx.endJob (x : Ctx) (j : Job) (status : Nat) (va : Word) (ws : List OwnWrite) : Ctx :=
  let y := x.updStream j.sec (fun t => { t with cp := if t.opBase ≤ j.id then t.cp - 1 else t.cp })
  { y with
    jobs := (x.jobs.filter (fun k => k.id ≠ j.id)).map (fun k =>
      if k.edges.any (fun e => e.1 = j.id) then
        { k with edges := k.edges.filter (fun e => e.1 ≠ j.id)
                 depFailed := k.depFailed || (status ≠ 0 && k.edges.any (fun e => e.1 = j.id && e.2))
                 own := ws ++ k.own }
      else k)
    tagBusy := x.tagBusy &&& ~~~tagBit j.tag
    tags := x.tags ||| tagBit j.tag
    tagStatus := x.tagStatus.set j.tag.toNat (BitVec.ofNat 4 status) j.tag.isLt
    cperr := cperrAfter x.cperr j.tag status va
    doneJobs := ws.map (fun w => (j.tag, j.sec, w)) ++ x.doneJobs }

/-- Complete a job with its last writes applied (R91, R95). -/
def State.finishJob (s : State) (c : CoreId) (x : Ctx) (j : Job) (status : Nat) (va : Word) (out : List (Nat × Byte)) : State :=
  let s1 := s.agentWrite (x.writer c j.sec) out j.nt
  s1.updJobCtx c j.id (fun x => x.endJob j status va (j.writes out s1.now))

/-- The copy of a packet ends: its status waits for the firmware in the packet's last field (R97, R323). -/
def State.finishPacketJob (s : State) (c : CoreId) (id status : Nat) (out : List (Nat × Byte)) : State :=
  let s1 := (s.agentWrite Writer.outside out false).updCore c (fun k => { k with packetJobs := k.packetJobs.filter (fun j => j.id ≠ id) })
  (s1.updHub (fun h => { h with packets := h.packets.map (fun p => if p.key = id then { p with last := BitVec.ofNat 64 (status + 1) } else p) })).after
    (.copyPacket id)

/-- Where a job is: a context of the core, with the job (R114, R391); none for the copy of a packet (R323). -/
def State.findJob (s : State) (c : CoreId) (id : Nat) : Option (Option Ctx × Job) :=
  match (s.jobCtx c id).bind (fun x => (x.findJob id).map (fun j => (some x, j))) with
  | some q => some q
  | none => ((s.core c).packetJob id).map (fun j => (none, j))

/-- The view that a job reads under now: that of its issue, or for the copy of a packet the newest values (R304, R323). -/
def State.jobView (s : State) (c : CoreId) (x : Option Ctx) (j : Job) : JobView :=
  match x with
  | some _ => j.view c
  | none => { j.view c with snap := s.now }

/-- The line of a job is applied, and the job goes on with its next line or ends (R91, R95, R106, R115). -/
def State.endLine (s : State) (c : CoreId) (x : Option Ctx) (j : Job) (r : JobRun) (u : JobCursor) : State :=
  let out := r.out.reverse
  if r.stop.isSome || j.kind.units ≤ u.done then
    let status := (r.stop.map (·.1)).getD 0
    match x with
    | none => s.finishPacketJob c j.id status out
    | some x =>
      let s1 := match r.table with
        | some (slot, t) => s.updJobCtx c j.id (fun y => { y with codes := y.codes.set slot.toNat t slot.isLt })
        | none => s
      s1.finishJob c x j status ((r.stop.map (·.2)).getD 0) out
  else
    let w := match x with | some x => x.writer c j.sec | none => Writer.outside
    ((s.agentWrite w out j.nt).updJob c j.id (fun j => { j with cursor := u, wrote := (s.now, out) :: j.wrote })).sendLine c j

/-- A job takes the sub-banks that its line still needs: those of its core's own slice as far as they are free, with the rank of a
copy; those of other cores' slices it asks for, and they are granted as to any remote request (R118, R121). The state, and
whether it needs none any more. -/
def State.jobTakes (s : State) (c : CoreId) (j : Job) (as : List Nat) : State × Bool :=
  let all := slicePlaces (as.map s.place)
  let s1 := if j.waits.isSome then s
    else (all.filter (fun w => w.1 ≠ c)).foldl (fun s w => s.after (.remoteSliceRequest w.1 w.2 c.val)) s
  let need := j.waits.getD all
  let b := s1.takeBanks false (need.filter (fun w => w.1 = c))
  let left := need.filter (fun w => w.1 ≠ c) ++ b.2
  (b.1.updJob c j.id (fun j => { j with waits := some left }), left = [])

/-- A job moves its next line (R91, R115): once it has had the sub-banks of the line (R118, R121), and its writes wait for copies
and for the host (R69, R79). With a link that has timed out it stops at its first access over that link (R85). -/
def State.moveLine (s : State) (c : CoreId) (x : Option Ctx) (j : Job) (late : Option Bool) (e : Instr) : State :=
  let q := j.line (x.getD Ctx.reset) (s.jobView c x j) late s
  if late.isSome && q.1.stop.isNone then s
  else if x.isNone && (s.core c).sliceBusy then s.afterN 1 e
  else
    let b := s.jobTakes c j (q.1.seen ++ q.1.out.map (·.1))
    let w := b.1.writeReady e (q.1.out.map (·.1))
    if late.isNone && !b.2 then b.1.afterN 1 e
    else if !w.2 then w.1.afterN 1 e
    else
      let r := j.line (x.getD Ctx.reset) (s.jobView c x j) late w.1
      r.1.s.endLine c x j r.1 r.2

/-- JOB_COMPLETE (R91, R95, R115): the engine has moved the next destination line of its job; with the last one the job
completes. -/
def execJobComplete (c : CoreId) (id : Nat) (s : State) : Answer :=
  match s.findJob c id with
  | none => .next s
  | some (x, j) =>
    match j.kind, x with
    | .settled status addr, some x => .next (s.finishJob c x j status addr [])
    | _, _ => if j.started then .next (s.moveLine c x j none (.jobComplete c id)) else .next s

/-- A job whose line has waited 50 ms for a link stops with status 3 (R85, R97). -/
def State.timeOutJob (s : State) (c : CoreId) (id : Nat) (peer : Bool) (e : Instr) : State :=
  match s.findJob c id with
  | none => s
  | some (x, j) => if j.started && j.sentAt + accessLimit ≤ s.now then s.moveLine c x j (some peer) e else s

end Sys2Proof.Machine
end

