-- ==== Sys2Proof/Machine/VecFloat.lean ====
section
/-! DEFINITION. The floating-point arithmetic of the V slots, majors 1 to 13, and RED (R211 to R217, R233). -/

namespace Sys2Proof.Machine

/-- A two-operand operation that rounds once (R138, R142, R144, R149, R212). -/
def fpBinary (fm : Fmt) (mode : RMode) (ex : Bool) (op : FVal → FVal → Option FVal) (a b : Nat) : Nat × BitVec 7 :=
  let x := fm.operand ex a
  let y := fm.operand ex b
  let r := (firstNan fm [x.1, y.1]).getD (deliver fm mode ex 0 (op x.1 y.1))
  (r.1, r.2 ||| x.2 ||| y.2)

/-- Exact difference (R148). -/
def subVal (mode : RMode) (x y : FVal) : Option FVal := addVal mode x y.negate

/-- A masked two-operand floating-point instruction. -/
def State.fpVector (s : State) (d : BitVec 6) (a b : BitVec 7) (m : BitVec 3) (t : Bool)
    (f : Nat → Nat → Nat × BitVec 7) : Answer :=
  let w := typeWidth t
  let x := s.vsrc a .flt w
  let y := s.vsrc b .flt w
  s.putF 4 d (vmap w (s.ven m w) false s.gens (fun _ i => f (x i) (y i)))

/-- FADD (R212). -/
def execFadd (d : BitVec 6) (a b : BitVec 7) (m : BitVec 3) (t : Bool) (s : State) : Answer :=
  s.fpVector d a b m t (fpBinary (fmtOfWidth (typeWidth t)) s.rmode s.exposed (addVal s.rmode))

/-- FSUB (R212). -/
def execFsub (d : BitVec 6) (a b : BitVec 7) (m : BitVec 3) (t : Bool) (s : State) : Answer :=
  s.fpVector d a b m t (fpBinary (fmtOfWidth (typeWidth t)) s.rmode s.exposed (subVal s.rmode))

/-- FMUL (R212). -/
def execFmul (d : BitVec 6) (a b : BitVec 7) (m : BitVec 3) (t : Bool) (s : State) : Answer :=
  s.fpVector d a b m t (fpBinary (fmtOfWidth (typeWidth t)) s.rmode s.exposed mulVal)

/-- A fused operation (R144, R145, R213): negP negates the product and negC the addend. -/
def fpFused (fm : Fmt) (mode : RMode) (ex negP negC : Bool) (a b c : Nat) : Nat × BitVec 7 :=
  let x := fm.operand ex a
  let y := fm.operand ex b
  let z := fm.operand ex c
  let sum := (mulVal x.1 y.1).bind (fun p =>
    addVal mode (if negP then p.negate else p) (if negC then z.1.negate else z.1))
  let nan := if x.1.isNan || y.1.isNan then firstNan fm [x.1, y.1, z.1] else firstNan fm [z.1]
  let r := nan.getD (deliver fm mode ex 0 sum)
  (r.1, r.2 ||| x.2 ||| y.2 ||| z.2)

/-- A fused instruction: c names v0 to v31 and there is no mask (R213). -/
def State.fpFusedVector (s : State) (d : BitVec 6) (a b : BitVec 7) (c : BitVec 5) (t negP negC : Bool) : Answer :=
  let w := typeWidth t
  let x := s.vsrc a .flt w
  let y := s.vsrc b .flt w
  let z := s.vsrc (c.setWidth 7) .flt w
  s.putF 4 d (vmap w allOn false s.gens
    (fun _ i => fpFused (fmtOfWidth w) s.rmode s.exposed negP negC (x i) (y i) (z i)))

/-- FMA (R213). -/
def execFma (d : BitVec 6) (a b : BitVec 7) (c : BitVec 5) (t : Bool) (s : State) : Answer :=
  s.fpFusedVector d a b c t false false

/-- FMS (R213). -/
def execFms (d : BitVec 6) (a b : BitVec 7) (c : BitVec 5) (t : Bool) (s : State) : Answer :=
  s.fpFusedVector d a b c t false true

/-- FNMA (R213). -/
def execFnma (d : BitVec 6) (a b : BitVec 7) (c : BitVec 5) (t : Bool) (s : State) : Answer :=
  s.fpFusedVector d a b c t true false

/-! ### Minimum and maximum (R214) -/

/-- The bits of an operand as they stand after the flush of exposed mode (R149, R214). -/
def Fmt.flushBits (fm : Fmt) (ex : Bool) (bits : Nat) : Nat :=
  if ex && fm.subnormal bits then bits / 2 ^ (fm.e + fm.f) * 2 ^ (fm.e + fm.f) else bits

/-- The place of a number in the order with −0 below +0 (R214). -/
def Fmt.orderKey (fm : Fmt) (bits : Nat) : Int :=
  let mag := bits % 2 ^ (fm.e + fm.f)
  if bits / 2 ^ (fm.e + fm.f) % 2 = 1 then -(mag : Int) - 1 else mag

/-- FMIN and FMAX on elements (R214). -/
def fpMinMax (fm : Fmt) (ex mx num : Bool) (a b : Nat) : Nat × BitVec 7 :=
  let x := fm.operand ex a
  let y := fm.operand ex b
  let ab := fm.flushBits ex a
  let bb := fm.flushBits ex b
  let fl := x.2 ||| y.2
  match firstNan fm [x.1, y.1] with
  | some r =>
    if num && x.1.isNan != y.1.isNan then (if x.1.isNan then bb else ab, r.2 ||| fl)
    else (r.1, r.2 ||| fl)
  | none =>
    let less := decide (fm.orderKey ab < fm.orderKey bb)
    (if less = mx then bb else ab, fl)

/-- FMIN (R214). -/
def execFmin (d : BitVec 6) (a b : BitVec 7) (m : BitVec 3) (num t : Bool) (s : State) : Answer :=
  s.fpVector d a b m t (fpMinMax (fmtOfWidth (typeWidth t)) s.exposed false num)

/-- FMAX (R214). -/
def execFmax (d : BitVec 6) (a b : BitVec 7) (m : BitVec 3) (num t : Bool) (s : State) : Answer :=
  s.fpVector d a b m t (fpMinMax (fmtOfWidth (typeWidth t)) s.exposed true num)

/-! ### Sign, class, compare, scale -/

/-- A masked one-operand instruction without flags, on FP32 or FP64 bits. -/
def State.fpBits (s : State) (d : BitVec 6) (a : BitVec 7) (m : BitVec 3) (t : Bool) (f : Nat → Nat) : Answer :=
  let w := typeWidth t
  let x := s.vsrc a .flt w
  .next (s.putV 4 d (vmap w (s.ven m w) false s.gens (fun _ i => (f (x i), 0))))

/-- FABS (R215). -/
def execFabs (d : BitVec 6) (a : BitVec 7) (t : Bool) (m : BitVec 3) (s : State) : Answer :=
  s.fpBits d a m t (fun x => x % 2 ^ (typeWidth t - 1))

/-- FNEG (R215). -/
def execFneg (d : BitVec 6) (a : BitVec 7) (t : Bool) (m : BitVec 3) (s : State) : Answer :=
  s.fpBits d a m t (fun x => x ^^^ 2 ^ (typeWidth t - 1))

/-- The class of encoded bits (R215). -/
def fpClass (fm : Fmt) (bits : Nat) : Nat :=
  match fm.decode bits with
  | .nan _ q _ => if q then 2 ^ 9 else 2 ^ 8
  | .inf n => if n then 2 ^ 0 else 2 ^ 7
  | .fin n m _ =>
    if m = 0 then (if n then 2 ^ 3 else 2 ^ 4)
    else if fm.subnormal bits then (if n then 2 ^ 2 else 2 ^ 5)
    else (if n then 2 ^ 1 else 2 ^ 6)

/-- FCLASS (R215). -/
def execFclass (d : BitVec 6) (a : BitVec 7) (t : Bool) (m : BitVec 3) (s : State) : Answer :=
  s.fpBits d a m t (fpClass (fmtOfWidth (typeWidth t)))

/-- The place of a number in the order with −0 equal to +0 (R216). -/
def Fmt.valueKey (fm : Fmt) (bits : Nat) : Int :=
  let mag := bits % 2 ^ (fm.e + fm.f)
  if bits / 2 ^ (fm.e + fm.f) % 2 = 1 then -(mag : Int) else mag

/-- FCMP on elements (R216). -/
def fpCompare (fm : Fmt) (ex : Bool) (cond a b : Nat) : Bool × BitVec 7 :=
  let x := fm.operand ex a
  let y := fm.operand ex b
  let un := x.1.isNan || y.1.isNan
  let ka := fm.valueKey (fm.flushBits ex a)
  let kb := fm.valueKey (fm.flushBits ex b)
  let r := match cond with
    | 0 => !un && ka = kb
    | 1 => un || ka ≠ kb
    | 2 => !un && ka < kb
    | 3 => !un && ka ≤ kb
    | 4 => un
    | _ => !un
  let nv := if cond = 2 ∨ cond = 3 then un else x.1.isSnan || y.1.isSnan
  (r, flagIf nv fNV ||| x.2 ||| y.2)

/-- FCMP (R210, R216). -/
def execFcmp (cond k : BitVec 3) (a b : BitVec 7) (m : BitVec 3) (t : Bool) (s : State) : Answer :=
  let w := typeWidth t
  let x := s.vsrc a .flt w
  let y := s.vsrc b .flt w
  let r := mmap w (s.ven m w) (fun i => fpCompare (fmtOfWidth w) s.exposed cond.toNat (x i) (y i))
  .next ((s.putM 4 k r).emit 4 (.flags r.flags))

/-- FSCL on elements (R217): n is already clamped. -/
def fpScale (fm : Fmt) (mode : RMode) (ex : Bool) (a : Nat) (n : Int) : Nat × BitVec 7 :=
  let x := fm.operand ex a
  match firstNan fm [x.1] with
  | some r => (r.1, r.2 ||| x.2)
  | none =>
    let r := match x.1 with
      | .fin neg m e => roundFin fm mode .dflt ex 0 neg m (e + n)
      | _ => (a, 0)
    (r.1, r.2 ||| x.2)

/-- FSCL (R217). -/
def execFscl (d : BitVec 6) (a b : BitVec 7) (m : BitVec 3) (t : Bool) (s : State) : Answer :=
  let w := typeWidth t
  let x := s.vsrc a .flt w
  let y := s.vsrc b .int w
  s.putF 4 d (vmap w (s.ven m w) false s.gens
    (fun _ i => fpScale (fmtOfWidth w) s.rmode s.exposed (x i) (Max.max (-(2 ^ 20)) (Min.min (toSigned w (y i)) (2 ^ 20)))))

/-! ### RED (R233) -/

/-- Combine neighbouring elements: none with y gives y. -/
def redPairs (f : Nat → Nat → Nat × BitVec 7) : List (Option Nat) → List (Option Nat) × BitVec 7
  | some x :: some y :: r =>
    let o := f x y
    let t := redPairs f r
    (some o.1 :: t.1, o.2 ||| t.2)
  | some x :: none :: r => let t := redPairs f r; (some x :: t.1, t.2)
  | none :: y :: r => let t := redPairs f r; (y :: t.1, t.2)
  | l => (l, 0)

/-- n rounds of combining. -/
def redTree (f : Nat → Nat → Nat × BitVec 7) : Nat → List (Option Nat) → Option Nat × BitVec 7
  | 0, l => (l.headD none, 0)
  | n + 1, l =>
    let t := redPairs f l
    let u := redTree f n t.1
    (u.1, t.2 ||| u.2)

/-- Combine of R233 and its identity, by format code and operation 0 sum, 1 max, 2 min. -/
def redOp (f : Nat) (mode : RMode) (ex : Bool) (g : Nat) : (Nat → Nat → Nat × BitVec 7) × Nat :=
  let w := fmtWidth f
  if f ≤ 1 then
    let fm := fmtOfWidth w
    match g with
    | 0 => (fpBinary fm mode ex (addVal mode), 0)
    | 1 => (fpMinMax fm ex true false, fm.inf true)
    | _ => (fpMinMax fm ex false false, fm.inf false)
  else
    match g with
    | 0 => (fun x y => ((x + y) % 2 ^ w, 0), 0)
    | 1 => (fun x y => (ofSigned w (Max.max (toSigned w x) (toSigned w y)), 0), 2 ^ (w - 1))
    | _ => (fun x y => (ofSigned w (Min.min (toSigned w x) (toSigned w y)), 0), 2 ^ (w - 1) - 1)

/-- RED (R233): the write is not masked. -/
def execRed (d : BitVec 6) (a : BitVec 7) (f : BitVec 5) (r m : BitVec 3) (g : BitVec 2) (s : State) : Answer :=
  let w := fmtWidth f.toNat
  let n := 1024 / w
  let x := s.vsrc a (if f.toNat ≤ 1 then .flt else .int) w
  let on := s.ven m w
  let op := redOp f.toNat (s.rfield r) s.exposed g.toNat
  let out := (List.range 8).map (fun c =>
    redTree op.1 (Nat.log2 n) ((List.range n).map (fun j => if on (n * c + j) then some (x (n * c + j)) else none)))
  let fl := out.foldl (fun fl o => fl ||| o.2) 0
  let res := vmap w allOn false s.gens (fun _ i => (((out.getD (i / n) (none, 0)).1).getD op.2, fl))
  if f.toNat ≤ 1 then s.putF 5 d res else .next (s.putV 5 d res)

end Sys2Proof.Machine
end

