-- ==== Sys2Proof/Machine/Collect.lean ====
section
/-! DEFINITION. Ordered collectives: COLJ, strike numbers, the collective engine, cancellation (R380 to R392). -/

namespace Sys2Proof.Machine

/-! ### COLJ (R385 to R387) -/

/-- The rank of a core of this device in a group (R380, R413). -/
def State.rankOf (s : State) (g : Group) (c : CoreId) : Option Nat :=
  let i := g.ranks.findIdx (· = (s.device.1, s.device.2, c.val))
  if i < g.ranks.length then some i else none

/-- A group is granted to a task (R387, R413). -/
def Group.grantedTo (g : Group) (x : Ctx) : Bool := g.formed && g.grants.contains x.taskId

/-- The index of a core's next COLJ on a group (R380). -/
def State.nextIndex (s : State) (group : Nat) (c : CoreId) : Nat := ((s.group group).bind (fun g => aget g.counts c.val)).getD 0

/-- Elements of the source and of the destination of an operation (R386). -/
def colSizes (op n p : Nat) (root : Bool) : Nat × Nat :=
  match op with
  | 0 => (n, n)
  | 1 => (n * p, n)
  | 2 => (n, n * p)
  | 3 => (if root then n else 0, n)
  | 4 => (n * p, n * p)
  | _ => (0, 0)

/-- A format that an operation accepts (R387). -/
def colFmtOk (op f : Nat) : Bool :=
  if op ≤ 1 then f ≤ 3 || (8 ≤ f && f ≤ 15) else f ≤ 5 || (7 ≤ f && f ≤ 15) || f = 19

/-- The descriptor checks of a collective that need no translation (R387). -/
def colBad (op n f red root p : Nat) (rest : Bool) : Bool :=
  rest || 3 ≤ red || !colFmtOk op f || p ≤ root || (op = 5 && n ≠ 0) ||
    2 ^ 40 < (colSizes op n p true).1 * elemSize f || 2 ^ 40 < (colSizes op n p true).2 * elemSize f

/-- Change a group as this device knows it. -/
def State.updGroup (s : State) (n : Nat) (f : Group → Group) : State :=
  s.updHub (fun h => { h with groups := h.groups.map (fun g => if g.number = n then f g else g) })

/-- Count a COLJ on a group at its rank (R380, R387). -/
def State.countColj (s : State) (group : Nat) : State :=
  let c := s.issue.core
  s.updGroup group (fun g => { g with counts := aput g.counts c.val (s.nextIndex group c + 1) })

/-- The request, with the failure flag, of a rank whose task does not hold the group (R383, R387; assumption 86):
still counted as its index. -/
def State.askFailed (s : State) (group : Nat) (d : StrikeDesc) : State :=
  match s.group group with
  | none => s
  | some g =>
    if g.closed || !g.formed then s
    else
      match s.rankOf g s.issue.core with
      | none => s
      | some r => s.askStrike group (s.nextIndex group s.issue.core) r { d with failed := true }

/-- COLJ (R385 to R387, R389). -/
def execColj (t sg : BitVec 6) (span nt : Bool) (op cls : BitVec 3) (s : State) : Answer :=
  let x := s.curCtx
  let w := s.desc sg 2
  let v := s.desc sg 3
  let n := getBits w 0 32
  let group := getBits w 32 12
  let fmt := getBits v 0 5
  let red := getBits v 5 3
  let root := getBits v 8 24
  let k := s.nextIndex group s.issue.core
  let addr := s.desc sg 0
  let desc : StrikeDesc := { op := op.toNat, fmt := fmt, red := red, n := n, root := root, failed := false }
  let known := (s.group group).bind (fun g => if g.grantedTo x then (s.rankOf g s.issue.core).map (fun r => (g, r)) else none)
  match known with
  | none => .next (((s.askFailed group desc).countColj group).issueJob (settledReq t cls 4 addr))
  | some (g, rank) =>
    if g.closed then .next (s.issueJob (settledReq t cls 10 0))
    else
      let p := g.ranks.length
      let bad := colBad op.toNat n fmt red root p (getBits w 44 20 ≠ 0 || getBits v 32 32 ≠ 0)
      let sz := colSizes op.toNat n p (rank = root)
      let e := elemSize fmt
      let src := s.extent addr (sz.1 * e) false
      let dst := s.extent (s.desc sg 1) (sz.2 * e) true
      let fail := fun (status : Nat) =>
        ((s.countColj group).askStrike group k rank { desc with failed := true }).issueJob (settledReq t cls status addr)
      if bad then .next (fail 4)
      else
        match src, dst with
        | some a, some b =>
          if a.meets b then .next (fail 4)
          else
            let req : JobReq :=
              { tag := t
                kind := .collective op group k rank p (if sz.1 = 0 then none else some a) (if sz.2 = 0 then none else some b) n fmt red root
                regions := (if sz.1 = 0 then [] else [a.region]) ++ (if sz.2 = 0 then [] else [b.region])
                cls := cls, span := span, nt := nt, addr := addr }
            .next (((s.countColj group).askStrike group k rank desc).issueJob req)
        | _, _ => .next (fail 1)

/-! ### The striker (R381 to R384) -/

/-- The striker of a number, new where it has numbered nothing yet. -/
def State.striker (s : State) (n : Nat) : Striker :=
  (aget s.hub.strikers n).getD { next := 0, acked := 0, standby := false, pairs := [] }

/-- Change a striker. -/
def State.updStriker (s : State) (n : Nat) (f : Striker → Striker) : State :=
  s.updHub (fun h => { h with strikers := aput h.strikers n (f (s.striker n)) })

/-- Change a pair at its striker. -/
def State.updPair (s : State) (g : Group) (index : Nat) (f : Pair → Pair) : State :=
  s.updStriker g.striker (fun k => { k with pairs := k.pairs.map (fun p => if p.group = g.number && p.index = index then f p else p) })

/-- A barrier of levels 4 and 5 (R380). -/
def isBarrier (index : Nat) : Bool := 2 ^ 32 ≤ index

/-- Requesters that a pair needs: every rank, or every device of the group for a barrier (R311, R383). -/
def Group.parties (g : Group) (index : Nat) : Nat := if isBarrier index then g.devices.length else g.ranks.length

/-- Every rank has requested a pair with agreeing values and no failure flag (R383). -/
def Pair.agreed (p : Pair) (n : Nat) : Bool :=
  p.requests.length = n && p.requests.all (fun r => !r.2.failed && p.requests.all (fun q => q.2 = r.2))

/-- Some values disagree, or a flag is set (R383). -/
def Pair.disagrees (p : Pair) : Bool := p.requests.any (fun r => r.2.failed || p.requests.any (fun q => q.2 ≠ r.2))

/-- The pair has reached a final state, or has completed. -/
def PairState.ended : PairState → Bool
  | .active => false
  | .started => false
  | _ => true

/-- Numbers outstanding of a striker (R381). -/
def Striker.outstanding (k : Striker) : Nat := (k.pairs.filter (fun p => !p.state.ended)).length

/-- The jobs of this device on a pair: core and job. -/
def State.pairJobs (s : State) (group index : Nat) : List (CoreId × Nat) :=
  let hit := fun (x : Ctx) => x.jobs.filterMap (fun j =>
    match j.kind with
    | .collective _ g i _ _ _ _ _ _ _ _ => if g = group && i = index then some j.id else none
    | _ => none)
  [(0 : CoreId), 1, 2, 3, 4, 5, 6, 7].flatMap (fun c =>
    (((s.core c).ctx :: (s.core c).shadow :: s.savedOn c).flatMap hit).map (fun i => (c, i)))

/-- End the job of a rank with a status (R391: also in a saved context); ctl.cperr gets the value of sg with status 4 (R97, R98). -/
def State.endRank (s : State) (m : CoreId × Nat) (status : Nat) (va : Word) (out : List (Nat × Byte)) : State :=
  match s.jobCtx m.1 m.2 with
  | none => s
  | some x =>
    match x.findJob m.2 with
    | none => s
    | some j => s.finishJob m.1 x j status (if status = 4 then j.addr else va) out

/-- End every job of this device on a pair (R389). -/
def State.endPairJobs (s : State) (group index status : Nat) : State :=
  (s.pairJobs group index).foldl (fun s m => s.endRank m status 0 []) s

/-- Close a group after an abort (R389). -/
def State.closeGroup (s : State) (group : Nat) : State :=
  s.updHub (fun h => { h with groups := h.groups.map (fun g => if g.number = group then { g with closed := true } else g) })

/-- A barrier that completes with an error is reported to the firmware, and its members stay held (R311). -/
def State.reportBarrier (s : State) (group index : Nat) : State :=
  if isBarrier index then s.updHub (fun h => { h with reports := h.reports ++ [.barrierError group index] }) else s

/-- The pair that the engine takes next in a striker's sequence (R382): the lowest number not ended. -/
def Striker.head (k : Striker) : Option Pair := (k.pairs.filter (fun p => !p.state.ended)).head?

/-- The sequence of a striker goes on: its next collective starts once it is STARTED and the standby has acknowledged that (R382,
R384). -/
def State.kick (s : State) (sid : Nat) : State :=
  match (s.striker sid).head with
  | some q =>
    if q.state = .started && !s.agenda.any (fun e => e.2 = .collectiveStart sid) then
      s.afterN (Nat.max 1 (q.ackAt - s.now)) (.collectiveStart sid)
    else s
  | none => s

/-- The requests of this device for a pair have their answer (R384). -/
def State.answeredAll (s : State) (group index : Nat) : State :=
  s.updHub (fun h => { h with asked := h.asked.filter (fun a => !(a.1 = group && a.2.1 = index)) })

/-- Void a pair (R311, R383, R389). -/
def State.voidPair (s : State) (g : Group) (index status : Nat) : State :=
  ((((s.updPair g index (fun p => { p with state := .voided, status := status })).endPairJobs g.number index status).reportBarrier
    g.number index).answeredAll g.number index).kick g.striker

/-- Abort a pair (R311, R389). -/
def State.abortPair (s : State) (g : Group) (index : Nat) : State :=
  (((((s.updPair g index (fun p => { p with state := .aborted, status := 10 })).endPairJobs g.number index 10).closeGroup g.number).reportBarrier
    g.number index).answeredAll g.number index).kick g.striker

/-- The striker assigns its next number to a pair, and sends the assignment to its standby, which acknowledges it after a time
and in order (R381, R384). -/
def State.assign (s : State) (g : Group) (index time : Nat) : State :=
  s.updStriker g.striker (fun k =>
    { k with next := k.next + 1
             pairs := k.pairs ++ [{ group := g.number, index := index, strike := k.next, state := .active, requests := [], done := []
                                    status := 0, ackAt := k.pairs.foldl (fun m p => Nat.max m p.ackAt) (s.now + time) }] })

/-- The standby has acknowledged a number (R384). -/
def State.acknowledge (s : State) (g : Group) (n : BitVec 32) : State :=
  s.updStriker g.striker (fun k => { k with acked := if serialAhead (n + 1) k.acked then n + 1 else k.acked })

/-- The striker answers a request of a pair that is in its assignment table (R381, R383, R384, R389). -/
def State.answerRequest (s : State) (g : Group) (index rank : Nat) (d : StrikeDesc) (p : Pair) : State :=
  let s1 := ((s.acknowledge g p.strike).updHub (fun h => { h with asked := h.asked.erase (g.number, index, rank, d) })).updPair g index (fun p =>
    if p.requests.any (fun r => r.1 = rank) then p else { p with requests := p.requests ++ [(rank, d)] })
  match s1.pair g.number index with
  | none => s1
  | some q =>
    if q.state = .active then
      if q.disagrees then s1.voidPair g index 4
      else if q.agreed (g.parties index) then s1.after (.strikeGo g.number index)
      else s1
    else if q.state.ended && q.state ≠ .completed then s1.endPairJobs g.number index q.status
    else s1

/-- A request reaches the striker (R381, R384): the first for its pair has it numbered, unless 2^30 numbers are outstanding; no
request is answered before the standby has acknowledged the assignment. -/
def State.enterRequest (s : State) (g : Group) (index rank : Nat) (d : StrikeDesc) : State :=
  match s.pair g.number index with
  | none =>
    if 2 ^ 30 ≤ (s.striker g.striker).outstanding then s.afterN 1 (.strikeRequest g.number index rank d)
    else
      let s1 := (s.assign g index s.delay).delayed
      let ack := ((s1.pair g.number index).map (·.ackAt)).getD s.now
      s1.afterN (Nat.max 1 (ack - s.now)) (.strikeRequest g.number index rank d)
  | some p =>
    if s.now < p.ackAt && p.state = .active then s.afterN (p.ackAt - s.now) (.strikeRequest g.number index rank d)
    else s.answerRequest g index rank d p

/-- STRIKE_REQUEST (R381 to R384). -/
def execStrikeRequest (group index rank : Nat) (d : StrikeDesc) (s : State) : Answer :=
  match s.group group with
  | none => .next s
  | some g => if rank < g.parties index then .next (s.enterRequest g index rank d) else .next s

/-- STRIKE_GO (R383, R384): the pair is STARTED; "go" reaches the ranks once the standby has acknowledged that. -/
def execStrikeGo (group index : Nat) (s : State) : Answer :=
  match s.group group with
  | none => .next s
  | some g =>
    match s.pair group index with
    | none => .next s
    | some p =>
      if p.state = .active && p.agreed (g.parties index) then
        .next ((s.updPair g index (fun p => { p with state := .started, ackAt := s.now + s.delay })).delayed.kick g.striker)
      else .next s

/-! ### The collective engine (R382, R386 to R388) -/

/-- Combine of two elements of a reduction (R388): bits of format f, RED 0 sum, 1 max, 2 min. -/
def combine (f red : Nat) (a b : Nat) : Nat :=
  let w := fmtWidth f
  if f ≤ 3 then
    let fm := fmtOfCode f
    if red = 0 then
      let x := fm.decode a
      let y := fm.decode b
      ((firstNan fm [x, y]).getD (deliver fm .rne false 0 (addVal .rne x y))).1
    else (fpMinMax fm false (red = 1) false a b).1
  else if red = 0 then (a + b) % 2 ^ w
  else
    let less := if f ≤ 11 then decide (toSigned w a < toSigned w b) else decide (a < b)
    if less = (red = 1) then b else a

/-- One level of the tree: pairs are combined, and NONE with a value gives the value (R388). -/
def reduceLevel (f red : Nat) : List Nat → List Nat
  | a :: b :: r => combine f red a b :: reduceLevel f red r
  | l => l

/-- Reduce (R388): k levels at least log2 of the length. -/
def reduceTree (f red : Nat) : Nat → List Nat → Nat
  | 0, l => l.headD 0
  | k + 1, l => reduceTree f red k (reduceLevel f red l)

/-- A rank's source as elements (R386). -/
def elementsOf (bytes : List Byte) (e : Nat) : List Nat :=
  (List.range (bytes.length / e)).map (fun i => natOfBytes ((bytes.drop (e * i)).take e))

/-- Element i of the destination of a rank, from the sources of all ranks (R386, R388). -/
def colElem (op f red root n rank : Nat) (srcs : List (List Nat)) (i : Nat) : Nat :=
  let at_ := fun r k => (srcs.getD r []).getD k 0
  let ranks := List.range srcs.length
  match op with
  | 0 => reduceTree f red 25 (ranks.map (fun r => at_ r i))
  | 1 => reduceTree f red 25 (ranks.map (fun r => at_ r (rank * n + i)))
  | 2 => at_ (i / n) (i % n)
  | 3 => at_ root i
  | _ => at_ (i / n) (rank * n + i % n)

/-- A rank of a pair on this device. -/
structure LocalRank where
  core : CoreId
  id : Nat
  rank : Nat
  job : Job
  src : Option Extent
  dst : Option Extent
deriving DecidableEq, Repr

/-- The source of a rank on this device, read in order (R102, R304). -/
def readSource (m : LocalRank) (s : State) : JobRun × List Byte :=
  match m.src with
  | none => (JobRun.start s, [])
  | some e => foldUp e.len (fun (q : JobRun × List Byte) i =>
      let y := q.1.read (m.job.view m.core) e (e.ia + i) (e.va + BitVec.ofNat 64 i)
      (y.1, q.2 ++ [y.2])) (JobRun.start s, [])

/-- The ranks of this device on a pair. -/
def State.localRanks (s : State) (group index : Nat) : List LocalRank :=
  (s.pairJobs group index).filterMap (fun m =>
    ((s.jobCtx m.1 m.2).bind (fun x => x.findJob m.2)).bind (fun j =>
      match j.kind with
      | .collective _ _ _ rank _ src dst _ _ _ _ => some { core := m.1, id := m.2, rank := rank, job := j, src := src, dst := dst }
      | _ => none))

/-- A collective of this device stops on one rank (R387, R389): that rank keeps its own status. -/
def State.stopCollective (s : State) (g : Group) (index : Nat) (m : LocalRank) (status : Nat) (va : Word) : State :=
  (s.endRank (m.core, m.id) status va []).abortPair g index

/-- The sources of every rank: those of this device as read, the rest free values (assumption 4). -/
def colSources (g : Group) (got : List (Nat × List Nat)) (free len w : Nat) : List (List Nat) :=
  (List.range g.ranks.length).map (fun r =>
    (aget got r).getD ((List.range len).map (fun i => (Config.freeWord (free + len * r + i)).toNat % 2 ^ w)))

/-- Run a collective on this device: read every source, then write every destination (R102, R386, R388, R389). -/
def State.runCollective (s : State) (g : Group) (index : Nat) (ms : List LocalRank) (d : StrikeDesc) : State :=
  let e := elemSize d.fmt
  let w := 8 * e
  let n := d.n
  let len := if d.op = 1 || d.op = 4 then n * g.ranks.length else n
  let step := fun (q : State × List (Nat × List Nat) × Option (LocalRank × Nat × Word)) (m : LocalRank) =>
    match q.2.2 with
    | some _ => q
    | none =>
      let r := readSource m q.1
      (r.1.s, q.2.1 ++ (if m.src.isSome then [(m.rank, elementsOf r.2 e)] else []), r.1.stop.map (fun z => (m, z.1, z.2)))
  let reads := ms.foldl step (s, [], none)
  match reads.2.2 with
  | some (m, status, va) => reads.1.stopCollective g index m status va
  | none =>
    let srcs := colSources g reads.2.1 s.free len w
    let put := fun (q : State × Option (LocalRank × Nat × Word)) (m : LocalRank) =>
      match q.2, m.dst with
      | some _, _ => q
      | none, none => (q.1.endRank (m.core, m.id) 0 0 [], none)
      | none, some x =>
        let r := foldUp (x.len / e) (fun (r : JobRun) i =>
          ((bytesOfNat e (colElem d.op d.fmt d.red d.root n m.rank srcs i)).zipIdx).foldl (fun r p =>
            r.write x (x.ia + e * i + p.2) (x.va + BitVec.ofNat 64 (e * i + p.2)) p.1) r) (JobRun.start q.1)
        match r.stop with
        | some z => (r.s.endRank (m.core, m.id) z.1 z.2 r.out.reverse, some (m, z.1, z.2))
        | none => (r.s.endRank (m.core, m.id) 0 0 r.out.reverse, none)
    let done := ms.foldl put ({ reads.1 with free := reads.1.free + len * g.ranks.length }, none)
    match done.2 with
    | some _ => done.1.abortPair g index
    | none => done.1.updPair g index (fun p => { p with state := .completed, done := ms.map (·.rank) })

/-- A local rank is ready: its edges are gone and the stores it reads after are applied (R104, R304). -/
def State.rankReady (s : State) (m : LocalRank) : Bool :=
  m.job.edges = [] && (match s.jobCtx m.core m.id with
    | some x => !(x.stream m.job.sec).ops.any (fun o => m.job.stores.contains o.id)
    | none => true)

/-- The accesses of a rank's job go over a link (R85). -/
def LocalRank.addrs (m : LocalRank) : List Nat := (m.src.toList ++ m.dst.toList).flatMap (fun x => Machine.addrs x.ia x.len)

/-- The requests of a rank's job go out over its links (R85). -/
def State.sendRank (s : State) (m : LocalRank) : State :=
  (s.updJobCtx m.core m.id (fun x => x.updJob m.id (fun j => { j with started := true, sentAt := s.now }))).awaitLinks m.core m.id m.job.ends

/-- A rank's job whose accesses have waited 50 ms for a link stops with status 3, and the collective with it (R85, R97, R389). -/
def State.timeOutRank (s : State) (c : CoreId) (id : Nat) (peer : Bool) : State :=
  match (s.jobCtx c id).bind (fun x => x.findJob id) with
  | none => s
  | some j =>
    match j.kind with
    | .collective _ group index rank _ src dst _ _ _ _ =>
      let late := (src.toList ++ dst.toList).find? (fun x => if peer then onPeer [x.ia] else onHost [x.ia])
      match s.group group, late with
      | some g, some x =>
        if j.started && j.sentAt + accessLimit ≤ s.now then
          s.stopCollective g index { core := c, id := id, rank := rank, job := j, src := src, dst := dst } 3 x.va
        else s
      | _, _ => s
    | _ => s

/-- A barrier of a group has completed; a device whose level-3 members have all halted joins the next at once (R311). -/
def State.endBarrier (s : State) (g : Group) (index : Nat) : State :=
  let s1 := s.updPair g index (fun p => { p with state := .completed })
  if g.gone && !g.closed then (s1.passBarriers g.number 1).joinBarrier g.number 0 else s1

/-- COLLECTIVE_START (R69, R79, R85, R382): the next collective in strike order runs once it has received go and its requests have
gone over their links, and its writes may be applied. -/
def execCollectiveStart (sid : Nat) (s : State) : Answer :=
  match (s.striker sid).head with
  | none => .next s
  | some p =>
    match s.group p.group with
    | none => .next s
    | some g =>
      if p.state ≠ .started || s.now < p.ackAt then .next (s.kick sid)
      else if isBarrier p.index then .next ((s.endBarrier g p.index).kick sid)
      else
        let ms := s.localRanks p.group p.index
        let unsent := ms.filter (fun m => !m.job.started && (onHost m.job.ends || onPeer m.job.ends))
        if !ms.all s.rankReady then .next (s.afterN 1 (.collectiveStart sid))
        else
          match ms.find? (fun m => m.job.depFailed) with
          | some m => .next ((s.stopCollective g p.index m 9 0).kick sid)
          | none =>
            let w := s.writeReady (.collectiveStart sid) (ms.flatMap (fun m => match m.dst with
              | some x => addrs x.ia x.len
              | none => []))
            if unsent ≠ [] then .next ((unsent.foldl State.sendRank s).after (.collectiveStart sid))
            else if !w.2 then .next (w.1.afterN 1 (.collectiveStart sid))
            else .next (((w.1.banksUsed (ms.flatMap LocalRank.addrs)).runCollective g p.index ms ((p.requests.head?.map (·.2)).getD
              { op := 5, fmt := 0, red := 0, n := 0, root := 0, failed := false })).kick sid)

/-! ### Cancellation and failures (R384, R389, R390) -/

/-- A cancel reaches the striker: 0 voided, 1 aborted, 2 already final (R389, R390). A pair that it has not numbered is numbered
for it, with the standby's acknowledgement. -/
def State.cancelPair (s : State) (g : Group) (index : Nat) : State × Word :=
  match s.pair g.number index with
  | none =>
    let s1 := (s.updStriker g.striker (fun k => { k with pairs := k.pairs.map (fun p => { p with ackAt := Nat.min p.ackAt s.now }), acked := k.next })).assign
      g index 0
    ((s1.updStriker g.striker (fun k => { k with acked := k.next })).voidPair g index 10, 0)
  | some p =>
    match p.state with
    | .active => (s.voidPair g index 10, 0)
    | .started => (s.abortPair g index, 1)
    | _ => (s, 2)

/-- STRIKE_CANCEL (R389). -/
def execStrikeCancel (group index : Nat) (s : State) : Answer :=
  match s.group group with
  | none => .next s
  | some g => .next (s.cancelPair g index).1

/-- RANK_UNREACHABLE (R389). -/
def execRankUnreachable (group index rank : Nat) (s : State) : Answer :=
  match s.group group with
  | none => .next s
  | some g =>
    match s.pair group index with
    | some p => if p.state.ended || g.parties index ≤ rank then .next s else .next (s.abortPair g index)
    | none => .next s

/-- STRIKE_REQUEST_RETRY (R384): the requests of this device for a pair that no answer has reached are repeated to the standby, and
again every 20 µs. -/
def execStrikeRequestRetry (group index : Nat) (s : State) : Answer :=
  let open_ := s.hub.asked.filter (fun a => a.1 = group && a.2.1 = index)
  match s.group group with
  | none => .next s
  | some g =>
    if open_ = [] then .next s
    else
      let s1 := open_.foldl (fun s a =>
        (s.cancelEvent (.strikeRequest group index a.2.2.1 a.2.2.2)).enterRequest g index a.2.2.1 a.2.2.2) s
      .next (if s1.hub.asked.any (fun a => a.1 = group && a.2.1 = index) then s1.afterN 32000 (.strikeRequestRetry group index) else s1)

/-- STRIKER_TAKEOVER (R384): the standby continues from the last number that it acknowledged; an assignment or a STARTED mark that
it has not acknowledged is not in its table. -/
def execStrikerTakeover (sid : Nat) (s : State) : Answer :=
  let k := s.striker sid
  let lost := fun (p : Pair) => decide (s.now < p.ackAt)
  let again := k.pairs.filter (fun p => lost p && p.state = .started)
  let s1 := s.updStriker sid (fun k =>
    { k with next := k.acked, standby := true
             pairs := (k.pairs.filter (fun p => !(lost p && p.state = .active))).map (fun p =>
               if lost p && p.state = .started then { p with state := .active, ackAt := s.now } else p) })
  .next (again.foldl (fun s p => s.after (.strikeGo p.group p.index)) s1)

/-- The collective job on a tag: its group and index (R390). -/
def Ctx.collectiveOn (x : Ctx) (tag : BitVec 6) : Option (Nat × Nat) :=
  x.jobs.findSome? (fun j => match j.kind with
    | .collective _ g i _ _ _ _ _ _ _ _ => if j.tag = tag then some (g, i) else none
    | _ => none)

/-- CANJ (R390): the stream is frozen beside any other freeze of the bundle; the answer comes within 20 µs. -/
def execCanj (d tag : BitVec 6) (s : State) : Answer :=
  match s.curCtx.collectiveOn tag with
  | none => s.putS 2 d 3
  | some (g, i) =>
    .next ((s.updCur (fun x => { x with asking := some { d := d, tag := tag, group := g, index := i } })).afterAtMost 32000
      (.canjAnswer s.issue.core s.issue.sec))

/-- CANJ_ANSWER (R390). -/
def execCanjAnswer (c : CoreId) (sec : Bool) (s : State) : Answer :=
  match (s.stream c sec).asking with
  | some q =>
    let wake := fun (s : State) (v : Word) => s.updStream c sec (fun x => { x with asking := none }.emit 2 (.scalar q.d v))
    match s.group q.group with
    | none => .next (wake s 2)
    | some g =>
      let r := s.cancelPair g q.index
      .next (wake r.1 r.2)
  | none => .next s

end Sys2Proof.Machine
end

