-- ==== Sys2Proof/Machine/SaveArea.lean ====
section
/-! DEFINITION. Save-area images, parking a context, the shadow-bank swap, SWPREP, the archivist's spill,
and the return of a held context (R115, R358 to R365, R391). -/

namespace Sys2Proof.Machine

/-! ### Bulk writes of the archivist -/

/-- The listed pairs in a range that rise strictly and are not zero. -/
def Memory.clean (lo hi : Nat) : Table Byte → Table Byte
  | [] => []
  | (a, b) :: r => if lo ≤ a ∧ a < hi ∧ b ≠ 0 then (a, b) :: Memory.clean (a + 1) hi r else Memory.clean lo hi r

/-- Memory with a range replaced by the pairs of a list. -/
def Memory.splice (m : Table Byte) (lo hi : Nat) (l : Table Byte) : Table Byte :=
  m.filter (fun p => p.1 < lo) ++ (Memory.clean lo hi l ++ m.filter (fun p => Nat.max lo hi ≤ p.1))

/-- The pairs of memory in a range. -/
def Memory.range (m : Table Byte) (lo hi : Nat) : Table Byte := m.filter (fun p => lo ≤ p.1 && p.1 < hi)

/-- The addresses at which two tables differ; n at least their joint length. -/
def changedAt : Nat → Table Byte → Table Byte → List Nat
  | 0, _, _ => []
  | _ + 1, [], n => n.map (·.1)
  | _ + 1, o, [] => o.map (·.1)
  | k + 1, (a, x) :: o, (b, y) :: n =>
    if a < b then a :: changedAt k o ((b, y) :: n)
    else if b < a then b :: changedAt k ((a, x) :: o) n
    else if x = y then changedAt k o n
    else a :: changedAt k o n

/-- The lines of rising addresses, each once. -/
def risingLines : List Nat → List Nat
  | [] => []
  | a :: r =>
    match risingLines r with
    | [] => [lineOf a]
    | l :: q => if l = lineOf a then l :: q else lineOf a :: l :: q

/-- Error marks that lie in a range. -/
def outOf (lo hi : Nat) (l : List Nat) : List Nat := l.filter (fun a => !(lo ≤ a && a < hi))

/-- The archivist or the firmware writes a range whole (R359, R362): error marks leave it, and the homes log the lines that
change and hold them in their caches, and the host's answers for them are used up (R71, R79, R306). -/
def State.archive (s : State) (lo hi : Nat) (l : Table Byte) : State :=
  let old := Memory.range s.mem lo hi
  let new := Memory.clean lo hi l
  let s1 := (risingLines (changedAt (old.length + new.length) old new)).foldl (fun s a =>
    (s.logLine Writer.outside a).cacheTouch (homeOf a) a false) s
  let s2 := [(0 : CoreId), 1, 2, 3, 4, 5, 6, 7].foldl (fun s h => s.updHome h (fun q =>
    { q with snoops := q.snoops.filter (fun p => !(p.2 && lo ≤ p.1 && p.1 < hi)) })) s1
  { s2 with mem := Memory.splice s2.mem lo hi l, poison := outOf lo hi s2.poison, flips := outOf lo hi s2.flips
            fatals := outOf lo hi s2.fatals : State }.rewatch (fun n => lo < 64 * n + 64 && 64 * n < hi)

/-- Whether the archivist may write a range of package memory: the host has answered for the lines of it that it may hold (R79). -/
def State.archiveReady (s : State) (e : Instr) (lo len : Nat) : State × Bool :=
  if s.hub.hlstat.getLsbD 9 && s.hub.hostMapped && lo < s.hub.settings.barSize then
    s.writeReady e ((List.range ((len + 63) / 64)).map (fun i => lo + 64 * i))
  else (s, true)

/-! ### Images (R359) -/

/-- Bytes of a save area. -/
def areaBytes : Nat := 0x200000

/-- The regions whose layout each revision defines: number, offset, length. -/
def openRegions : List (Nat × Nat × Nat) :=
  [(0, 0x1000, 0x4000), (1, 0x5000, 0x4000), (2, 0x9000, 0x4000), (3, 0xD000, 0x3000), (4, 0x20000, 0x10000)]

/-- A tile operation has stopped part-way (R359). -/
def Ctx.cubePart (x : Ctx) : Bool := x.tiles.any (fun t => t.stage = .feed && 0 < t.done)

/-- Bytes 0x000 to 0x017 of the header (R359). -/
def Ctx.header (x : Ctx) (c : CoreId) (rev : BitVec 16) (cyc : Word) : List Byte :=
  bytesOfNat 4 0x58415653 ++ bytesOfNat 2 0x0100 ++
    bytesOfNat 2 (1 + (if x.sec.live then 2 else 0) + (if x.cubePart then 4 else 0)) ++
    bytesOfNat 4 x.taskId.toNat ++ [BitVec.ofNat 8 c.val, 0] ++ bytesOfNat 2 rev.toNat ++ bytesOfNat 8 cyc.toNat

/-- The image of a context by offset (R359): the n-th image written. -/
def Ctx.image (x : Ctx) (c : CoreId) (rev : BitVec 16) (cyc : Word) (n : Nat) : Table Byte :=
  let open_ := fun (r : Nat × Nat × Nat) => atAddr r.2.1 ((Config.saveRegion r.1 n).take r.2.2)
  atAddr 0 (x.header c rev cyc) ++ (openRegions.take 4).flatMap open_ ++
    (x.v.toList.zipIdx).flatMap (fun p => atAddr (0x10000 + 1024 * p.2) (bytesOfNat 1024 p.1.toNat)) ++
    (openRegions.drop 4).flatMap open_ ++
    x.acc.flatMap (fun p => atAddr (0x30000 + 4 * p.1) (bytesOfNat 4 p.2.toNat)) ++
    x.accw.flatMap (fun p => atAddr (0x90000 + 20 * p.1) (bytesOfNat 20 p.2.toNat)) ++
    x.plane.sums.flatMap (fun p => atAddr (0x108000 + 2 * p.1) (bytesOfNat 2 p.2.toNat))

/-- The place of a word of a stream's registers in an image (R359): scalar register n at n, ring entry i at 64 + i, predicate i at
72 + i, result i in flight or latched at 80 + i. -/
def streamPlace (sec : Bool) (n : Nat) : Nat := (if sec then 0x9000 else 0x5000) + Config.streamPlace n % 0x4000

/-- The place of a word of the mask and stream registers of a task (R359): word w of m_r at 8r + w, of st_n at 64 + 8n + w. -/
def taskPlace (n : Nat) : Nat := 0xD000 + Config.streamPlace (4096 + n) % 0x3000

/-- The marks of a parity error in a result (R366). -/
def Landing.marks (l : Landing) : List Landing :=
  match l.dest with
  | .scalar r _ => [{ l with dest := .badScalar r }]
  | .vec r _ _ n => [{ l with dest := .badVector r 0 n }]
  | .pred m _ => [{ l with dest := .badPred m }]
  | .mask r _ _ => [{ l with dest := .badMask r 0 }]
  | .streamWord n w _ => [{ l with dest := .badStream n w }]
  | _ => []

/-- A landing is such a mark. -/
def Landing.isMark (l : Landing) : Bool :=
  match l.dest with
  | .badScalar _ => true
  | .badVector .. => true
  | .badPred _ => true
  | .badMask .. => true
  | .badStream .. => true
  | .badAcc _ => true
  | _ => false

/-- The results of a stream that an image holds with its registers: those in its latches, and those in flight. -/
def Stream.results (x : Stream) : List Landing := x.latches ++ x.inflight
/-- The places of an image that hold a word read with an uncorrectable error (R362). -/
def Ctx.imageBad (x : Ctx) : List Nat :=
  x.badVector.map (fun b => 0x10000 + 1024 * b.1.toNat + 8 * b.2) ++
    x.accBad.map (fun e => if e < 98304 then 0x30000 + 4 * e else 0x90000 + 20 * (e - 98304)) ++
    x.badMask.map (fun b => taskPlace (8 * b.1.toNat + b.2)) ++ x.badStream.map (fun b => taskPlace (64 + 8 * b.1.toNat + b.2.toNat)) ++
    [false, true].flatMap (fun b => (x.stream b).badScalar.map (fun r => streamPlace b r.toNat) ++
      (x.stream b).badRing.map (fun i => streamPlace b (64 + i)) ++
      ((List.range 7).filter (fun i => (x.stream b).badPred.getLsbD i)).map (fun i => streamPlace b (72 + i)) ++
      ((x.stream b).results.zipIdx.filter (fun p => p.1.isMark)).map (fun p => streamPlace b (80 + p.2)))

/-- The position of a place of an image in the order in which the archivist writes it: the header, at 2 MiB, comes last (R362). -/
def imagePos (o : Nat) : Nat := if o < 0x1000 then areaBytes + o else o

/-- First and last position of an image. -/
def imageStart : Nat := 0x1000
def imageEnd : Nat := areaBytes + 0x1000

/-- Write an image at an area, from one position up to another (R359, R362). -/
def State.writePart (s : State) (c : CoreId) (x : Ctx) (area n lo hi : Nat) : State :=
  let bytes := (x.image c s.hub.settings.revision (s.core c).cyc n).map (fun p => (area + p.1, p.2))
  let s1 := s.archive (area + lo) (area + Nat.min hi areaBytes) bytes
  let s2 := if areaBytes < hi then s1.archive (area + (lo - areaBytes)) (area + (hi - areaBytes)) bytes else s1
  (x.imageBad.filter (fun o => lo ≤ imagePos o && imagePos o < hi)).foldl (fun s o => s.addPoison (unitOf (area + o))) s2

/-- The context of an image written whole is recorded (R359; assumption 23). -/
def State.recordImage (s : State) (n : Nat) (x : Ctx) : State := s.updHub (fun h => { h with images := (n, x) :: h.images })

/-- Write an image whole (R359, R362). -/
def State.writeImage (s : State) (c : CoreId) (x : Ctx) (area : Nat) : State :=
  let n := s.nextId
  ({ s with nextId := n + 1 }.writePart c x area n imageStart imageEnd).recordImage n x

/-- Add a byte of an image to a context whose defined regions started at zero. -/
def Ctx.putImageByte (x : Ctx) (o : Nat) (b : Byte) : Ctx :=
  if 0x10000 ≤ o ∧ o < 0x20000 then
    let i := (o - 0x10000) / 1024 % 64
    have h : i < 64 := Nat.mod_lt _ (by decide)
    { x with v := x.v.set i (x.v[i] ||| (b.setWidth 8192 <<< (8 * (o % 1024)))) h }
  else if 0x30000 ≤ o ∧ o < 0x90000 then
    let e := o - 0x30000
    { x with acc := tput 0 x.acc (e / 4) (tget 0 x.acc (e / 4) ||| (b.setWidth 32 <<< (8 * (e % 4)))) }
  else if 0x90000 ≤ o ∧ o < 0x108000 then
    let e := o - 0x90000
    { x with accw := tput 0 x.accw (e / 20) (tget 0 x.accw (e / 20) ||| (b.setWidth 160 <<< (8 * (e % 20)))) }
  else if 0x108000 ≤ o ∧ o < 0x1C8000 then
    let e := o - 0x108000
    { x with plane := { x.plane with sums := tput 0 x.plane.sums (e / 2) (tget 0 x.plane.sums (e / 2) ||| (b.setWidth 16 <<< (8 * (e % 2)))) } }
  else x

/-- The vector registers, accumulators and plane sums of a context, read from an image (R359). -/
def Ctx.fillFrom (x : Ctx) (img : Table Byte) : Ctx :=
  img.foldr (fun p y => y.putImageByte p.1 p.2)
    { x with v := Vector.replicate 64 0, acc := [], accw := [], plane := { x.plane with sums := [] }, accBad := [], badVector := [] }

/-- The marks that the words of a context receive which its image holds as poison; bad holds the offsets of the poisoned lines.
A poisoned plane sum is not canonical (R362, R366). -/
def Ctx.markFrom (x : Ctx) (bad : List Nat) : Ctx :=
  let inside := fun (lo hi : Nat) => (bad.filter (fun o => lo ≤ o && o < hi)).map (fun o => o - lo)
  let stream := fun (b : Bool) (y : Stream) =>
    { y with
      badScalar := y.badScalar ++ (((List.range 64).drop 1).filter (fun n => bad.contains (lineOf (streamPlace b n)))).map (BitVec.ofNat 6)
      badRing := y.badRing ++ (List.range 8).filter (fun i => bad.contains (lineOf (streamPlace b (64 + i))))
      badPred := (List.range 7).foldl (fun m i => if bad.contains (lineOf (streamPlace b (72 + i))) then m ||| BitVec.ofNat 7 (2 ^ i) else m) y.badPred
      latches := y.latches.zipIdx.flatMap (fun p => p.1 :: (if bad.contains (lineOf (streamPlace b (80 + p.2))) then p.1.marks else [])) }
  { x with
    prim := stream false x.prim
    sec := stream true x.sec
    badMask := x.badMask ++ ((List.range 64).filter (fun n => 8 ≤ n && bad.contains (lineOf (taskPlace n)))).map (fun n => (BitVec.ofNat 3 (n / 8), n % 8))
    badStream := x.badStream ++ ((List.range 128).filter (fun n => bad.contains (lineOf (taskPlace (64 + n))))).map (fun n =>
      (BitVec.ofNat 4 (n / 8), BitVec.ofNat 3 (n % 8)))
    badVector := (inside 0x10000 0x20000).flatMap (fun o => (List.range 8).map (fun i => (BitVec.ofNat 6 (o / 1024), o % 1024 / 8 + i)))
    accBad := (inside 0x30000 0x90000).flatMap (fun o => (List.range 16).map (fun i => o / 4 + i)) ++
      (inside 0x90000 0x108000).flatMap (fun o => (List.range ((o + 63) / 20 - o / 20 + 1)).map (fun i => 98304 + o / 20 + i))
    plane := { x.plane with
      sums := (inside 0x108000 0x1C8000).foldl (fun t o => (List.range 32).foldl (fun t i => tput 0 t (o / 2 + i) 0xFFFF) t) x.plane.sums } }

/-- The listed bytes of an area by offset. -/
def State.areaImage (s : State) (area : Nat) : Table Byte :=
  (Memory.range s.mem area (area + areaBytes)).map (fun p => (p.1 - area, p.2))

/-- The regions that each revision defines are those of an image written earlier (assumption 23). -/
def sameOpenRegions (img : Table Byte) (n : Nat) : Bool :=
  openRegions.all (fun r => Memory.range img r.2.1 (r.2.1 + r.2.2) =
    Memory.clean r.2.1 (r.2.1 + r.2.2) (atAddr r.2.1 ((Config.saveRegion r.1 n).take r.2.2)))

/-- A header and the reserved bytes are valid (R359, R365). -/
def headerOk (img : Table Byte) (rev : BitVec 16) : Bool :=
  let at_ := fun o n => natOfBytes (Memory.bytes img o n)
  at_ 0 4 = 0x58415653 && at_ 4 2 = 0x0100 && at_ 6 2 % 2 = 1 && at_ 6 2 < 8 && at_ 0xD 1 = 0 && at_ 0xE 2 = rev.toNat &&
    Memory.range img 0x18 0x1000 = [] && Memory.range img 0x1C8000 areaBytes = []

/-- The 4 KiB pieces of an area. -/
def areaPieces (area : Nat) : List Nat := (List.range 512).map (fun i => area + 4096 * i)

/-- The shares of an area that are not resident, lowest first. -/
def State.absentIn (s : State) (area : Nat) : List Nat := (areaPieces area).filter (fun a => !s.resident a)

/-- The units of a range that hold errors are read (R72 to R74, R123). -/
def State.readRange (s : State) (lo hi : Nat) : State :=
  (unitsOf ((s.poison ++ s.flips ++ s.fatals).filter (fun a => lo ≤ a && a < hi))).foldl State.noteUnit s

/-- Some byte of a range is poisoned. -/
def State.poisonIn (s : State) (lo hi : Nat) : Bool := s.poison.any (fun a => lo ≤ a && a < hi)

/-! ### The scheduler's save areas (R335, R359; assumption 18) -/

/-- The save area of a task's context on a core. -/
def ctxArea (place : Nat) (c : CoreId) : Nat := 2 ^ 47 + areaBytes * (8 * place + c.val)

/-- The slice save area of a task on a core. -/
def sliceArea (place : Nat) (c : CoreId) : Nat := 2 ^ 46 + 2 ^ 27 * (8 * place + c.val)

/-- The areas of a task, by its key. -/
def State.placeOf (s : State) (key : Nat) : Nat := ((s.tasks.find? (fun t => t.key = key)).map (·.place)).getD 0

/-- The shares of a range of package memory that begins a page. -/
def pageShares (base len : Nat) : List Nat :=
  (List.range ((len + 65535) / 65536)).flatMap (fun i => (List.range 8).map (fun h => base + 65536 * i + 4096 * h))

/-- The firmware pins the save areas of a task on a core (R63, R335). -/
def State.pinAreas (s : State) (t : Task) (c : CoreId) : State :=
  (pageShares (ctxArea t.place c) areaBytes ++ pageShares (sliceArea t.place c) (1024 * t.scratch)).foldl
    (fun s a => (s.mapPointers a).mapShare a true) s

/-- No home holds a write. -/
def allHomesFree (s : State) : Bool := [(0 : CoreId), 1, 2, 3, 4, 5, 6, 7].all (fun h => (s.home h).held = [])

/-- The firmware unmaps the shares of a range, of which each is given by its first IA (R63): at once where no access is under way. -/
def State.unmapShares (s : State) (hit : Nat → Bool) (shares : List Nat) : State :=
  if s.allOps = [] && allHomesFree s then
    shares.foldl (fun s a => s.updHome (homeOf a) (fun m => m.unmap a)) (s.forgetShares (fun k => hit (s.place k)))
  else shares.foldl State.unmapShare s

/-- The firmware gives them back (R63). -/
def State.dropAreas (s : State) (t : Task) (c : CoreId) : State :=
  let drop := fun (s : State) (lo len : Nat) => s.unmapShares (fun k => lo ≤ k && k < lo + len) (pageShares lo len)
  drop (drop s (ctxArea t.place c) areaBytes) (sliceArea t.place c) (1024 * t.scratch)

/-- A context of a task as it comes back from its save area (R333, R362): the archivist reads the area. -/
def State.restoreCtx (s : State) (t : Task) (c : CoreId) : State × Option Ctx :=
  let area := ctxArea t.place c
  let s1 := s.readRange area (area + areaBytes)
  (s1, (aget t.saved c.val).map (fun x => (x.fillFrom (s1.areaImage area)).markFrom
    ((s1.poison.filter (fun a => area ≤ a && a < area + areaBytes)).map (fun a => a - area))))

/-! ### Parking and resuming a context (R115, R358, R361, R363) -/

/-- A stream as a swap saves it (R361): a query that is under way is asked again. -/
def Stream.parked (x : Stream) : Stream :=
  { x with
    answers := []
    hold := match x.hold with
      | .residency _ _ => .none
      | .rel true false => .rel false false
      | h => h }

/-- A drain of the plane set has begun to write (R363). -/
def TileOp.writing (t : TileOp) : Bool :=
  match t.stage with
  | .write true _ => 0 < t.done
  | _ => false

/-- A tile operation as a swap saves it (R363): a drain of the plane set that has not begun to write starts again; one that
has, and MDRN and XFIN, go on from their next row. -/
def TileOp.parked (t : TileOp) : TileOp :=
  if t.writing then t
  else
    match t.kind, t.stage with
    | .rnsx .., _ => { t with stage := .feed, done := 0 }
    | .rnschk, _ => { t with stage := .feed, done := 0 }
    | .xdot _, .feed => t
    | .xdot _, _ => { t with stage := .settle, done := t.steps }
    | _, _ => { t with waits := none }

/-- A job as a swap saves it (R115): it resumes from its cursor at swap-in. -/
def Job.parked (j : Job) : Job := if j.kind.needsEngine then { j with started := false, engine := none, waits := none } else j

/-- A context as a swap saves it. -/
def Ctx.parked (x : Ctx) : Ctx :=
  { x with prim := x.prim.parked, sec := x.sec.parked, jobs := x.jobs.map Job.parked, tiles := x.tiles.map TileOp.parked }

/-- The events of a context that a swap calls off; they are put under way again at swap-in. -/
def Ctx.ownEvents (x : Ctx) (c : CoreId) : List Instr :=
  [false, true].flatMap (fun b => [.yieldAnswer c b, .canjAnswer c b, .waddrPoll c b, .residencyAnswer c b, .hostWindowFlushComplete c b,
    .swprepStagingEnd c b]) ++
  (x.jobs.filter (fun j => j.kind.needsEngine)).flatMap (fun j =>
    [.jobComplete c j.id, .hostCompletionTimeout c j.id, .peerAccessTimeout c j.id]) ++
  x.tiles.flatMap (fun t =>
    match t.kind with
    | .rnsx .. => [.tileOperationComplete c t.id]
    | .rnschk => [.tileOperationComplete c t.id]
    | .xdot _ => [.tileOperationComplete c t.id, .xdotDrainStart c t.id]
    | .mdrn .. => [.drainComplete c t.id]
    | .xfin .. => [.drainComplete c t.id]
    | _ => [])

/-- Call off the events of a context. -/
def State.callOff (s : State) (c : CoreId) (x : Ctx) : State :=
  let es := x.ownEvents c
  { s with agenda := s.agenda.filter (fun p => !es.contains p.2) }

/-- Put the events of a context that has become live under way. -/
def State.resumeCtx (s : State) (c : CoreId) : State :=
  let x := s.ctx c
  let s1 := [false, true].foldl (fun s b =>
    let s := if (x.stream b).asking.isSome then s.afterAtMost 32000 (.canjAnswer c b) else s
    match (x.stream b).wait with
    | .yield .. => s.afterAtMost 4800 (.yieldAnswer c b)
    | .staging .. => s.after (.swprepStagingEnd c b)
    | .addr w => s.updStream c b (fun y => { y with wait := .addr { w with poll := 0, sent := none } })
    | _ => s) s
  x.tiles.foldl (fun s t =>
    match t.kind, t.stage with
    | .xdot _, .settle => s.afterN 1 (.xdotDrainStart c t.id)
    | .xdot _, .write _ _ => s.afterN 1 (.tileOperationComplete c t.id)
    | .rnsx .., .write _ _ => s.afterN 1 (.tileOperationComplete c t.id)
    | .mdrn .., _ => s.after (.drainComplete c t.id)
    | .xfin .., _ => s.after (.drainComplete c t.id)
    | _, _ => s) s1

/-- Cycles until the steps in the feed have reached the accumulators (R363). -/
def Ctx.drainTime (x : Ctx) : Nat :=
  x.tiles.foldl (fun n t =>
    let steps := match t.kind with | .mma => true | .mmz => true | .mmi => true | .xdot _ => true | _ => false
    if steps && (t.stage = .settle || (t.stage = .feed && 0 < t.done)) then Nat.max n t.settleTime else n) 1

/-- A write of the secondary stream to a register of the core that the primary writes in the same cycle: the primary's
write stays (R339). Registers 0x000 to 0x009 are each stream's own. -/
def EndWrite.yields (w : EndWrite) (l : List EndWrite) : Bool :=
  match w with
  | .ctl true r _ => 9 < r.toNat && l.any (fun q => match q with | .ctl false q _ => q == r | _ => false)
  | .engine true n _ => l.any (fun q => match q with | .engine false m _ => m == n | _ => false)
  | _ => false

/-- Apply the writes that end the cycle (R111, R190, R339, R356): those of the secondary first, then of the primary,
then the tags that are cleared. -/
def State.landEndWrites (s : State) (c : CoreId) : State :=
  let l := (s.core c).endWrites.filter (fun w => !w.yields (s.core c).endWrites)
  let s0 := s.updCore c (fun k => { k with endWrites := [] })
  let put := fun (sec : Bool) (s : State) (w : EndWrite) =>
    match w with
    | .ctl b r v => if b == sec then s.ctlWrite c b r.toNat v else s
    | .engine b n v => if b == sec then s.updCtx c (fun x => { x with e := x.e.set n.toNat v n.isLt }) else s
    | _ => s
  let s1 := l.foldl (put false) (l.foldl (put true) s0)
  l.foldl (fun s w =>
    match w with
    | .tagClear m => s.updCtx c (fun x => x.clearTags m)
    | _ => s) s1

/-- The firmware prepares a window with first touch (R65): present level-3 pointers for every 2 MiB of paged IA, in
every home that holds a share of it. -/
def State.prepareWindow (s : State) (w : Vector Word 32) (n : Fin 8) : State :=
  if winEnabled w n && (winAttr w n).getLsbD 2 then
    foldUp ((winOff w n % 0x200000 + winSize w n + 0x1FFFFF) / 0x200000) (fun s i =>
      let ia := (winOff w n / 0x200000 + i) * 0x200000
      match regionOf ia with
      | .pkg => foldUp 8 (fun s h => s.mapPointers (ia + 4096 * h)) s
      | .stack _ => s.mapPointers ia
      | _ => s) s
  else s

/-- The firmware prepares a context's windows before its swap-in (R65). -/
def State.preparePointers (s : State) (x : Ctx) : State :=
  [(0 : Fin 8), 1, 2, 3, 4, 5, 6, 7].foldl (fun s n => s.prepareWindow x.win n) s

/-- The bank holds a context that can be swapped in: one of a task (R360). -/
def Core.stagedTask (k : Core) : Bool := k.bank = .staged && !((k.bankFor.map (·.2)).getD false)

/-- The swap of a core (R361 to R363): the live context, if there is one, goes to the shadow bank, which the archivist
spills within 2 µs of the cube's drain; the staged one becomes live and may issue 32 cycles on. -/
def State.swapCore (s : State) (c : CoreId) : State :=
  let s0 := s.landEndWrites c
  let k := s0.core c
  let staged := k.stagedTask
  let s0 := if staged then s0.preparePointers k.shadow else s0
  let s1 := if k.live then s0.callOff c k.ctx else s0
  let drain := if k.ctx.tiles ≠ [] then k.ctx.drainTime else 0
  let s2 := s1.updCore c (fun k =>
    { k with live := staged
             ctx := if staged then k.shadow else Ctx.reset
             bank := if k.live then .spilling else .empty
             shadow := if k.live then k.ctx.parked else Ctx.reset
             bankFor := none, spill := none
             swapEnd := s.now + 32, cubeDrain := k.live && k.ctx.tiles ≠ [], resCache := [], fed := false, pause := none })
  let s3 := if k.live then
      (if k.ctx.tiles ≠ [] then s2.afterN drain (.cubeSwapDrainEnd c) else s2).afterWithin (drain + 2048) (drain + 3200) (.spillComplete c)
    else s2
  if staged then s3.resumeCtx c else s3

/-- CUBE_SWAP_DRAIN_END (R363). -/
def execCubeSwapDrainEnd (c : CoreId) (s : State) : Answer := .next (s.updCore c (fun k => { k with cubeDrain := false }))

/-! ### SWPREP and SWAP (R365) -/

/-- The IA of a 2 MiB operand of SWPREP, or its trap (R57, R365). The area keeps no attributes of its window: that no access to an
image makes a first touch, also in a window with Z, is the model's choice, as R65 does not say (assumption 91). -/
def State.areaOf (s : State) (va : Word) (k : AccessKind) : Except TrapReq Nat :=
  match translate s.curCtx.win va areaBytes k with
  | none => .error { cause := 0x0F, tval := va }
  | some (ia, _) => .ok ia

/-- A 2 MiB range lies in package memory. -/
def inPackage (ia : Nat) : Bool := regionOf ia = .pkg && regionOf (ia + areaBytes - 1) = .pkg

/-- SWPREP (R365): privileged. -/
def execSwprep (d a b : BitVec 6) (s : State) : Answer :=
  let va := s.cur.rs a
  let vb := s.cur.rs b
  if !s.cur.priv then .next (s.raise { cause := 0x02, tval := privilegeRecord 0 (.swprep d a b) })
  else if va.toNat % areaBytes ≠ 0 then .next (s.raise { cause := 0x05, tval := va })
  else if vb.toNat % areaBytes ≠ 0 then .next (s.raise { cause := 0x05, tval := vb })
  else
    match s.areaOf va .read, s.areaOf vb .write with
    | .error t, _ => .next (s.raise t)
    | _, .error t => .next (s.raise t)
    | .ok ia, .ok ib =>
      if !inPackage ia then .next (s.raise { cause := 0x0F, tval := va })
      else if !inPackage ib then .next (s.raise { cause := 0x0F, tval := vb })
      else if s.curCore.bank ≠ .empty then s.putS 2 d 1
      else .next ((s.freeze (.staging d ia ib vb)).after (.swprepStagingEnd s.issue.core s.issue.sec))

/-- The staged context of an image and the status of its staging (R365): 2 an invalid image, 3 one absent or poisoned. -/
def State.stageImage (s : State) (c : CoreId) (area : Nat) : State × Word × Option Ctx :=
  let s1 := (s.readRange area (area + areaBytes)).noteWalks (areaPieces area)
  let absent := s1.absentIn area
  let img := s1.areaImage area
  if absent.contains area || s1.poisonIn area (area + 4096) then (s1, 3, none)
  else if !headerOk img s1.hub.settings.revision then (s1, 2, none)
  else if absent ≠ [] || s1.poisonIn area (area + areaBytes) then (s1, 3, none)
  else
    match s1.hub.images.find? (fun p => sameOpenRegions img p.1) with
    | none => (s1, 2, none)
    | some p => (s1.updHub (fun h => { h with away := h.away.filter (fun a => a.1 ≠ p.1) }), 0, some { p.2.fillFrom img with task := (s1.ctx c).task })

/-- SWPREP_STAGING_END (R365). -/
def execSwprepStagingEnd (c : CoreId) (sec : Bool) (s : State) : Answer :=
  match (s.stream c sec).wait with
  | .staging d image area va =>
    let wake := fun (s : State) (v : Word) => s.updStream c sec (fun x => { x with wait := .none }.emit 2 (.scalar d v))
    if (s.core c).bank ≠ .empty then .next (wake s 1)
    else
      let r := s.stageImage c image
      match r.2.2 with
      | none => .next (wake r.1 r.2.1)
      | some x => .next (wake (r.1.updCore c (fun k =>
          { k with bank := .staged, shadow := x, bankByTask := true, bankFor := none, saveArea := area, saveVa := va })) 0)
  | _ => .next s

/-! ### The spill (R362, R364) -/

/-- What the archivist waits for in a context (R115, R362). -/
def Ctx.spillReady (x : Ctx) : Bool :=
  let done := fun (y : Stream) => y.ld = 0 && y.at_ = 0 && y.st = 0
  done x.prim && done x.sec && !x.jobs.any (fun j => match j.kind with | .settled .. => true | _ => false) &&
    !x.tiles.any (fun t => t.stage = .settle && (match t.kind with | .xdot _ => false | _ => true))

/-- The archivist may write the header (R115, R362). -/
def Core.spillReady (k : Core) : Bool := k.shadow.spillReady && !k.cubeDrain

/-- Keep a context of a task that is not live. -/
def State.keepCtx (s : State) (c : CoreId) (x : Ctx) : State :=
  { s with tasks := s.tasks.map (fun t => if t.key = x.task then { t with saved := aput t.saved c.val x } else t) }

/-- The READY tasks are considered again, at once (R334, R336). -/
def State.reconsider (s : State) : State :=
  s.tasks.foldl (fun s t =>
    if t.state = .ready && !s.agenda.any (fun p => p.2 = .taskPlace t.key) then s.afterAtMost 400 (.taskPlace t.key) else s) s

/-- The least of some numbers. -/
def least (l : List Nat) : Option Nat := l.foldl (fun m o => match m with | none => some o | some x => some (Nat.min x o)) none

/-- The position at which a spill stops, at or after one (R73, R364): a share that is not resident, or a line with an
uncorrectable error (assumption 79). -/
def State.spillStop (s : State) (area from_ : Nat) : Option Nat :=
  let bad := (s.poison ++ s.fatals).filter (fun a => area ≤ a && a < area + areaBytes)
  least ((((s.absentIn area).map (fun a => a - area) ++ bad.map (fun a => lineOf (a - area))).map imagePos).filter (fun p => from_ ≤ p))

/-- A context whose image is written: the scheduler's stays with its task; one that its own task has swapped out is away (R365). -/
def State.spilled (s : State) (c : CoreId) (n : Nat) : State :=
  let k := s.core c
  let s1 := s.recordImage n k.shadow
  let s2 := if k.bankByTask then s1.updHub (fun h => { h with away := (n, c) :: h.away }) else s1.keepCtx c k.shadow
  s2.updCore c (fun k => { k with bank := .empty, shadow := Ctx.reset, bankByTask := false, spill := none })

/-- SPILL_COMPLETE (R79, R362, R364): the image is written up to a place that stops it, or whole, its header with COMPLETE last;
the bank then becomes EMPTY. -/
def execSpillComplete (c : CoreId) (s : State) : Answer :=
  let k := s.core c
  if k.bank ≠ .spilling then .next s
  else if !k.spillReady then .next (s.afterN 1 (.spillComplete c))
  else if !(s.archiveReady (.spillComplete c) k.saveArea areaBytes).2 then
    .next ((s.archiveReady (.spillComplete c) k.saveArea areaBytes).1.afterN 1 (.spillComplete c))
  else
    let s := ((s.archiveReady (.spillComplete c) k.saveArea areaBytes).1).noteWalks (areaPieces k.saveArea)
    let w := k.spill.getD (s.nextId, imageStart)
    let s0 := if k.spill.isSome then s else { s with nextId := s.nextId + 1 }
    match s0.spillStop k.saveArea w.2 with
    | none =>
      .next ((s0.writePart c k.shadow k.saveArea w.1 w.2 imageEnd).spilled c w.1).reconsider
    | some p =>
      let o := p % areaBytes
      let s1 := s0.writePart c k.shadow k.saveArea w.1 w.2 p
      .next (((s1.readRange (k.saveArea + o) (k.saveArea + o + 64)).updCore c (fun k => { k with spill := some (w.1, p) })).afterN 1
        (.saveAreaFault c (k.saveVa + BitVec.ofNat 64 o)))

/-- SAVE_AREA_FAULT (R335, R364): the spill, or the slice transfer, stops; cause 0x0E reaches the firmware with the VA of the
line, and the new context runs on. -/
def execSaveAreaFault (c : CoreId) (va : Word) (s : State) : Answer :=
  let k := s.core c
  let report := fun (s : State) => (s.updHub (fun h => { h with reports := h.reports ++ [.saveArea c va] })).msix 0
  if k.bank = .spilling then .next (report ((s.cancelEvent (.spillComplete c)).updCore c (fun k => { k with bank := .held })))
  else if k.sliceBusy && k.xfer.isSome && !k.xferHeld then
    .next (report ((s.cancelEvent (.sliceTransferEnd c)).updCore c (fun k => { k with xferHeld := true })))
  else .next s

/-- The firmware makes the share resident at which a spill stopped, and clears its line (R73, R364). -/
def State.mendArea (s : State) (k : Core) : State :=
  let s1 := s.pinRange k.saveArea areaBytes
  match k.spill with
  | some w => let line := k.saveArea + w.2 % areaBytes; s1.archive line (line + 64) []
  | none => s1

/-! ### The held context comes back (R364) -/

/-- The cores where a task is live. -/
def State.liveOn (s : State) (key : Nat) : List CoreId :=
  [(0 : CoreId), 1, 2, 3, 4, 5, 6, 7].filter (fun m => (s.core m).live && (s.ctx m).task = key)

/-- A task's live contexts can be written away: nothing of them is outstanding, and no checkpoint of the task is under way (R373). -/
def State.settled (s : State) (key : Nat) : Bool :=
  (s.liveOn key).all (fun m => (s.ctx m).spillReady) && s.tasks.all (fun t => t.key ≠ key || t.copying = 0)

/-- The lock-step pair is restarting: DEVSTAT.FWRST (R80, R326). -/
def State.restarting (s : State) : Bool := s.hub.devstat.getLsbD 2

/-- No bundle of a task issues before the next cycle. -/
def State.stall (s : State) (key : Nat) : State :=
  (s.liveOn key).foldl (fun s m => s.updCore m (fun k => { k with swapEnd := Nat.max k.swapEnd (s.now + 2) })) s

/-- The firmware takes a task off its cores, past the banks: its contexts are written to their save areas, and it is READY. -/
def State.putAway (s : State) (key : Nat) : State :=
  let s1 := (s.liveOn key).foldl (fun s m =>
    let s1 := s.landEndWrites m
    let x := (s1.ctx m).parked
    (((s1.callOff m (s1.ctx m)).writeImage m x (ctxArea (s.placeOf key) m)).keepCtx m x).updCore m (fun k =>
      { k with live := false, ctx := Ctx.reset })) s
  { s1 with
    nextId := s1.nextId + 1
    tasks := s1.tasks.map (fun q => if q.key = key then { q with state := .ready, order := s1.nextId, protectedFrom := none } else q) }

/-- A context becomes live on a core. -/
def State.bringLive (s : State) (c : CoreId) (x : Ctx) : State :=
  ((s.preparePointers x).updCore c (fun k => { k with live := true, ctx := x, swapEnd := s.now + 32, resCache := [] })).resumeCtx c

/-- The context that a task has on one more core becomes live there: from the bank that holds it, or from its save area. -/
def State.bringBack (s : State) (t : Task) (c : CoreId) : State :=
  let k := s.core c
  if k.bank = .held && k.shadow.task = t.key then
    (s.bringLive c k.shadow).updCore c (fun k => { k with bank := .empty, shadow := Ctx.reset, bankByTask := false, spill := none })
  else
    let r := s.restoreCtx t c
    match r.2 with
    | some x => r.1.bringLive c x
    | none => s

/-- The tasks that are live on cores of another one. -/
def State.inWay (s : State) (t : Task) : List Nat :=
  ((t.cores.filter (fun m => (s.core m).live && (s.ctx m).task ≠ t.key)).map (fun m => (s.ctx m).task)).eraseDups

/-- HELD_CONTEXT_SWAP_IN (R65, R364): the firmware swaps the held context back in whole, on every core of its task; the tasks
that are live there make way once nothing of them is outstanding, and no spill of the task's own may be under way. It waits for a
restart of the pair and for a core above its temperature (R326, R394). -/
def execHeldContextSwapIn (c : CoreId) (s : State) : Answer :=
  let k := s.core c
  if k.bank ≠ .held then .next s
  else
    match s.tasks.find? (fun q => q.key = k.shadow.task) with
    | none => .next s
    | some t =>
      let away := s.inWay t
      if s.restarting || t.cores.any (fun m => (s.core m).tooHot) then .next (s.afterN 16 (.heldContextSwapIn c))
      else if !away.all s.settled || t.cores.any (fun m => (s.core m).bank = .spilling && (s.core m).shadow.task = t.key) then
        .next ((away.foldl State.stall s).afterN 1 (.heldContextSwapIn c))
      else
        let s1 := away.foldl State.putAway s
        let s2 := if (s1.core c).live then (s1.landEndWrites c).callOff c (s1.ctx c) else s1
        let s3 := (c :: t.cores.filter (· ≠ c)).foldl (fun s m => if m ≠ c && (s.core m).live then s else s.bringBack t m) s2
        let s4 := { s3 with tasks := s3.tasks.map (fun q => if q.key = t.key then { q with state := .running, saved := [] } else q) }
        .next (if k.bankByTask then s4
          else t.cores.foldl (fun s m =>
            ((s.cancelEvent (.sliceTransferEnd m)).updCore m (fun k => { k with sliceBusy := true, xfer := none, xferHeld := false })).afterN 1
              (.sliceTransferEnd m)) s4)

end Sys2Proof.Machine
end

