-- ==== Sys2Proof/Machine/Sched.lean ====
section
/-! DEFINITION. The scheduler: placement and pre-emption, staging, swaps and SWAP, the slice transfer, YIELD's
answer, reservations, and the end and retirement of a task (R323, R324, R332 to R337, R341, R343, R360, R361, R365). -/

namespace Sys2Proof.Machine

/-- The cores of the device. -/
def allCores : List CoreId := [0, 1, 2, 3, 4, 5, 6, 7]

/-- Whole µs of device time, counted from the epoch of the configuration record (R336; assumption 80). -/
def State.micros (s : State) : Nat := Config.clockAtReset + s.now / 1600 - s.hub.settings.epoch

/-- A task by its key. -/
def State.task (s : State) (key : Nat) : Option Task := s.tasks.find? (fun t => t.key = key)

/-! ### Completion entries (R324) -/

/-- The 16 bytes of a completion entry. -/
def completionBytes (seq : BitVec 32) (status type : Nat) (code info : BitVec 32) : List Byte :=
  bytesOfNat 4 seq.toNat ++ bytesOfNat 2 status ++ bytesOfNat 1 type ++ [0] ++ bytesOfNat 4 code.toNat ++ bytesOfNat 4 info.toNat

/-- IA of a queue's descriptor (R319). -/
def descriptor (q : Nat) : Nat := 64 * q

/-- A field of a queue's descriptor. -/
def State.descField (s : State) (q off n : Nat) : Nat := natOfBytes ((addrs (descriptor q + off) n).map s.firmwareByte)

/-- LOG2N of a queue. -/
def State.ringLog (s : State) (q : Nat) : Nat := s.descField q 0x10 1

/-- Write bytes as the firmware does (R79). -/
def State.firmwareWrite (s : State) (ia : Nat) (bytes : List Byte) : State := s.firmwareWrites ia bytes none

/-- Write a completion entry, its serial number last, and raise vector 16 + q (R81, R324). -/
def State.complete (s : State) (q : Nat) (seq : BitVec 32) (status type : Nat) (code info : BitVec 32) : State :=
  let at_ := s.descField q 0x08 8 + 16 * (seq.toNat % 2 ^ s.ringLog q)
  let e := completionBytes seq status type code info
  (s.firmwareWrite (at_ + 4) (e.drop 4)).firmwareWrites at_ (e.take 4) (some (16 + q))

/-- A packet of the journal by its key. -/
def State.packet (s : State) (key : Nat) : Option Packet := s.hub.packets.find? (fun p => p.key = key)

/-- Change a packet of the journal. -/
def State.updPacket (s : State) (key : Nat) (f : Packet → Packet) : State :=
  s.updHub (fun h => { h with packets := h.packets.map (fun p => if p.key = key then f p else p) })

/-- A packet's serial order: every earlier packet of its queue has started, and with a barrier has completed (R323). -/
def State.mayBegin (s : State) (p : Packet) : Bool :=
  s.hub.packets.all (fun e => e.queue ≠ p.queue || p.order ≤ e.order || e.state = .completed ||
    (e.state = .started && !p.bits.getLsbD 14))

/-- The type of a packet (R322). -/
def Packet.kind (p : Packet) : Nat := (p.bits.extractLsb' 0 8).toNat

/-- The event that starts a packet of a type; a type that is not valid starts as an invoke and fails its checks (R324). -/
def Packet.startEvent (p : Packet) : Instr :=
  match p.kind with
  | 2 => .loadSlotPacket p.key
  | 3 => .unloadSlotPacket p.key
  | 4 => .copyPacket p.key
  | 5 => .signalPacket p.key
  | 6 => .waitPacket p.key
  | 7 =>
    match (p.bits.extractLsb' 80 8).toNat with
    | 1 => .groupGrant p.key
    | 2 => .groupReopen p.key
    | 3 => .groupRelease p.key
    | _ => .groupForm p.key
  | _ => .invokePacket p.key

/-- The packets that wait and may now start (R323); a signal whose access is under way has been taken. -/
def State.readyPackets (s : State) : List Packet :=
  s.hub.packets.filter (fun p => p.state = .waiting && p.access.isNone && s.mayBegin p)

/-- A packet that may start is taken before another: the more urgent, then the one whose doorbell write was accepted first
(R323). -/
def Packet.before (a b : Packet) : Bool :=
  let prio := fun (p : Packet) => (p.bits.extractLsb' 8 6).toNat
  prio b < prio a || (prio a = prio b && (a.bell < b.bell || (a.bell = b.bell && a.order ≤ b.order)))

/-- The packet that the firmware takes next (R323). -/
def State.firstReady (s : State) : Option Packet := (sortBy Packet.before s.readyPackets).head?

/-- The packets that may now start are put under way, within a number of cycles: one that a doorbell write has made consumable is
taken within 3 µs of it, and one that another packet made way for at once; one that comes before another is taken first (R323,
R326). -/
def State.startPackets (s : State) (within : Nat) : State :=
  (s.readyPackets.filter (fun p => !s.agenda.any (fun e => e.2 = p.startEvent))).foldl (fun s p =>
    if within = 0 then s.afterN 0 p.startEvent else s.afterAtMost within p.startEvent) s

/-- A packet completes: its entry is written and the packets behind it are considered (R323, R324). -/
def State.finishPacket (s : State) (p : Packet) (status : Nat) (code info : BitVec 32) : State :=
  ((s.updPacket p.key (fun p => { p with state := .completed })).complete p.queue p.serial status p.kind code info).startPackets 0

/-- A packet starts. -/
def State.startPacket (s : State) (p : Packet) : State :=
  (s.updPacket p.key (fun p => { p with state := .started })).startPackets 0

/-! ### Which cores a task may take (R13, R334, R336) -/

/-- The core sets of a shape in order of their lowest core (R13, R322). -/
def shapeSets (shape : BitVec 2) : List (List CoreId) :=
  match shape.toNat with
  | 1 => [[0, 4], [1, 5], [2, 6], [3, 7]]
  | 2 => [[0, 1], [1, 2], [2, 3], [4, 5], [5, 6], [6, 7]]
  | 3 => [[0, 1, 4, 5], [1, 2, 5, 6], [2, 3, 6, 7]]
  | _ => []

/-- Field of a reservation entry: offset and bytes (R336). -/
def resField (e : BitVec 512) (off n : Nat) : Nat := (e.extractLsb' (8 * off) (8 * n)).toNat

/-- A reservation window is open at a time in µs (R336). -/
def windowOpen (e : BitVec 512) (t : Nat) : Bool :=
  let start := resField e 0x08 8
  let period := resField e 0x10 4
  let len := resField e 0x14 4
  (resField e 0x01 1) % 2 = 1 && start ≤ t && (if period = 0 then t < start + len else (t - start) % period < len)

/-- The class that a core is reserved for, 0 for none (R336). -/
def State.reservedFor (s : State) (c : CoreId) : Nat :=
  (((List.range 16).drop 1).find? (fun i =>
    let e := s.hub.reservations.toList.getD i 0
    windowOpen e s.micros && (resField e 0 1).testBit c.val)).getD 0

/-- A task whose streams have all halted or never started, or which the firmware has ended (R333). -/
def State.draining (s : State) (t : Task) : Bool :=
  t.state = .draining || t.ended.isSome ||
    (t.state = .running && t.cores.all (fun c => !(s.core c).live || (s.ctx c).task ≠ t.key ||
      (!(s.stream c false).live && !(s.stream c true).live && (s.stream c false).stopped.isNone && (s.stream c true).stopped.isNone)))

/-- The task that holds a core. -/
def State.holder (s : State) (c : CoreId) : Option Task := if (s.core c).live then s.taskOf c else none

/-- A core is promised to a task that is to be staged or is staged. -/
def State.promised (s : State) (c : CoreId) : Bool :=
  s.tasks.any (fun t => t.cores.contains c &&
    (t.state = .staged || (t.state = .ready && s.agenda.any (fun e => e.2 = .contextStage t.key))))

/-- A core takes no staging now (R360, R377, R394). -/
def State.coreShut (s : State) (c : CoreId) : Bool :=
  let k := s.core c
  k.bank ≠ .empty || !k.usable || k.tooHot || k.sliceBusy || s.promised c

/-- A task may take a core from its holder (R334, R336): a borrower, or one of lower priority; not a class's own task
from its reserved core, nor the task that its own yield let in. Where R334 protects a borrower from its yielder and R336 gives
the yielder's class its reserved core back, the reservation goes first: the model's choice (assumption 92). -/
def State.mayTake (s : State) (t h : Task) (c : CoreId) : Bool :=
  let r := s.reservedFor c
  if r ≠ 0 && t.rcls.toNat = r && h.rcls.toNat ≠ r then true
  else if r ≠ 0 && h.rcls.toNat = r && t.rcls.toNat ≠ r then false
  else h.prio < t.prio && h.protectedFrom ≠ some t.key

/-- A holder can be swapped out whole (R334, R360, R373). -/
def State.mayLeave (s : State) (h : Task) : Bool :=
  h.state = .running && !s.draining h && h.copying = 0 && h.cores.all (fun c => (s.core c).bank = .empty && !(s.core c).sliceBusy)

/-- How a core can be had by a task: none not; some none free; some h by pre-empting h (R334). -/
def State.canHave (s : State) (t : Task) (c : CoreId) : Option (Option Task) :=
  if s.coreShut c then none
  else
    match s.holder c with
    | none => if (s.core c).live then none else some none
    | some h => if h.key ≠ t.key && s.mayTake t h c && s.mayLeave h then some (some h) else none

/-- The cores for a task now, or none (R334): the first ones free; else those of the least urgent holders. -/
def State.placement (s : State) (t : Task) : Option (List CoreId) :=
  let ok := fun (l : List CoreId) => l.all (fun c => (s.canHave t c).isSome)
  let free := fun (l : List CoreId) => l.all (fun c => s.canHave t c = some none)
  if t.cores ≠ [] then (if ok t.cores && (!t.started || t.cores.all (fun c => (aget t.saved c.val).isSome)) then some t.cores else none)
  else if t.shape ≠ 0 then ((shapeSets t.shape).find? free).orElse (fun _ => (shapeSets t.shape).find? ok)
  else
    let open_ := allCores.filter (fun c => s.canHave t c = some none)
    let taken := sortBy (fun a b => decide (((s.holder a).map (·.prio.toNat)).getD 0 ≤ ((s.holder b).map (·.prio.toNat)).getD 0))
      (allCores.filter (fun c => match s.canHave t c with | some (some _) => true | _ => false))
    let l := (open_ ++ taken).take t.n
    if l.length = t.n then some (sortBy (fun a b => a.val ≤ b.val) l) else none

/-- A READY task comes before another (R334). -/
def Task.before (a b : Task) : Bool := b.prio < a.prio || (a.prio = b.prio && a.order < b.order)

/-- A context is staged within 2 µs (R343), and swapped in within 0.5 µs of that, where nothing stands in its way: with a spill of
2 µs behind the cube's drain the first bundle of a task of priority 63 issues within 5 µs (R335). -/
def stageCycles : Nat := 3200
def swapCycles : Nat := 400

/-- TASK_PLACE (R334, R336): a task that a more urgent one can be placed before waits for it. -/
def execTaskPlace (key : Nat) (s : State) : Answer :=
  match s.task key with
  | none => .next s
  | some t =>
    if t.state ≠ .ready || t.ended.isSome || s.agenda.any (fun e => e.2 = .contextStage key) then .next s
    else if s.restarting || s.hub.devstat.getLsbD 1 then .next (s.afterN 1600 (.taskPlace key))
    else if s.tasks.any (fun u => u.state = .ready && u.ended.isNone && u.before t && (s.placement u).isSome &&
        !s.agenda.any (fun e => e.2 = .contextStage u.key)) then
      .next (s.afterAtMost 400 (.taskPlace key))
    else
      match s.placement t with
      | none => .next s
      | some cores => .next ((s.updTask key (fun t => { t with cores := cores })).afterAtMost stageCycles (.contextStage key))

/-! ### Task start (R51, R141, R272, R279, R332) -/

/-- The bitmap of some cores. -/
def bitmap (l : List CoreId) : BitVec 8 := l.foldl (fun m c => m ||| coreBit c) 0

/-- ctl.rns at task start (R279). -/
def rnsStart (layers : BitVec 16) : Word := if layers.getLsbD 15 then 0 else 0x1E0

/-- The context of a starting task on a core of its placement (R332). -/
def Core.startCtx (k : Core) (t : Task) : Ctx :=
  let m := bitmap t.cores
  { t.start with
    task := t.key, taskId := t.taskId, placed := m, shape := t.shape
    gang := t.shape, rns := rnsStart k.layers
    domain := (m.setWidth 64) ||| (m.setWidth 64 <<< 8) }

/-- The tasks that a swap for a task moves out. -/
def State.victims (s : State) (t : Task) : List Task :=
  s.tasks.filter (fun h => h.key ≠ t.key && t.cores.any (fun c => (s.core c).live && (s.ctx c).task = h.key))

/-- Every core that takes part in the swap of a task: those of its placement and those of the tasks that make way (R361). -/
def State.swapCores (s : State) (t : Task) : List CoreId := (t.cores ++ (s.victims t).flatMap (·.cores)).eraseDups

/-- The idle context is staged where only a task makes way: a swap is possible from STAGED alone (R360). -/
def State.stageIdle (s : State) (key : Nat) (cores : List CoreId) : State :=
  cores.foldl (fun s c => s.updCore c (fun k =>
    if k.bank = .empty then { k with bank := .staged, bankByTask := false, bankFor := some (key, true), shadow := Ctx.reset } else k)) s

/-- A context is staged for the swap of its task. -/
def State.stageCtx (s : State) (key : Nat) (c : CoreId) (x : Ctx) : State :=
  s.updCore c (fun k => { k with bank := .staged, bankByTask := false, bankFor := some (key, false), shadow := x })

/-- The context of a task on a core of its placement is staged (R332, R335): one that resumes comes back from its save area; for
one that starts the firmware first pins its areas. -/
def State.stageTask (s : State) (t : Task) (c : CoreId) : State :=
  if t.started then
    let r := s.restoreCtx t c
    r.1.stageCtx t.key c (r.2.getD Ctx.reset)
  else (s.pinAreas t c).stageCtx t.key c ((s.core c).startCtx t)

/-- CONTEXT_STAGE (R335, R360, R394): staging waits for a spill under way; no task is staged on a core above its temperature. -/
def execContextStage (key : Nat) (s : State) : Answer :=
  match s.task key with
  | none => .next s
  | some t =>
    if t.state ≠ .ready || t.ended.isSome then .next s
    else if t.cores.any (fun c => (s.core c).tooHot) then
      .next ((if t.started then s else s.updTask key (fun t => { t with cores := [] })).afterAtMost 400 (.taskPlace key))
    else if s.restarting || (s.swapCores t).any (fun c => (s.core c).bank ≠ .empty) then .next (s.afterN 16 (.contextStage key))
    else
      let s1 := t.cores.foldl (fun s c => s.stageTask t c) s
      let s2 := s1.stageIdle key (s.swapCores t)
      .next ((s2.updTask key (fun t => { t with state := .staged, saved := [] })).afterAtMost swapCycles (.schedulerSwap key))

/-- A yielder's streams receive 1 from the landing latch (R341). -/
def Stream.yielded (x : Stream) : Stream :=
  match x.wait with
  | .yield d _ => { x with wait := .none }.emit 2 (.scalar d 1)
  | _ => x

/-- A core swaps, with the save area of the task that makes way, and its slice transfer follows (R335, R359, R361). -/
def State.swapFor (s : State) (c : CoreId) : State :=
  let area := ctxArea (s.placeOf (s.ctx c).task) c
  (((s.updCore c (fun k => { k with saveArea := area, saveVa := BitVec.ofNat 64 area })).swapCore c).updCore c (fun k =>
    { k with sliceBusy := true, xfer := none, xferHeld := false })).afterN 1 (.sliceTransferEnd c)

/-- The firmware writes 0 to ctl.rinj and ctl.spdiag of a core, at placement and at retirement (R411, R412). -/
def State.disarm (s : State) (c : CoreId) : State := (s.ctlWrite c false 0x042 0).ctlWrite c false 0x0D2 0

/-- What was staged for a task's swap and is not needed goes. -/
def State.unstage (s : State) (key : Nat) : State :=
  allCores.foldl (fun s c => s.updCore c (fun k =>
    if k.bank = .staged && (k.bankFor.map (·.1)) = some key then { k with bank := .empty, bankFor := none, shadow := Ctx.reset } else k)) s

/-- A task's context has come to a core of its placement already, by a SWAP there (R365). -/
def State.swappedIn (s : State) (t : Task) (c : CoreId) : Bool := (s.core c).live && (s.ctx c).task = t.key && t.cores.contains c

/-- The swap of a task, once nothing stands in its way (R253, R335, R361, R394): every core of the placement, and every core of the
tasks that make way, swap in one cycle. own: a SWAP has it done, whatever the firmware does (R365). -/
def State.trySwap (s : State) (t : Task) (own : Bool) : Option State :=
  let vs := s.victims t
  let cores := s.swapCores t
  if t.state ≠ .staged || (!own && (s.restarting || t.cores.any (fun c => (s.core c).tooHot))) || vs.any (fun h => s.draining h || h.copying ≠ 0) ||
      !cores.all (fun c => s.swappedIn t c || ((s.core c).bank = .staged && ((s.core c).bankFor.map (·.1)) = some t.key)) then none
  else
    let byYield := vs.filter (fun h => t.protectedFrom = some h.key)
    let s1 := byYield.foldl (fun s h => h.cores.foldl (fun s c =>
      s.updCtx c (fun x => { x with prim := x.prim.yielded, sec := x.sec.yielded })) s) s
    let s2 := (cores.foldl (fun u c => if s.swappedIn t c then u.afterN 1 (.sliceTransferEnd c) else u.swapFor c) s1).unstage t.key
    let s3 := vs.foldl (fun s h =>
      { s.updTask h.key (fun h => { h with state := .ready, order := s.nextId, protectedFrom := none }) with nextId := s.nextId + 1 }) s2
    let s4 := if t.started then s3 else t.cores.foldl (fun s c =>
      (s.updCore c Core.advOrigin).updCtx c (fun x => { x with prim := { x.prim with snap := s.now } })) s3
    some (((t.cores.foldl State.disarm s4).updTask t.key (fun t => { t with state := .running, started := true })).reconsider)

/-- SCHEDULER_SWAP (R253, R335, R360, R361). -/
def execSchedulerSwap (key : Nat) (s : State) : Answer :=
  match s.task key with
  | none => .next s
  | some t =>
    if t.state ≠ .staged then .next s
    else
      match s.trySwap t false with
      | some u => .next u
      | none => .next ((s.stageIdle key (s.swapCores t)).afterN 16 (.schedulerSwap key))

/-- A SWAP takes what the scheduler has staged on its core while the scheduler's own swap cannot be had (R365; assumption 22): the
core swaps alone, its task is READY, and the context that comes in issues once the whole swap of its task has been had. -/
def State.swapAlone (s : State) (c : CoreId) : State :=
  let out := (s.ctx c).task
  let area := ctxArea (s.placeOf out) c
  let s1 := if (s.core c).stagedTask then
      ((s.updCore c (fun k => { k with saveArea := area, saveVa := BitVec.ofNat 64 area })).swapCore c).updCore c (fun k =>
        { k with sliceBusy := true, xfer := none, xferHeld := false })
    else s.swapFor c
  { s1.updTask out (fun h => { h with state := .ready, order := s1.nextId, protectedFrom := none }) with nextId := s1.nextId + 1 }

/-- SWAP (R361, R365): privileged. The bundle issues whole, and the swap then begins: of the context that SWPREP staged, or the
scheduler's own swap where it is the scheduler that staged the bank (assumption 22). -/
def execSwap (d : BitVec 6) (s : State) : Answer :=
  let k := s.curCore
  if !s.cur.priv then .next (s.raise { cause := 0x02, tval := privilegeRecord 0 (.swap d) })
  else if k.bank ≠ .staged then s.putS 2 d 1
  else if 1 < (coresOf s.curCtx.placed).length then s.putS 2 d 2
  else
    let s1 := (s.emit 1 (.scalar d 0)).updCur Stream.advance
    if k.bankByTask then .next ((s1.swapCore s.issue.core).setStatus .returning)
    else
      match (k.bankFor.bind (fun q => s.task q.1)).bind (fun t => (s1.cancelEvent (.schedulerSwap t.key)).trySwap t true) with
      | some u => .next (u.setStatus .returning)
      | none => .next ((s1.swapAlone s.issue.core).setStatus .returning)

/-- The firmware swaps a task out (R360, R377): the idle context takes its cores, and it is READY. -/
def State.vacate (s : State) (key : Nat) : State :=
  let cores := s.liveOn key
  let s1 := cores.foldl State.swapFor (s.stageIdle key cores)
  { s1.updTask key (fun q => { q with state := .ready, order := s1.nextId, protectedFrom := none }) with nextId := s1.nextId + 1 }

/-! ### The slice transfer (R335, R337) -/

/-- First IA of a core's slice. -/
def sliceOf (c : CoreId) : Nat := sliceBase c.val

/-- Write zeros over a slice range (R335, R337). -/
def State.zeroSlice (s : State) (c : CoreId) (lo hi : Nat) : State :=
  s.archive (sliceOf c + lo) (sliceOf c + hi) []

/-- The words of a range of a slice that read otherwise than they are stored: the stuck one, and with RAW those with an error
(R411). -/
def State.oddWords (s : State) (lo hi : Nat) : List Nat :=
  let d := s.spdiagOf lo
  let stuck := sliceBase (sliceCore lo).val + 8 * getBits d 9 24
  ((if d.getLsbD 0 then [stuck] else []) ++ (if d.getLsbD 2 then s.poison ++ s.flips ++ s.fatals else [])).filter (fun a => lo ≤ a && a < hi)

/-- A range is copied: the errors of its source are read, and the units of the destination that a poisoned unit of the source
falls into are poisoned (R335); a slice is read as ctl.spdiag says (R411). -/
def State.copyRange (s : State) (src dst len : Nat) : State :=
  let s1 := (s.oddWords src (src + len)).foldl State.noteUnit (s.readRange src (src + len))
  let odd := (s.oddWords src (src + len)).flatMap (fun a => addrs (unitOf a) 8)
  let stored := (Memory.range s1.mem src (src + len)).map (fun p => (p.1 - src + dst, p.2))
  let s2 := s1.archive dst (dst + len) (odd.foldl (fun m a => tput 0 m (a - src + dst) (s1.byteNow a)) stored)
  (s1.poison.filter (fun a => src ≤ a && a < src + len && s1.poisoned a)).foldl (fun s a =>
    (unitsOf (addrs (a - src + dst) (unitSize a))).foldl State.addPoison s) s2

/-- The bytes of a slice that a task declares. -/
def Task.need (t : Task) : Nat := Nat.min sliceBytes (1024 * t.scratch)

/-- The parts of the slice transfer of a core (R335): the old task's part of the slice is saved; that of the task which is now
live is restored where the task resumes, or zeroed where it comes from another queue; then what lies above it is zeroed. -/
def State.xferParts (s : State) (c : CoreId) : List XferPart :=
  let k := s.core c
  let part := fun (kind : XferKind) (key lo hi : Nat) => if lo < hi then [({ kind := kind, task := key, lo := lo, hi := hi } : XferPart)] else []
  let save := match k.sliceTask.bind s.task with
    | some o => if (s.holder c).map (·.key) = some o.key then [] else part .save o.key 0 (o.need / 1024)
    | none => []
  match s.holder c with
  | none => save
  | some t =>
    if k.sliceTask = some t.key then []
    else
      save ++ (if t.sliced.contains c.val then part .restore t.key 0 (t.need / 1024)
        else if k.lastQueue = t.queue then [] else part .zero t.key 0 (t.need / 1024)) ++
      (if k.lastQueue = t.queue then [] else part .zero t.key (t.need / 1024) ((k.highWater + 1023) / 1024))

/-- The old task's slice contents lie in its save area whole. -/
def State.sliceSaved (s : State) (c : CoreId) (key : Nat) : State :=
  (s.updTask key (fun q => { q with sliced := if q.sliced.contains c.val then q.sliced else c.val :: q.sliced })).updCore c (fun k =>
    { k with sliceTask := if k.sliceTask = some key then none else k.sliceTask })

/-- The transfer ends (R335): the slice holds the contents of the task that is live. -/
def State.endTransfer (s : State) (c : CoreId) : State :=
  let s1 := match s.holder c with
    | some t =>
      if (s.core c).sliceTask = some t.key then s
      else
        let back := t.sliced.contains c.val
        (s.updTask t.key (fun q => { q with sliced := q.sliced.filter (· ≠ c.val) })).updCore c (fun k =>
          { k with sliceTask := some t.key, lastQueue := t.queue
                   highWater := Nat.max (if k.lastQueue = t.queue then k.highWater else 0) (if back then t.need else 0) })
    | none => s
  (s1.updCore c (fun k => { k with sliceBusy := false, xfer := none, xferHeld := false })).reconsider

/-- The next part of a transfer begins, at 1 KiB a cycle, or the transfer ends (R335). -/
def State.xferNext (s : State) (c : CoreId) : State :=
  match (s.core c).xfer with
  | some (p :: _) => (s.updCore c (fun k => { k with xferAt := s.now, xferHeld := false })).afterN (p.hi - p.lo) (.sliceTransferEnd c)
  | _ => s.endTransfer c

/-- A part of a transfer up to a place (R335). -/
def State.doPart (s : State) (c : CoreId) (p : XferPart) (hi : Nat) : State :=
  let area := sliceArea (s.placeOf p.task) c
  match p.kind with
  | .save => s.copyRange (sliceOf c + 1024 * p.lo) (area + 1024 * p.lo) (1024 * (hi - p.lo))
  | .restore => s.copyRange (area + 1024 * p.lo) (sliceOf c + 1024 * p.lo) (1024 * (hi - p.lo))
  | .zero => s.zeroSlice c (1024 * p.lo) (1024 * hi)

/-- The first KiB of a part whose share of the save area is not resident (R335, R364). -/
def State.xferStop (s : State) (c : CoreId) (p : XferPart) : Option Nat :=
  if p.kind = .zero then none
  else
    let area := sliceArea (s.placeOf p.task) c
    ((List.range ((p.hi + 3) / 4)).find? (fun i => p.lo < 4 * i + 4 && !s.resident (area + 4096 * i))).map (fun i => Nat.max p.lo (4 * i))

/-- SLICE_TRANSFER_END (R335, R364): the transfer begins after the spill; each part acts as it ends. -/
def execSliceTransferEnd (c : CoreId) (s : State) : Answer :=
  let k := s.core c
  if !k.sliceBusy || k.xferHeld then .next s
  else if k.bank = .spilling || k.bank = .held then .next (s.afterN 1 (.sliceTransferEnd c))
  else
    match k.xfer with
    | none => .next ((s.updCore c (fun k => { k with xfer := some (s.xferParts c) })).xferNext c)
    | some [] => .next (s.endTransfer c)
    | some (p :: r) =>
      match s.xferStop c p with
      | none =>
        let s1 := s.doPart c p p.hi
        let s2 := if p.kind = .save then s1.sliceSaved c p.task else s1
        .next ((s2.updCore c (fun k => { k with xfer := some r })).xferNext c)
      | some o =>
        let line := sliceArea (s.placeOf p.task) c + 1024 * o
        .next (((s.doPart c p o).updCore c (fun k => { k with xfer := some ({ p with lo := o } :: r) })).afterN 1
          (.saveAreaFault c (BitVec.ofNat 64 line)))

/-- The firmware makes the rest of a part's save area resident, and the transfer goes on (R335, R364). -/
def State.restartTransfer (s : State) (c : CoreId) : State :=
  match (s.core c).xfer with
  | some (p :: _) => (s.pinRange (sliceArea (s.placeOf p.task) c + 1024 * p.lo) (1024 * (p.hi - p.lo))).xferNext c
  | _ => s

/-- SPILL_RESTART (R335, R364): the firmware makes the area resident, and the spill, or the slice transfer, goes on from where it
stopped. -/
def execSpillRestart (c : CoreId) (s : State) : Answer :=
  let k := s.core c
  if s.restarting then .next (s.afterN 1600 (.spillRestart c))
  else if k.bank = .held then
    .next (((s.mendArea k).updCore c (fun k => { k with bank := .spilling })).afterAtMost 3200 (.spillComplete c))
  else if k.xferHeld then .next (s.restartTransfer c)
  else .next s

/-! ### YIELD (R341) -/

/-- The READY task that would take a yielder's core: of priority F or above, with its placement when the yielder
gives way. -/
def State.yieldTo (s : State) (t : Task) (c : CoreId) (floor : BitVec 6) : Option (Task × List CoreId) :=
  let away := { s with
    cores := s.cores.set c.val { s.core c with live := false } c.isLt }
  let ready := sortBy (fun a b => !b.before a) (s.tasks.filter (fun u => u.state = .ready && u.ended.isNone && u.key ≠ t.key && floor ≤ u.prio &&
    !s.agenda.any (fun e => e.2 = .contextStage u.key)))
  ready.findSome? (fun u =>
    let force : Option (List CoreId) :=
      if u.cores = [] && u.shape = 0 && u.n = 1 then (if (away.canHave u c).isSome then some [c] else none)
      else away.placement u
    match force with
    | some l => if l.contains c then some (u, l) else none
    | none => none)

/-- YIELD_ANSWER (R341). R341 does not say what a YIELD gives while the shadow bank is not EMPTY, nor what one of a multi-core task
gives while the lock-step pair restarts: 0, and 2, are the model's choice (assumption 92). -/
def execYieldAnswer (c : CoreId) (sec : Bool) (s : State) : Answer :=
  match (s.stream c sec).wait with
  | .yield d floor =>
    let wake := fun (v : Word) => s.updStream c sec (fun x => { x with wait := .none }.emit 2 (.scalar d v))
    if 1 < (coresOf (s.ctx c).placed).length then .next (wake 2)
    else if s.restarting || (s.core c).bank ≠ .empty then .next (wake 0)
    else
      match s.taskOf c with
      | none => .next (wake 0)
      | some t =>
        match (if t.prio < floor then none else s.yieldTo t c floor) with
        | none => .next (wake 0)
        | some (u, l) =>
          .next ((s.updTask u.key (fun q => { q with cores := l, protectedFrom := some t.key })).afterAtMost stageCycles (.contextStage u.key))
  | _ => .next s

/-! ### Reservations (R336) -/

/-- A window opens with this µs (R336). -/
def State.windowOpens (s : State) : Bool :=
  s.now % 1600 = 0 && s.hub.reservations.toList.any (fun e => windowOpen e s.micros && !windowOpen e (s.micros - 1))

/-- RESERVATION_TICK (R336): the table is read again, and READY tasks are considered. -/
def execReservationTick (s : State) : Answer :=
  let entry := fun (i : Nat) => BitVec.ofNat 512 (natOfBytes (Memory.bytes s.mem (0x10000 + 64 * i) 64))
  if s.restarting then .next (s.afterN 1600 .reservationTick)
  else .next ((s.updHub (fun h => { h with reservations := Vector.ofFn (fun i : Fin 16 => if i.val = 0 then 0 else entry i.val) })).reconsider)

/-! ### End and retirement (R333, R337) -/

/-- Every job, tile operation, store and atomic of a context has completed (R333). -/
def Ctx.idle (x : Ctx) : Bool := x.jobs = [] && x.tiles = [] && x.prim.ops = [] && x.sec.ops = []

/-- The same for a context that is not live: what it had in the cube is given up (R114, R337). -/
def Ctx.worked (x : Ctx) : Bool := x.jobs = [] && x.prim.ops = [] && x.sec.ops = []

/-- No stream of a context runs, the results of one that has halted have landed, and none is stopped or about to be stopped by a
report (R192, R333). -/
def Ctx.quiet (x : Ctx) (now : Nat) : Bool :=
  let q := fun (y : Stream) => !y.live && y.stopped.isNone && y.pending = [] && y.checks ≤ now && (!y.halted || y.inflight = [])
  q x.prim && q x.sec

/-- The contexts of a task, wherever they are: core and context. -/
def State.contextsOf (s : State) (t : Task) : List (CoreId × Ctx) :=
  t.cores.filterMap (fun c =>
    if (s.core c).live && (s.ctx c).task = t.key then some (c, s.ctx c)
    else if (s.core c).bank ≠ .empty && (s.core c).shadow.task = t.key then some (c, (s.core c).shadow)
    else (aget t.saved c.val).map (fun x => (c, x)))

/-- The contexts that a task has swapped out itself and not staged since (R114, R365). -/
def State.awayOf (s : State) (key : Nat) : List (CoreId × Ctx) :=
  (s.hub.away.filterMap (fun a => (aget s.hub.images a.1).map (fun x => (a.2, x)))).filter (fun p => p.2.task = key)

/-- Every stream of a started task has halted or never started (R333). -/
def State.taskHalted (s : State) (t : Task) : Bool :=
  t.state = .running && t.cores.all (fun c => (s.core c).live && (s.ctx c).task = t.key && (s.ctx c).quiet s.now)

/-- No stream of a context is stopped by a report that the firmware has still to act on (R192). -/
def Ctx.unreported (x : Ctx) : Bool :=
  let q := fun (y : Stream) => y.stopped.isNone && y.pending = []
  q x.prim && q x.sec

/-- A task may retire (R192, R333, R337): its work has completed, and no report of that work waits for the firmware. -/
def State.taskDone (s : State) (t : Task) : Bool :=
  t.state = .draining && !s.restarting && (t.ended.isSome || (s.contextsOf t).all (fun p => p.2.unreported)) &&
    (s.contextsOf t).all (fun p => if (s.core p.1).live && (s.ctx p.1).task = t.key then p.2.idle else p.2.worked) &&
    (s.awayOf t.key).all (fun p => p.2.worked) &&
    t.cores.all (fun c => (s.core c).bank ≠ .spilling || (s.core c).shadow.task ≠ t.key)

/-- CODE and INFO of a task that retires by itself (R337). -/
def State.retireCode (s : State) (t : Task) : BitVec 32 × BitVec 32 :=
  let xs := s.contextsOf t
  let first := (xs.head?.map (fun p => p.2.prim.haltCode)).getD 0
  let bad := fun (y : Stream) => y.halted && y.haltCode ≠ 0
  (first.setWidth 32, (bitmap ((xs.filter (fun p => bad p.2.prim || bad p.2.sec)).map (·.1))).setWidth 32)

/-- The tasks of a slot that have started and not retired (R331). -/
def State.slotBusy (s : State) (slot : Nat) : Bool := s.tasks.any (fun t => t.slot = slot && t.state ≠ .retired)

/-- The events that wait for a retirement: the end of an unload (R331) and of a release (R413). -/
def State.afterRetire (s : State) (t : Task) : State :=
  s.hub.packets.foldl (fun s p =>
    if p.state = .started && p.kind = 3 && (p.bits.extractLsb' 64 16).toNat = t.slot && !s.slotBusy t.slot then
      s.after (.unloadSlotComplete p.key)
    else s) s

/-- What a slice transfer still has to do for a task that has retired is given up; where that stood first, it goes on with the rest
(R335, R337). -/
def State.dropParts (s : State) (key : Nat) (c : CoreId) : State :=
  match (s.core c).xfer with
  | none => s
  | some l =>
    let rest := l.filter (fun p => p.task ≠ key)
    if rest.head? = l.head? then s.updCore c (fun k => { k with xfer := some rest })
    else ((s.cancelEvent (.sliceTransferEnd c)).updCore c (fun k => { k with xfer := some rest, xferHeld := false })).xferNext c

/-- The grants of a task that has retired end (R413). Its streams have halted, and so arrive at every boundary still to come: a
device without another task that holds a group of levels 4 or 5 joins the group's barriers from then on (R311). -/
def State.endGrants (s : State) (t : Task) : State :=
  let mine := s.hub.groups.filter (fun g => g.grants.contains t.taskId)
  let s1 := s.updHub (fun h => { h with groups := h.groups.map (fun g => { g with grants := g.grants.filter (· ≠ t.taskId) }) })
  let levels := (s.contextsOf t).flatMap (fun p => [4, 5].map (fun e => p.2.groupOf e))
  mine.foldl (fun s g =>
    if t.ended.isNone && g.grants = [t.taskId] && levels.contains g.number && !g.closed && !g.devices.all (· = s.device) then
      let s2 := s.updHub (fun h => { h with groups := h.groups.map (fun q => if q.number = g.number then { q with gone := true } else q) })
      if g.joined ≤ g.barrier then s2.joinBarrier g.number 0 else s2
    else s) s1

/-- TASK_RETIRE (R333, R337): a task whose streams have halted drains; one that has drained retires. -/
def execTaskRetire (key : Nat) (s : State) : Answer :=
  match s.task key with
  | none => .next s
  | some t =>
    if s.taskHalted t then .next (s.updTask key (fun t => { t with state := .draining }))
    else if !s.taskDone t then .next s
    else
      let ci := match t.ended with
        | some (cause, core, sec) => (7, BitVec.ofNat 32 cause, BitVec.ofNat 32 (core.val + (if sec then 8 else 0)))
        | none => (0, s.retireCode t)
      let s1 := t.cores.foldl (fun s c => s.updCore c (fun k =>
        if k.live && k.ctx.task = key then
          { k with live := false, ctx := Ctx.reset, endWrites := []
                   bank := if k.bankByTask && k.bank = .staged then .empty else k.bank
                   shadow := if k.bankByTask && k.bank = .staged then Ctx.reset else k.shadow
                   sliceTask := if k.sliceTask = some key then none else k.sliceTask }
        else
          { k with bank := if k.bank = .held && k.shadow.task = key then .empty else k.bank
                   shadow := if k.bank = .held && k.shadow.task = key then Ctx.reset else k.shadow
                   sliceTask := if k.sliceTask = some key then none else k.sliceTask })) (s.endGrants t)
      let s2 := t.cores.foldl (fun s c => (s.disarm c).dropAreas t c) s1
      let s2 := (s2.updTask key (fun t => { t with state := .retired, saved := [], sliced := [], checkpoints := [] })).updHub (fun h =>
        { h with away := h.away.filter (fun a => ((aget h.images a.1).map (·.task)) ≠ some key) })
      let s2 := allCores.foldl (State.dropParts · key) s2
      let s4 := match s.packet t.packet with
        | some p => s2.finishPacket p ci.1 ci.2.1 ci.2.2
        | none => s2
      .next ((s4.afterRetire t).reconsider.trimLog)

/-- A context whose streams the firmware stops (R337). -/
def Ctx.halt (x : Ctx) : Ctx :=
  let h := fun (y : Stream) => { y with live := false, wait := .none, hold := .none, answers := [] }
  { x with prim := h x.prim, sec := h x.sec }

/-- Change every context of a task. -/
def State.updContexts (s : State) (key : Nat) (f : CoreId → Ctx → Ctx) : State :=
  let s1 := allCores.foldl (fun s c => s.updCore c (fun k =>
    { k with ctx := if k.live && k.ctx.task = key then f c k.ctx else k.ctx
             shadow := if k.bank ≠ .empty && k.shadow.task = key then f c k.shadow else k.shadow })) s
  { s1 with tasks := s1.tasks.map (fun t =>
      if t.key = key then { t with saved := t.saved.map (fun p => (p.1, f ⟨p.1 % 8, Nat.mod_lt _ (by decide)⟩ p.2)) } else t) }

/-- A yielder that waits for the swap of a task which has ended is answered anew (R341). -/
def State.askYielder (s : State) (t : Task) : State :=
  match t.protectedFrom with
  | none => s
  | some y => (s.liveOn y).foldl (fun s c => [false, true].foldl (fun s b =>
      match (s.stream c b).wait with
      | .yield .. => if s.agenda.any (fun e => e.2 = .yieldAnswer c b) then s else s.afterN 1 (.yieldAnswer c b)
      | _ => s) s) s

/-- TASK_END (R337, R354): the task stops without a spill; its jobs in flight complete before it retires. While the
lock-step pair restarts the report is held (R326). -/
def execTaskEnd (key cause : Nat) (core : CoreId) (sec : Bool) (s : State) : Answer :=
  match s.task key with
  | none => .next s
  | some t =>
    if t.state = .retired || t.ended.isSome then .next s
    else if s.restarting then .next (s.updHub (fun h => { h with heldReports := h.heldReports ++ [.taskEnd key cause core sec] }))
    else
      let s1 := s.updContexts key (fun _ x => x.halt)
      let s2 := if t.state = .staged then (t.cores.foldl (fun s c =>
          if t.started && (s.core c).stagedTask && (s.core c).shadow.task = key then s.keepCtx c (s.core c).shadow else s) s1).unstage key
        else s1
      .next ((s2.updTask key (fun t => { t with state := .draining, ended := some (cause, core, sec) })).askYielder t)

end Sys2Proof.Machine
end

