-- ==== Sys2Proof/Machine/Recover.lean ====
section
/-! DEFINITION. Checkpoints, rollback and layer sparing (R371 to R378, R392). -/

namespace Sys2Proof.Machine

/-! ### The copy of a checkpoint (R373) -/

/-- A stream of a task's live contexts that waits at a checkpoint's boundary. -/
def State.checkpointAt (s : State) (key : Nat) : Option (CoreId × Bool) :=
  (allCores.flatMap (fun c => [(c, false), (c, true)])).find? (fun m =>
    (s.core m.1).live && (s.ctx m.1).task = key && (match (s.stream m.1 m.2).boundary with | some (_, _, true) => true | _ => false))

/-- CHECKPOINT_COPY_DONE (R79, R373): the images are written, header last; at levels 4 and 5 the device joins the barrier
behind the copies, else the checkpoint is committed and every member released. -/
def execCheckpointCopyDone (key : Nat) (s : State) : Answer :=
  match s.checkpointAt key with
  | none => .next (s.updTask key (fun t => { t with copying := 0 }))
  | some m =>
    let x := s.ctx m.1
    let e := effectiveLevel x.domain (((s.stream m.1 m.2).boundary.map (·.1)).getD 3)
    let n := (s.stream m.1 m.2).count e
    let areas := (x.domainOf m.1 e).map (fun c => (c, checkpointArea (s.ctx c) c))
    let w := areas.foldl (fun (q : State × Bool) a =>
      let r := q.1.archiveReady (.checkpointCopyDone key) a.2 areaBytes
      (r.1, q.2 && r.2)) (s, true)
    if s.copyingOf m.1 ≠ 1 then .next s
    else if !w.2 then .next (w.1.afterN 1 (.checkpointCopyDone key))
    else
      let s1 := areas.foldl (fun s a => s.writeImage a.1 (s.ctx a.1) a.2) w.1
      if 4 ≤ e then .next ((s1.updTask key (fun t => { t with copying := 2 })).joinBarrier (x.groupOf e) 1)
      else .next ((s1.commitCheckpoint m.1 e).releaseAll m.1 e n 0 1)

/-! ### Rollback (R374 to R376) -/

/-- Half of a core's area that holds checkpoint icnt (R372). -/
def areaHalf (x : Ctx) (c : CoreId) (icnt : Nat) : Nat :=
  getBits x.chk 25 27 * 2 ^ 25 + 0x400000 * c.val + (if icnt % 2 = 1 then 0x200000 else 0)

/-- The areas of a checkpoint. -/
def areasOf (q : Nat × List (Nat × Ctx)) : List Nat := q.2.map (fun p => areaHalf p.2 ⟨p.1 % 8, Nat.mod_lt _ (by decide)⟩ q.1)

/-- An entry of a list of two: the newer, or the older. -/
def pick {α : Type} (older : Bool) (l : List α) : Option α := if older then l.tail.head? else l.head?

/-- A rollback to a checkpoint, the newest or the one before it, can succeed (R374, R376): no log entry is missing, of the interval
under way and, for the older, of the one before it, whose OVF the newest checkpoint holds; no area holds poison, found or not. -/
def State.canReturn (s : State) (t : Task) (older : Bool) : Bool :=
  match pick older t.checkpoints with
  | none => false
  | some q =>
    (s.contextsOf t).all (fun p => p.2.chk.getLsbD 0 && p.2.chk.getLsbD 1 && !p.2.chk.getLsbD 3) &&
      (!older || (t.checkpoints.head?.map (fun n => n.2.all (fun p => !p.2.chk.getLsbD 3))).getD false) &&
      (areasOf q).all (fun a => !(s.poison ++ s.fatals).any (fun u => a ≤ u && u < a + areaBytes))

/-- A rollback to the newest checkpoint can succeed (R374, R376). -/
def State.canRollBack (s : State) (t : Task) : Bool := s.canReturn t false

/-- An entry is one of a task's intervals from one on (R375). -/
def ChkLine.since (e : ChkLine) (key icnt : Nat) : Bool := e.task = key && (e.interval = icnt || e.interval = (icnt + 1) % 2 ^ 17)

/-- The entries that a rollback replays, newest first (R375). -/
def State.toReplay (s : State) (key icnt : Nat) : List ChkLine :=
  let es := allCores.flatMap (fun h => (s.home h).chkLines.filter (fun e => e.since key icnt))
  es.filter (fun e => e.interval ≠ icnt) ++ es.filter (fun e => e.interval = icnt)

/-- A home reads an entry of its checkpoint pool (R71). -/
def Home.readChk (m : Home) (e : ChkLine) : Home :=
  match m.chkLines.findIdx? (fun q => q = e) with
  | some i => m.touchLog 1 (m.chkLines.length - 1 - i)
  | none => m

/-- Replay the entries of a task's intervals from one on, newest first (R71, R375). -/
def State.replayLines (s : State) (key icnt : Nat) : State :=
  let s1 := (s.toReplay key icnt).foldl (fun s e =>
    (s.updHome (homeOf e.line) (fun m => m.readChk e)).agentWrite Writer.outside (atAddr e.line e.old) false) s
  allCores.foldl (fun s h => s.updHome h (fun m => { m with chkLines := m.chkLines.filter (fun e => !e.since key icnt) })) s1

/-- Whether the lines of some rollbacks may be written (R69, R79): the tasks stand still until then. -/
def State.replayReady (s : State) (e : Instr) (l : List (Nat × Nat)) : State × Bool :=
  let r := s.writeReady e (l.flatMap (fun q => (s.toReplay q.1 q.2).map (·.line)))
  if r.2 then r else ((l.foldl (fun s q => s.stall q.1) r.1).afterN 1 e, false)

/-- A stream resumes at its CHKPT with status 1 (R375). -/
def Stream.rolledBack (x : Stream) (domain : Word) (now : Nat) : Stream :=
  match x.hold with
  | .phase l chk a _ =>
    let e := effectiveLevel domain l
    { x.setCount e (x.count e + 1) with hold := .phase l chk a (some 1), snap := now, own := [] }
  | _ => { x with snap := now, own := [] }

/-- A context of checkpoint icnt as it resumes (R375): RB is set. -/
def Ctx.rolledBack (x : Ctx) (now icnt : Nat) : Ctx :=
  { x with
    prim := x.prim.rolledBack x.domain now
    sec := x.sec.rolledBack x.domain now
    chk := (putBits x.chk 4 17 (BitVec.ofNat 64 icnt) ||| 6) &&& ~~~8 }

/-- The slice contents that a swapped-out task has on a core are written with zeros (R375). -/
def State.clearSaved (s : State) (t : Task) (c : CoreId) : State :=
  let a := sliceArea t.place c
  ((s.archive a (a + t.need) []).sliceSaved c t.key).updCore c (fun k =>
    { k with xfer := k.xfer.map (fun l => l.map (fun p => if p.task = t.key && p.kind = .save then { p with hi := p.lo } else p)) })

/-- The contexts of a swapped-out task that have changed are written to their save areas again (R362, R375). -/
def State.rewriteSaved (s : State) (t : Task) : State :=
  let s1 := allCores.foldl (fun s c => s.updCore c (fun k => if k.shadow.task = t.key then { k with spill := none } else k)) s
  t.cores.foldl (fun s c =>
    match (s.task t.key).bind (fun q => aget q.saved c.val) with
    | some x => s.writeImage c x (ctxArea t.place c)
    | none => s) s1

/-- Roll a task back to checkpoint icnt with its contexts (R375). -/
def State.rollTask (s : State) (t : Task) (icnt : Nat) (xs : List (Nat × Ctx)) : State :=
  let s1 := (s.contextsOf t).foldl (fun s p => s.callOff p.1 p.2) s
  let s2 := s1.replayLines t.key icnt
  let s3 := t.cores.foldl (fun s c =>
    if (s.core c).live && (s.ctx c).task = t.key then
      (s.zeroSlice c 0 sliceBytes).updCore c (fun k =>
        { k with highWater := 0, endWrites := [], swapEnd := s.now + 32, cubeDrain := false, pause := none })
    else s.clearSaved t c) s2
  let s4 := s3.updContexts t.key (fun c x =>
    match aget xs c.val with
    | some y => (y.fillFrom (s3.areaImage (areaHalf y c icnt))).rolledBack s.now icnt
    | none => x)
  let s5 := (s4.rewriteSaved t).updTask t.key (fun t => { t with copying := 0, state := if t.state = .draining then .running else t.state })
  (t.cores.foldl (fun s c => if (s.core c).live && (s.ctx c).task = t.key then s.resumeCtx c else s) s5).trimLog

/-- The stopped stream of a task: cause, core, stream. -/
def State.stoppedOf (s : State) (t : Task) : Nat × CoreId × Bool :=
  ((s.contextsOf t).findSome? (fun p =>
    match p.2.prim.stopped, p.2.sec.stopped with
    | some q, _ => some (q.cause.toNat, p.1, false)
    | _, some q => some (q.cause.toNat, p.1, true)
    | _, _ => none)).getD (0, t.cores.headD 0, false)

/-- A rollback that fails ends the task (R376); the errors that the reading of its areas has met are found. -/
def State.failRollback (s : State) (t : Task) : State :=
  let w := s.stoppedOf t
  ((t.checkpoints.flatMap areasOf).foldl (fun s a => s.readRange a (a + areaBytes)) s).after (.taskEnd t.key w.1 w.2.1 w.2.2)

/-- The group of the checkpoint that a task would return to, at levels 4 and 5 (R376). -/
def Task.checkpointGroup (t : Task) : Option Nat :=
  match t.checkpoints with
  | [] => none
  | (_, xs) :: _ => xs.findSome? (fun p =>
      match p.2.prim.hold, p.2.sec.hold with
      | .phase l _ _ _, _ => let e := effectiveLevel p.2.domain l; if 4 ≤ e then some (p.2.groupOf e) else none
      | _, .phase l _ _ _ => let e := effectiveLevel p.2.domain l; if 4 ≤ e then some (p.2.groupOf e) else none
      | _, _ => none)

/-- Cycles of the 1.9 s within which a group agrees to a rollback (R378). -/
def agreeCycles : Nat := 3040000000

/-- The rollback request of a group goes to its striker (R376, R378). Which interval the other devices have all committed, and
whether every device can be reached, is free (assumption 4); a group of this device alone needs no other. A group whose devices
are agreeing already is not asked again. -/
def State.askRollback (s : State) (n : Nat) : State :=
  if (s.group n).any (fun g => g.rewind.isSome) then s
  else
    let alone := (s.group n).all (fun g => g.devices.all (· = s.device))
    let v := s.freeVal
    (s.updGroup n (fun g => { g with rewind := some (!alone && v.getLsbD 0, alone || v.getLsbD 1) })).drawFree.afterAtMost agreeCycles
      (.groupRollback n)

/-- ROLLBACK (R374 to R376). -/
def execRollback (key : Nat) (s : State) : Answer :=
  match s.task key with
  | none => .next s
  | some t =>
    if t.state = .retired || t.ended.isSome then .next s
    else if s.restarting then .next (s.updHub (fun h => { h with heldReports := h.heldReports ++ [.rollback key] }))
    else if !s.canRollBack t then .next (s.failRollback t)
    else
      match t.checkpointGroup with
      | some g => .next (s.askRollback g)
      | none =>
        match t.checkpoints with
        | [] => .next s
        | (icnt, xs) :: _ =>
          let r := s.replayReady (.rollback key) [(key, icnt)]
          .next (if r.2 then r.1.rollTask t icnt xs else r.1)

/-- The requests of this device for pairs of some groups are called off, those on their way too (R375, R392). -/
def State.dropAsked (s : State) (hit : Nat → Bool) : State :=
  { s.updHub (fun h => { h with asked := h.asked.filter (fun a => !hit a.1) }) with
    agenda := s.agenda.filter (fun e => match e.2 with
      | .strikeRequest g _ _ _ => !hit g
      | .strikeRequestRetry g _ => !hit g
      | .strikeGo g _ => !hit g
      | _ => true) }

/-- The indices of a group return to what was recorded (R392); of the group of the checkpoint the two barriers of the CHKPT itself
are past. -/
def State.rewindGroup (s : State) (own : Nat) (q : Nat × Nat × List (Nat × Nat)) : State :=
  let b := q.2.1 + (if q.1 = own then 2 else 0)
  s.updGroup q.1 (fun g => { g with barrier := b, joined := b, counts := q.2.2 })

/-- The striker of a group returns to what was recorded at the group's checkpoint, the newest or the one before it (R376, R392):
its next number, the pairs assigned since, and the indices of the groups that the rolled-back tasks hold, whose requests are
called off. The requests of other groups for pairs that are discarded are made again (assumption 32). -/
def State.rewindStriker (s : State) (g : Group) (older : Bool) (ids : List (BitVec 32)) : State :=
  let own := s.hub.marks.filter (fun m => m.group = g.number)
  match pick older own with
  | none => s
  | some m =>
    let rolled := fun (n : Nat) => n = g.number || (s.group n).any (fun q => q.grants.any ids.contains)
    let gone := (s.striker g.striker).pairs.filter (fun p => !serialAhead m.next p.strike)
    let s1 := (s.dropAsked (fun n => rolled n && (s.group n).any (fun q => q.striker = g.striker))).updStriker g.striker (fun k =>
      { k with next := m.next, acked := m.next, pairs := k.pairs.filter (fun p => serialAhead m.next p.strike) })
    let s2 := (m.indices.filter (fun q => rolled q.1)).foldl (fun s q => s.rewindGroup g.number q) s1
    let s3 := (gone.filter (fun p => !rolled p.group)).foldl (fun s p =>
      p.requests.foldl (fun s r => s.askStrike p.group p.index r.1 r.2) s) s2
    (s3.updHub (fun h => { h with marks := if older then h.marks.erase (own.headD m) else h.marks })).kick g.striker

/-- The devices of a group return to the interval before the newest (R376). -/
def Group.older (g : Group) : Bool := g.rewind.any (·.1)

/-- Every device of a group is reached (R376). -/
def Group.reached (g : Group) : Bool := g.rewind.all (·.2)

/-- The checkpoint before the newest becomes a task's newest: it has been rolled back to it (R376). -/
def State.dropNewest (s : State) (key : Nat) (older : Bool) : State :=
  if older then s.updTask key (fun t => { t with checkpoints := t.checkpoints.tail }) else s

/-- GROUP_ROLLBACK (R79, R326, R376): the tasks of this device that hold the group return to the newest interval that every device
has committed, this device's newest or the one before; where a member cannot be reached the rollback fails. -/
def execGroupRollback (group : Nat) (s : State) : Answer :=
  match s.group group with
  | none => .next s
  | some g =>
    let older := g.older
    let mine := s.tasks.filter (fun t => g.grants.contains t.taskId && t.state ≠ .retired && t.ended.isNone && t.started)
    let back := mine.filter (fun t => s.canReturn t older)
    let r := s.replayReady (.groupRollback group) (back.filterMap (fun t => (pick older t.checkpoints).map (fun q => (t.key, q.1))))
    if s.restarting then .next (s.afterN 1600 (.groupRollback group))
    else if !g.reached then .next (mine.foldl State.failRollback (s.updGroup group (fun g => { g with rewind := none })))
    else if !r.2 then .next r.1
    else
      .next (mine.foldl (fun s t =>
        match (if s.canReturn t older then pick older t.checkpoints else none) with
        | some q => (s.rollTask t q.1 q.2).dropNewest t.key older
        | none => s.failRollback t)
        ((r.1.updGroup group (fun g => { g with rewind := none })).rewindStriker g older (mine.map (·.taskId))))

/-! ### Layer sparing (R377) -/

/-- The dies that work, in physical order. -/
def workingDies (failed : BitVec 17) : List Nat := (List.range 17).filter (fun d => !failed.getLsbD d)

/-- The catalogue and the available mask that the working dies give (R377). -/
def Core.withDies (k : Core) (failed : BitVec 17) : Core :=
  let w := workingDies failed
  { k with
    failedDies := failed
    catalogue := Vector.ofFn (fun i : Fin 16 => BitVec.ofNat 5 (w.getD i.val 0))
    layers := if 16 ≤ w.length then 0xFFFF else if w.length = 15 then 0x7FFF else 0
    usable := 15 ≤ w.length }

/-- A task stops without a spill until its group agrees to a rollback (R375 to R377). -/
def State.haltForGroup (s : State) (t : Task) (g : Nat) : State :=
  let s1 := (s.contextsOf t).foldl (fun s p => s.callOff p.1 p.2) s
  ((s1.liveOn t.key).foldl (fun s c => s.updCore c (fun k => { k with swapEnd := s.now + agreeCycles + 3200 })) s1).askRollback g

/-- A task of a core whose die is retired stops (R377): rolled back to its checkpoint, or swapped out with vector 0. -/
def State.stopForDie (s : State) (t : Task) : State :=
  if s.canRollBack t then
    match t.checkpointGroup, t.checkpoints with
    | some g, _ => s.haltForGroup t g
    | none, (icnt, xs) :: _ => s.rollTask t icnt xs
    | none, [] => s
  else (if t.state = .running then s.vacate t.key else s).msix 0

/-- DIE_RETIRE (R326, R377): the tasks of the core are stopped, rolled back or swapped out, then the catalogue is rewritten, and they
resume. It waits for a restart of the pair, until the banks of the tasks that are swapped out are free, and for the writes of
the rollbacks. -/
def execDieRetire (c : CoreId) (die : Nat) (works : Bool) (s : State) : Answer :=
  let held := (s.tasks.filter (fun t => t.cores.contains c && t.started && t.state ≠ .retired && t.ended.isNone))
  let leave := held.filter (fun t => !s.canRollBack t && t.state = .running)
  let back := held.filter (fun t => s.canRollBack t && t.checkpointGroup.isNone)
  let r := s.replayReady (.dieRetire c die works) (back.filterMap (fun t => t.checkpoints.head?.map (fun q => (t.key, q.1))))
  if s.restarting then .next (s.afterN 1600 (.dieRetire c die works))
  else if leave.any (fun t => t.copying ≠ 0 || (s.liveOn t.key).any (fun m => (s.core m).bank ≠ .empty)) then
    .next (s.afterN 16 (.dieRetire c die works))
  else if !r.2 then .next r.1
  else
    let k := s.core c
    let f1 := k.failedDies ||| BitVec.ofNat 17 (2 ^ die)
    let spare := (workingDies f1).getLast?.getD 0
    let f := if works || (k.catalogue.toList.map (·.toNat)).contains spare then f1 else f1 ||| BitVec.ofNat 17 (2 ^ spare)
    .next ((held.foldl State.stopForDie r.1).updCore c (fun k => k.withDies f)).reconsider

end Sys2Proof.Machine
end

