-- ==== Sys2Proof/Machine/Packets.lean ====
section
/-! DEFINITION. Doorbells, queues, packets, the gallery and collective groups (R82, R83, R319 to R332, R413). -/

namespace Sys2Proof.Machine

/-! ### Queues and doorbells (R82, R83, R319 to R321, R325, R326) -/

/-- A queue's doorbell latch (R82). -/
def State.latch (s : State) (q : Nat) : BitVec 32 := tget 0 s.hub.latches q

/-- What a host read of offset off in doorbell page q returns (R82). -/
def State.doorbellRead (s : State) (q off : Nat) : BitVec 32 := if off = 0 then s.latch q else 0

/-- CONS of a queue (R319). -/
def State.cons (s : State) (q : Nat) : BitVec 32 := BitVec.ofNat 32 (s.descField q 0x14 4)

/-- EN of a queue is set (R319). -/
def State.queueOn (s : State) (q : Nat) : Bool := s.descField q 0x11 1 % 2 = 1

/-- A descriptor is usable (R320). -/
def State.descOk (s : State) (q : Nat) : Bool :=
  s.queueOn q && s.descField q 0x11 1 < 4 && s.descField q 0x13 1 = 0 && 4 ≤ s.ringLog q && s.ringLog q ≤ 16 &&
    s.descField q 0x18 40 = 0

/-- The firmware serves queues (R88, R326). -/
def State.serving (s : State) : Bool := s.hub.devstat.getLsbD 0 && !s.hub.devstat.getLsbD 1 && !s.restarting

/-- Half of the 3 µs within which the firmware consumes a published packet and then starts it (R326). -/
def dispatchCycles : Nat := 2400

/-- Put the consumption of a queue under way, once (R326). -/
def State.service (s : State) (q : Nat) : State :=
  if s.agenda.any (fun e => e.2 = .packetConsume q) then s else s.afterAtMost dispatchCycles (.packetConsume q)

/-- The firmware reads a queue's descriptor again (R320). -/
def State.readDescriptor (s : State) (q : Nat) : State :=
  if s.descOk q then (s.updHub (fun h => { h with ignored := h.ignored.filter (· ≠ q) })).service q
  else (s.updHub (fun h => { h with ignored := addRecent 1024 h.ignored q })).msix 1

/-- The firmware reads the descriptors of the queues that were rung meanwhile, and resumes every enabled queue whose latch is
ahead of CONS (R83, R320, R325). -/
def State.replayQueues (s : State) : State :=
  let s1 := s.hub.rung.foldl State.readDescriptor (s.updHub (fun h => { h with rung := [] }))
  (List.range 1024).foldl (fun s q =>
    if s.descOk q && !s.hub.ignored.contains q && serialAhead (s.latch q) (s.cons q) then s.service q else s) s1

/-- The wake from the gated state ends within 40 µs (R326). -/
def wakeCycles : Nat := 64000

/-- DOORBELL_WRITE (R82, R83, R320, R326, R402): in recovery mode only the control BAR is exposed. -/
def execDoorbellWrite (q off size tail : Nat) (s : State) : Answer :=
  let t := BitVec.ofNat 32 tail
  if s.hub.bootstat.getLsbD 5 || 1024 ≤ q || off ≠ 0 || size ≠ 4 || !serialAhead t (s.latch q) then .next s
  else
    let s1 := { s.updHub (fun h => { h with latches := tput 0 h.latches q t, bells := h.bells ++ [(q, t, s.nextId)] }) with
      nextId := s.nextId + 1 }
    if s1.serving then .next (s1.readDescriptor q)
    else
      let s2 := s1.updHub (fun h => { h with rung := if h.rung.contains q then h.rung else h.rung ++ [q] })
      .next (if s.hub.devstat.getLsbD 1 && !s2.agenda.any (fun e => e.2 = .wakeComplete) then s2.afterAtMost wakeCycles .wakeComplete
        else s2)

/-- WAKE_COMPLETE (R326). -/
def execWakeComplete (s : State) : Answer :=
  if s.hub.devstat.getLsbD 1 then
    let s1 := s.updHub (fun h => { h with devstat := h.devstat &&& ~~~2 })
    .next (if s1.serving then s1.replayQueues else s1)
  else .next s

/-- IA of the packet slot of a serial number (R321). -/
def State.packetAt (s : State) (q : Nat) (j : BitVec 32) : Nat := s.descField q 0 8 + 64 * (j.toNat % 2 ^ s.ringLog q)

/-- Bytes as the firmware reads them. -/
def State.firmwareRead (s : State) (ia n : Nat) : List Byte := (addrs ia n).map s.firmwareByte

/-- The packet of CONS is published: its line can be read and its SEQ equals CONS (R321, R409). -/
def State.published (s : State) (q : Nat) : Bool :=
  let a := s.packetAt q (s.cons q)
  (s.firstPoison (addrs a 64)).isNone && natOfBytes (s.firmwareRead (a + 4) 4) = (s.cons q).toNat

/-- The order of the doorbell write whose tail covers packet j of a queue (R323). -/
def State.bellOf (s : State) (q : Nat) (j : BitVec 32) : Nat :=
  ((s.hub.bells.find? (fun b => b.1 = q && serialAhead b.2.1 j)).map (·.2.2)).getD s.nextId

/-- Consume the packet of CONS: copied, entered in the journal, and CONS written (R321). -/
def State.consume (s : State) (q : Nat) : State :=
  let j := s.cons q
  let a := s.packetAt q j
  let s0 := s.serveOutside (addrs a 64)
  let p : Packet :=
    { key := s.nextId, queue := q, serial := j, bits := BitVec.ofNat 512 (natOfBytes (s0.firmwareRead a 64))
      state := .waiting, order := s.nextId, bell := s.bellOf q j, deadline := none, last := 0, access := none }
  let s1 := { s0.updHub (fun h => { h with packets := h.packets ++ [p] }) with nextId := s.nextId + 1 }
  let s2 := (s1.firmwareWrite (descriptor q + 0x14) (bytesOfNat 4 (j + 1).toNat)).startPackets dispatchCycles
  let s3 := s2.updHub (fun h => { h with bells := h.bells.filter (fun b => b.1 ≠ q || serialAhead b.2.1 (j + 1)) })
  if serialAhead (s.latch q) (j + 1) && !s3.agenda.any (fun e => e.2 = .packetConsume q) then s3.afterN 0 (.packetConsume q) else s3

/-- The firmware looks at the slot of CONS (R321): an unpublished packet is read again after 10 µs. -/
def State.lookAt (s : State) (q : Nat) : State :=
  if !s.serving || s.hub.ignored.contains q || !s.descOk q || !serialAhead (s.latch q) (s.cons q) then s
  else if s.published q then s.consume q
  else if s.agenda.any (fun e => e.2 = .packetPoll q) then s
  else s.afterN 16000 (.packetPoll q)

/-- PACKET_CONSUME (R321, R326). -/
def execPacketConsume (q : Nat) (s : State) : Answer := .next (s.lookAt q)

/-- PACKET_POLL (R321). -/
def execPacketPoll (q : Nat) (s : State) : Answer := .next (s.lookAt q)

/-! ### Packet fields (R322) -/

/-- A field of a packet: offset and bytes. -/
def Packet.field (p : Packet) (off n : Nat) : Nat := (p.bits.extractLsb' (8 * off) (8 * n)).toNat

/-- The first nonzero byte of a reserved run (R324). -/
def Packet.runBad (p : Packet) (lo hi : Nat) : List Nat :=
  (((List.range (hi - lo)).map (fun i => lo + i)).find? (fun o => p.field o 1 ≠ 0)).toList

/-- An offset when a field is bad. -/
def badIf (b : Bool) (off : Nat) : List Nat := if b then [off] else []

/-- SLOT of a packet. -/
def Packet.slot (p : Packet) : Nat := p.field 0x08 2

/-- A core count and shape are valid (R322). -/
def placeOk (v : Nat) : Bool :=
  let n := v % 16
  let sh := v / 16
  (n = 1 || n = 2 || n = 4 || n = 8) && sh < 4 && (sh = 0 || (sh = 3 && n = 4) || (sh ≠ 3 && n = 2))

/-- The fields of a group packet that are bad (R413). -/
def Packet.groupBad (p : Packet) : List Nat :=
  let op := p.field 0x0A 1
  let table := p.field 0x18 8
  badIf (p.field 0x08 2 = 0 || 4095 < p.field 0x08 2) 0x08 ++ badIf (3 < op) 0x0A ++ p.runBad 0x0B 0x0C ++
    (if op = 0 then badIf (p.field 0x0C 4 = 0 || 2 ^ 24 < p.field 0x0C 4) 0x0C else p.runBad 0x0C 0x10) ++
    (if op = 1 then [] else p.runBad 0x10 0x14) ++ p.runBad 0x14 0x18 ++
    (if op = 0 then badIf (table % 8 ≠ 0 || !(regionOf table = .pkg || regionOf table = .host)) 0x18 else p.runBad 0x18 0x20) ++
    p.runBad 0x20 0x40

/-- A signal or wait IA is bad: misaligned, in a hole, or across regions (R323). -/
def wordIaBad (ia : Nat) : Bool := ia % 8 ≠ 0 || !oneRegion ia 8

/-- The offset of the first bad field of a packet (R322, R324). -/
def Packet.firstBad (p : Packet) : Option Nat :=
  let head := badIf (p.kind = 0 || 7 < p.kind) 0 ++ badIf (128 ≤ p.field 1 1) 1 ++ p.runBad 2 4
  let body :=
    match p.kind with
    | 1 => badIf (255 < p.slot) 0x08 ++ badIf (!placeOk (p.field 0x0C 1)) 0x0C ++ badIf (15 < p.field 0x0D 1) 0x0D ++
        p.runBad 0x0E 0x10 ++ p.runBad 0x15 0x1C
    | 2 => badIf (255 < p.slot) 0x08 ++ p.runBad 0x0C 0x10 ++ p.runBad 0x20 0x40
    | 3 => badIf (255 < p.slot) 0x08 ++ p.runBad 0x0C 0x40
    | 4 => badIf (2 ^ 40 < p.field 0x18 8) 0x18 ++ p.runBad 0x20 0x40
    | 5 => badIf (wordIaBad (p.field 0x08 8)) 0x08 ++ badIf (1 < p.field 0x18 1) 0x18 ++ p.runBad 0x19 0x40
    | 6 => badIf (wordIaBad (p.field 0x08 8)) 0x08 ++ badIf (1 < p.field 0x18 1) 0x18 ++ p.runBad 0x19 0x1C ++ p.runBad 0x20 0x40
    | 7 => p.groupBad
    | _ => []
  (head ++ body).foldl (fun m o => match m with | none => some o | some x => some (Nat.min x o)) none

/-- The priority of a packet. -/
def Packet.prio (p : Packet) : BitVec 6 := p.bits.extractLsb' 8 6

/-- The status that a packet fails with before its type's own checks: BADPKT or PRIO (R324). -/
def State.early (s : State) (p : Packet) : Option (Nat × Nat) :=
  match p.firstBad with
  | some o => some (1, o)
  | none => if s.descField p.queue 0x12 1 < p.prio.toNat then some (2, 0) else none

/-- A packet that waits and may start does so, or ends at once (R323, R324). -/
def State.beginNow (s : State) (p : Packet) (k : Packet → Answer) : Answer :=
  match s.early p with
  | some e => .next (s.finishPacket p e.1 0 (BitVec.ofNat 32 e.2))
  | none => k p

/-- Begin a packet that waits and may start (R323): one that comes before it is taken first. -/
def State.begin (s : State) (key : Nat) (k : Packet → Answer) : Answer :=
  match s.packet key with
  | none => .next s
  | some p =>
    if p.state ≠ .waiting || !s.mayBegin p then .next s
    else if !s.serving then .next (s.afterN 1600 p.startEvent)
    else
      match s.firstReady with
      | some e => if e.key = key then s.beginNow p k else .next (((s.cancelEvent e.startEvent).afterN 0 e.startEvent).afterN 0 p.startEvent)
      | none => .next s

/-! ### The gallery (R327 to R331) -/

/-- An EMPTY slot. -/
def GallerySlot.empty : GallerySlot :=
  { state := .empty, version := 0, privreq := false, signed := false, windows := [], tables := [], hdrFlags := 0, entry := 0
    secEntry := 0, scratch := 0 }

/-- A slot of the gallery. -/
def State.slot (s : State) (n : Nat) : GallerySlot := (aget s.hub.gallery n).getD GallerySlot.empty

/-- Replace a slot of the gallery. -/
def State.setSlot (s : State) (n : Nat) (g : GallerySlot) : State := s.updHub (fun h => { h with gallery := aput h.gallery n g })

/-- The code of a slot state (R327). -/
def SlotState.code : SlotState → Nat
  | .empty => 0
  | .loading => 1
  | .loaded => 2
  | .unloading => 3

/-- A little-endian field of an image at an IA. -/
def State.img (s : State) (ia off n : Nat) : Nat := natOfBytes (s.firmwareRead (ia + off) n)

/-- The first nonzero byte of a reserved run of an image. -/
def State.imgRun (s : State) (ia lo hi : Nat) : List Nat :=
  (((List.range (hi - lo)).map (fun i => lo + i)).find? (fun o => s.byteNow (ia + o) ≠ 0)).toList

/-- Window w of an image's slot header, none when it is unused (R328). -/
def State.imgWindow (s : State) (ia w : Nat) : SlotWindow :=
  let o := 0x40 + 40 * w
  { vbase := BitVec.ofNat 64 (s.img ia o 8), size := BitVec.ofNat 64 (s.img ia (o + 8) 8)
    attr := BitVec.ofNat 64 (s.img ia (o + 16) 8), kind := s.img ia (o + 24) 8, ioff := BitVec.ofNat 64 (s.img ia (o + 32) 8) }

/-- The bad fields of a window of a slot header (R56, R328). -/
def windowBad (w : SlotWindow) (o size : Nat) : List Nat :=
  if w.kind = 0 then []
  else
    badIf (2 ^ 41 ≤ w.vbase.toNat) o ++
    badIf (w.size = 0 || 2 ^ 41 < w.vbase.toNat + w.size.toNat || (w.kind = 1 && 2 ^ 32 < w.size.toNat)) (o + 8) ++
    badIf (64 ≤ w.attr.toNat) (o + 16) ++ badIf (2 < w.kind) (o + 24) ++
    badIf (w.kind = 1 && (w.ioff.toNat % 65536 ≠ 0 || size < w.ioff.toNat + 65536 * w.size.toNat)) (o + 32)

/-- The section window that holds the program image: SECT and VBASE (R328). -/
def programWindow (ws : List SlotWindow) (off size : Nat) : Option SlotWindow :=
  ws.find? (fun w => w.kind = 1 && w.ioff.toNat ≤ off && off + size ≤ w.ioff.toNat + 65536 * w.size.toNat)

/-- An entry offset lies in the text section and is a multiple of 32 (R49, R50). -/
def entryOk (e text len : Nat) : Bool := e % 32 = 0 && text ≤ e && e < text + len

/-- The bad fields of a program image's header, by offset in the whole image (R49, R50). R50 lists what is refused; that an image
which breaks only R49 is refused as well is the model's choice (assumption 81): a text offset or length that is no multiple of
32, a text beyond the program, a secondary entry that is not zero where flag bit 3 is 0. -/
def State.programBad (s : State) (ia p size : Nat) : List Nat :=
  let f := fun o n => s.img ia (p + o) n
  badIf (f 0 4 ≠ 0x58504158) p ++ badIf (f 4 2 ≠ 0x0100) (p + 4) ++ badIf (16 ≤ f 6 2) (p + 6) ++
    badIf (!entryOk (f 8 8) (f 0x20 4) (f 0x24 4)) (p + 8) ++
    badIf (if (f 6 2).testBit 3 then !entryOk (f 0x10 8) (f 0x20 4) (f 0x24 4) else f 0x10 8 ≠ 0) (p + 0x10) ++
    s.imgRun ia (p + 0x1A) (p + 0x1C) ++ badIf (98304 < f 0x1C 4) (p + 0x1C) ++ badIf (f 0x20 4 % 32 ≠ 0) (p + 0x20) ++
    badIf (f 0x24 4 % 32 ≠ 0 || size < f 0x20 4 + f 0x24 4) (p + 0x24) ++ s.imgRun ia (p + 0x38) (p + 0x40)

/-- The offset of the first byte of an image that cannot be read: a hole, an absent share, poison (assumption 24). -/
def State.imageUnread (s : State) (ia size : Nat) : List Nat :=
  if size = 0 then [0]
  else
    badIf (!oneRegion ia size) 0 ++
    (if pagedHere (regionOf ia) then ((sharesIn ia size).filter (fun a => !s.resident a)).map (fun a => a - ia) else []) ++
    badIf (!s.linkUp (regionOf ia)) 0 ++
    ((s.poison ++ s.fatals).filter (fun a => unitOf ia ≤ a && a < ia + size)).map (fun a => a - ia)

/-- The offset of the first bad field of a model-slot image (R50, R56, R105, R328, R330). -/
def State.imageBad (s : State) (ia size : Nat) : Option Nat :=
  match s.imageUnread ia size with
  | o :: r => least (o :: r)
  | [] =>
    if size < 384 then some 0
    else
      let po := s.img ia 8 8
      let ps := s.img ia 0x10 8
      let n := s.img ia 0x18 1
      let tb := s.img ia 0x20 8
      let ws := (List.range 8).map (s.imgWindow ia)
      least (
        badIf (s.img ia 0 4 ≠ 0x574B534C) 0 ++ badIf (s.img ia 4 2 ≠ 0x0100) 4 ++ badIf (2 ≤ s.img ia 6 2) 6 ++
        badIf (po % 64 ≠ 0 || size < po + ps || (programWindow ws po ps).isNone) 8 ++ badIf (ps < 64) 0x10 ++
        badIf (16 < n) 0x18 ++ s.imgRun ia 0x19 0x20 ++ badIf (n ≠ 0 && (tb % 64 ≠ 0 || size < tb + 128 * n)) 0x20 ++
        s.imgRun ia 0x28 0x40 ++ (ws.zipIdx).flatMap (fun w => windowBad w.1 (0x40 + 40 * w.2) size) ++
        (if po + 64 ≤ size then s.programBad ia po ps else []) ++
        (if tb + 128 * n ≤ size && n ≤ 16 then
          (List.range n).flatMap (fun i => badIf (!tableValid (BitVec.ofNat 1024 (s.img ia (tb + 128 * i) 128))) (tb + 128 * i))
         else []))

/-- The signature check of a program image, under the configuration record's key of its index (R406): accepted, and whether it
carries a valid record (R329). -/
def State.signatureCheck (s : State) (ia p : Nat) : Bool × Bool :=
  let r := s.img ia (p + 0x30) 8
  if r = 0 then (!s.hub.settings.requireSignatures, false)
  else
    let f := fun o n => s.img ia (p + r + o) n
    let body := s.firmwareRead (ia + p) (f 8 8)
    let dig := s.firmwareRead (ia + p + r + 0x10) 64
    let ok := f 0 4 = 0x53494752 && f 4 2 = 1 && r ≤ f 8 8 && Config.digest body = BitVec.ofNat 512 (natOfBytes dig) &&
      (match s.hub.settings.keys[f 6 2]? with
       | some k => Config.signatureOk (dig ++ s.firmwareRead (ia + p + r + 0x50) 29792) k
       | none => false)
    (ok, ok)

/-- LOAD_SLOT_PACKET (R330): the outcome of the checks waits in the packet's last field: status × 2^32 + offset. -/
def execLoadSlotPacket (key : Nat) (s : State) : Answer :=
  s.begin key (fun p =>
    let g := s.slot p.slot
    if p.kind ≠ 2 then .next s
    else if g.state ≠ .empty then .next (s.finishPacket p 10 0 (BitVec.ofNat 32 g.state.code))
    else
      let ia := p.field 0x10 8
      let size := p.field 0x18 8
      let out := match s.imageBad ia size with
        | some o => 5 * 2 ^ 32 + o
        | none => if (s.signatureCheck ia (s.img ia 8 8)).1 then 0 else 6 * 2 ^ 32
      let s1 := (s.setSlot p.slot { GallerySlot.empty with state := .loading }).updPacket key (fun p => { p with last := BitVec.ofNat 64 out })
      .next (((s1.startPacket p).noteWalks (sharesIn ia size)).after (.loadSlotComplete key)))

/-- Copy the section of a window into frames that the firmware chose, and give the window its IOFF (R330). -/
def State.placeSection (s : State) (ia : Nat) (w : SlotWindow) : State × SlotWindow :=
  if w.kind ≠ 1 then (s, { w with ioff := 0 })
  else
    let len := 65536 * w.size.toNat
    let f := 65536 * (Config.sectionFrame s.free % (2 ^ 32 - w.size.toNat + 1))
    let src := Memory.range s.mem (ia + w.ioff.toNat) (ia + w.ioff.toNat + len)
    let s1 := ((s.drawFree).pinRange f len).archive f (f + len) (src.map (fun p => (p.1 - (ia + w.ioff.toNat) + f, p.2)))
    (s1, { w with ioff := BitVec.ofNat 64 f })

/-- Place the sections of an image (R330): the windows with their IOFFs. -/
def State.placeImage (s : State) (ia : Nat) : State × List SlotWindow :=
  ((List.range 8).map (s.imgWindow ia)).foldl (fun (q : State × List SlotWindow) w => let r := q.1.placeSection ia w; (r.1, q.2 ++ [r.2]))
    (s, [])

/-- Every section has its frames: the homes had room for them (R17, R330). -/
def framesHeld (q : State × List SlotWindow) : Bool :=
  q.2.all (fun w => w.kind ≠ 1 || (sharesIn w.ioff.toNat (65536 * w.size.toNat)).all q.1.resident)

/-- Unmap the frames of a section (R63, R331). -/
def State.unmapFrames (s : State) (w : SlotWindow) : State :=
  if w.kind ≠ 1 then s
  else
    let shares := sharesIn w.ioff.toNat (65536 * w.size.toNat)
    s.unmapShares (fun k => shares.contains k) shares

/-- Whether the sections may be written to their frames: the host has answered for the lines that it may hold (R79). -/
def State.sectionsReady (s : State) (e : Instr) (ws : List SlotWindow) : State × Bool :=
  (ws.filter (fun w => w.kind = 1)).foldl (fun q w =>
    let r := q.1.archiveReady e w.ioff.toNat (65536 * w.size.toNat)
    (r.1, q.2 && r.2)) (s, true)

/-- LOAD_SLOT_COMPLETE (R79, R318, R330): without frames for its sections the load fails with status 5 and INFO 0 (assumption 72). -/
def execLoadSlotComplete (key : Nat) (s : State) : Answer :=
  match s.packet key with
  | none => .next s
  | some p =>
    if p.state ≠ .started || p.kind ≠ 2 then .next s
    else if s.restarting then .next (s.afterN 1600 (.loadSlotComplete key))
    else if p.last ≠ 0 then
      .next ((s.setSlot p.slot GallerySlot.empty).finishPacket p (getBits p.last 32 32) 0 (p.last.setWidth 32))
    else
      let ia := p.field 0x10 8
      let po := s.img ia 8 8
      let n := s.img ia 0x18 1
      let tb := s.img ia 0x20 8
      let ws := (List.range 8).map (s.imgWindow ia)
      let pw := (programWindow ws po (s.img ia 0x10 8)).getD (s.imgWindow ia 0)
      let va := fun (e : Nat) => pw.vbase <<< 16 + BitVec.ofNat 64 (po - pw.ioff.toNat + e)
      let r := s.sectionsReady (.loadSlotComplete key) (s.placeImage ia).2
      let placed := r.1.placeImage ia
      let g : GallerySlot :=
        { state := .loaded, version := BitVec.ofNat 16 (p.field 0x0A 2), privreq := s.img ia 6 2 % 2 = 1
          signed := (s.signatureCheck ia po).2, windows := placed.2
          tables := (List.range n).map (fun i => BitVec.ofNat 1024 (s.img ia (tb + 128 * i) 128))
          hdrFlags := BitVec.ofNat 16 (s.img ia (po + 6) 2), entry := va (s.img ia (po + 8) 8)
          secEntry := va (s.img ia (po + 0x10) 8), scratch := s.img ia (po + 0x1C) 4 }
      if !r.2 then .next (r.1.afterN 1 (.loadSlotComplete key))
      else if framesHeld placed then .next ((placed.1.setSlot p.slot g).finishPacket p 0 0 0)
      else .next (((placed.2.foldl State.unmapFrames placed.1).setSlot p.slot GallerySlot.empty).finishPacket p 5 0 0)

/-- UNLOAD_SLOT_PACKET (R331). -/
def execUnloadSlotPacket (key : Nat) (s : State) : Answer :=
  s.begin key (fun p =>
    let g := s.slot p.slot
    if p.kind ≠ 3 then .next s
    else if g.state ≠ .loaded || g.version.toNat ≠ p.field 0x0A 2 then .next (s.finishPacket p 3 0 (BitVec.ofNat 32 g.state.code))
    else
      let s1 := (s.setSlot p.slot { g with state := .unloading }).startPacket p
      .next (if s1.slotBusy p.slot then s1 else s1.after (.unloadSlotComplete key)))

/-- UNLOAD_SLOT_COMPLETE (R331). -/
def execUnloadSlotComplete (key : Nat) (s : State) : Answer :=
  match s.packet key with
  | none => .next s
  | some p =>
    if p.state ≠ .started || p.kind ≠ 3 || s.slotBusy p.slot then .next s
    else if s.restarting then .next (s.afterN 1600 (.unloadSlotComplete key))
    else .next ((((s.slot p.slot).windows.foldl State.unmapFrames s).setSlot p.slot GallerySlot.empty).finishPacket p 0 0 0)

/-! ### Invoke (R332) -/

/-- The buffer windows of a slot as a mask (R324). -/
def GallerySlot.bufMask (g : GallerySlot) : Nat :=
  (g.windows.zipIdx).foldl (fun m w => if w.1.kind = 2 then m + 2 ^ w.2 else m) 0

/-- IOFF of window n of an invoke, as an IA (R322). -/
def Packet.buf (p : Packet) (n : Nat) : Nat := (p.bits.extractLsb' (8 * 0x1C + 36 * n) 36).toNat * 65536

/-- The windows of a starting task (R332). -/
def GallerySlot.winOf (g : GallerySlot) (p : Packet) : List SlotWindow :=
  (g.windows.zipIdx).map (fun w => if w.1.kind = 2 then { w.1 with ioff := BitVec.ofNat 64 (p.buf w.2) } else w.1)

/-- The first window of an invoke that breaks R56 or begins in a hole (R324). -/
def badBuffer (ws : List SlotWindow) : Option Nat :=
  ((ws.zipIdx).find? (fun w => w.1.kind = 2 &&
    (2 ^ 52 < w.1.ioff.toNat + 65536 * w.1.size.toNat || regionOf w.1.ioff.toNat = .hole))).map (·.2)

/-- ctl.stat at task start (R51, R162, R332). -/
def statStart (flags : BitVec 16) (prio : BitVec 6) (priv : Bool) : Word :=
  (if priv then 1 else 0) ||| (if flags.getLsbD 0 then 2 else 0) ||| ((flags.extractLsb' 1 2).setWidth 64 <<< 7) |||
    (prio.setWidth 64 <<< 9)

/-- The window registers of some windows (R55). -/
def winRegs (ws : List SlotWindow) : Vector Word 32 :=
  Vector.ofFn (fun i : Fin 32 =>
    match ws[i.val / 4]? with
    | none => 0
    | some w =>
      if w.kind = 0 then 0
      else match i.val % 4 with
        | 0 => (w.vbase <<< 16) &&& 0x1FFFFFFFFFF0000
        | 1 => w.size &&& 0x1FFFFFFFFFF
        | 2 => w.ioff &&& 0xFFFFFFFFF0000
        | _ => w.attr &&& 0x3F)

/-- The context of a task before its placement (R332). -/
def GallerySlot.ctxOf (g : GallerySlot) (ws : List SlotWindow) (prio : BitVec 6) (priv : Bool) : Ctx :=
  { Ctx.reset with
    win := winRegs ws
    codes := Vector.ofFn (fun i : Fin 16 => g.tables.getD i.val 0)
    hdrFlags := g.hdrFlags, secEntry := g.secEntry
    sec := { Stream.reset.reseed 0 with stat := statStart g.hdrFlags prio priv ||| 4 }
    prim := { Stream.reset.reseed 0 with
      live := true, started := true, pc := g.entry.extractLsb' 5 59, stat := statStart g.hdrFlags prio priv
      s := Vector.ofFn (fun i : Fin 64 =>
        if 1 ≤ i.val ∧ i.val ≤ 8 then
          match ws[i.val - 1]? with
          | some w => if w.kind = 0 then 0 else w.vbase <<< 16
          | none => 0
        else 0) } }

/-- The first of the scheduler's save areas that no task has (R335). -/
def State.freePlace (s : State) : Nat :=
  ((List.range (s.tasks.length + 1)).find? (fun n => !s.tasks.any (fun t => t.state ≠ .retired && t.place = n))).getD 0

/-- INVOKE_PACKET (R324, R332, R333). -/
def execInvokePacket (key : Nat) (s : State) : Answer :=
  s.begin key (fun p =>
    let g := s.slot p.slot
    let ws := g.winOf p
    if p.kind ≠ 1 then .next s
    else if g.state ≠ .loaded || g.version.toNat ≠ p.field 0x0A 2 || g.bufMask ≠ p.field 0x14 1 then
      .next (s.finishPacket p 3 0 (BitVec.ofNat 32 g.state.code))
    else
      match badBuffer ws with
      | some w => .next (s.finishPacket p 4 0 (BitVec.ofNat 32 w))
      | none =>
        let priv := g.privreq && g.signed && (s.descField p.queue 0x11 1).testBit 1
        let t : Task :=
          { key := s.nextId, taskId := BitVec.ofNat 32 (p.field 0x10 4), state := .ready, prio := p.prio
            n := p.field 0x0C 1 % 16, shape := BitVec.ofNat 2 (p.field 0x0C 1 / 16), rcls := BitVec.ofNat 4 (p.field 0x0D 1)
            cores := [], queue := some p.queue, seq := p.serial, slot := p.slot, packet := key, scratch := g.scratch
            order := s.nextId, saved := [], sliced := [], place := s.freePlace, started := false, protectedFrom := none, ended := none
            checkpoints := [], copying := 0, start := g.ctxOf ws p.prio priv }
        .next (({ s with tasks := s.tasks ++ [t], nextId := s.nextId + 1 }.startPacket p).reconsider))

/-! ### Copy, signal and wait packets (R323) -/

/-- The core whose engines run a copy packet (R323). -/
def copyCore (src dst : Nat) : CoreId :=
  let pick := fun (a : Nat) =>
    match regionOf a with
    | .pkg => some (homeOf a)
    | .stack _ => some (homeOf a)
    | .slice _ => some (sliceCore a)
    | _ => none
  ((pick dst).orElse (fun _ => pick src)).getD 0

/-- The job of a copy packet (R323): one plain copy of one row, of no task, without edges. -/
def Packet.copyJob (p : Packet) : Job :=
  let ext := fun (off : Nat) (wr : Bool) =>
    ({ va := BitVec.ofNat 64 (p.field off 8), ia := p.field off 8, len := p.field 0x18 8, wr := wr, attr := 0 } : Extent)
  { id := p.key, tag := 0, sec := false
    kind := .copy (ext 0x08 false) (ext 0x10 true) (ext 0x08 false).va (ext 0x10 true).va (p.field 0x18 8) 1 0 0 false
    cls := 0, span := false, nt := false, addr := 0, waits := none, snap := 0, own := [], regions := [(ext 0x08 false).region, (ext 0x10 true).region]
    edges := [], stores := [], started := false, depFailed := false, engine := none
    cursor := { done := 0, bit := 0, entry := none }, wrote := [], sentAt := 0 }

/-- A copy packet whose job has ended completes with the status of the job (R323, R324). -/
def State.endCopyPacket (s : State) (p : Packet) : State :=
  if p.last = 0 then s
  else if !s.serving then s.afterN 1600 (.copyPacket p.key)
  else s.finishPacket p (if p.last = 1 then 0 else 8) 0 (p.last.setWidth 32 - 1)

/-- COPY_PACKET (R323): its job goes to the engines of its core, and the packet completes when that has ended. -/
def execCopyPacket (key : Nat) (s : State) : Answer :=
  match s.packet key with
  | none => .next s
  | some p =>
    if p.state = .started && p.kind = 4 then .next (s.endCopyPacket p)
    else s.begin key (fun p =>
      let src := p.field 0x08 8
      let dst := p.field 0x10 8
      let len := p.field 0x18 8
      if p.kind ≠ 4 then .next s
      else if len = 0 then .next (s.finishPacket p 0 0 0)
      else if !oneRegion src len then .next (s.finishPacket p 1 0 0x08)
      else if !oneRegion dst len then .next (s.finishPacket p 1 0 0x10)
      else if src < dst + len && dst < src + len then .next (s.finishPacket p 1 0 0x10)
      else .next ((s.updCore (copyCore src dst) (fun k => { k with packetJobs := k.packetJobs ++ [p.copyJob] })).startPacket p))

/-- What meets a signal or a wait at its word: 2 an absent share, 3 poison or a failed access (R323). -/
def State.wordStop (s : State) (ia : Nat) : Option Nat :=
  if !s.resident ia then some 2 else if (s.firstPoison (addrs ia 8)).isSome then some 3 else none

/-- IA of the word of a signal or wait packet (R322). -/
def Packet.word (p : Packet) : Nat := p.field 0x08 8

/-- The word of a packet is reached over a link that carries accesses (R85). -/
def State.wordFar (s : State) (ia : Nat) : Bool := (onHost [ia] || onPeer [ia]) && s.linkUp (regionOf ia)

/-- The access of a packet to its word goes out over its link after some cycles (R85, R323): its time is not promised, and at 50 ms
it fails. -/
def State.sendWord (s : State) (p : Packet) (wait : Nat) (e : Instr) : State :=
  (s.delayed.updPacket p.key (fun q => { q with access := some (decide (accessLimit ≤ s.delay)) })).afterN
    (wait + Nat.min accessLimit s.delay) e

/-- The access of a signal stands at its word: it is tried again after some cycles. -/
def State.signalAgain (s : State) (p : Packet) (n : Nat) : State :=
  (s.updPacket p.key (fun q => { q with access := some (p.access.getD false) })).afterN n (.signalPacket p.key)

/-- The home, bank, host or peer applies a signal at the newest value, as an atomic, once no copy of its line is left, the host has
answered for it and its sub-bank is granted (R69, R79, R121, R323). -/
def State.signalWord (s : State) (p : Packet) : State :=
  let ia := p.word
  if !s.serving then s.signalAgain p 1600
  else if p.access = some true then s.finishPacket p 8 0 3
  else if !s.resident ia then (s.noteWalks [ia]).finishPacket p 8 0 2
  else
    let w := s.writeReady (.signalPacket p.key) (addrs ia 8)
    if !w.2 then w.1.signalAgain p 1
    else
      let b := w.1.hubTakes (.signalPacket p.key) (addrs ia 8)
      if !b.2 then b.1.signalAgain p 1
      else
        let s1 := b.1.serveOutside (addrs ia 8)
        if (s1.firstPoison (addrs ia 8)).isSome then (s1.snoopsUsed (addrs ia 8)).finishPacket p 8 0 3
        else
          let v := if p.field 0x18 1 = 0 then p.field 0x10 8 else s1.wordNow ia 8 + p.field 0x10 8
          (s1.agentWrite Writer.outside (atAddr ia (bytesOfNat 8 v)) false).finishPacket p 0 0 0

/-- SIGNAL_PACKET (R85, R323). -/
def execSignalPacket (key : Nat) (s : State) : Answer :=
  match s.packet key with
  | none => .next s
  | some p =>
    if p.state = .waiting && p.access.isSome && p.kind = 5 then .next (s.signalWord p)
    else s.begin key (fun p =>
      .next (if p.kind ≠ 5 then s else if s.wordFar p.word then s.sendWord p 0 (.signalPacket key) else s.signalWord p))

/-- The packet's condition holds for a value of its word (R322). -/
def Packet.holds (p : Packet) (v : Nat) : Bool := (v = p.field 0x10 8) = (p.field 0x18 1 = 1)

/-- A wait packet starts: its timeout runs (R323, R326). A word over a link is asked for; until the first answer the word last
read is a free value (assumption 93). -/
def State.startWait (s : State) (p : Packet) : State :=
  let us := p.field 0x1C 4
  let s1 := s.startPacket p
  let s2 := if us = 0 then s1
    else (s1.updPacket p.key (fun p => { p with deadline := some (s.now + 1600 * us) })).afterN (1600 * us) (.waitPacketTimeout p.key)
  if s.wordFar p.word then
    (s2.drawFree.updPacket p.key (fun p => { p with last := Config.freeWord s.free })).sendWord p 0 (.waitPacket p.key)
  else s2

/-- The access of a wait packet to a word over a link has come back (R85, R323): the wait ends, or the word is asked for again
1 µs later (assumption 93). -/
def State.pollPacket (s : State) (p : Packet) : State :=
  let s1 := s.serveOutside (addrs p.word 8)
  if !s.serving then s.afterN 1600 (.waitPacket p.key)
  else if p.access = some true then (s.cancelEvent (.waitPacketTimeout p.key)).finishPacket p 8 0 3
  else
    match s1.wordStop p.word with
    | some k => (s1.cancelEvent (.waitPacketTimeout p.key)).finishPacket p 8 0 (BitVec.ofNat 32 k)
    | none =>
      let v := s1.wordNow p.word 8
      if p.holds v then (s1.cancelEvent (.waitPacketTimeout p.key)).finishPacket p 0 0 0
      else (s1.updPacket p.key (fun p => { p with last := BitVec.ofNat 64 v })).sendWord p 1600 (.waitPacket p.key)

/-- WAIT_PACKET (R85, R323): it starts, or an access that it has sent over a link comes back. -/
def execWaitPacket (key : Nat) (s : State) : Answer :=
  match s.packet key with
  | none => .next s
  | some p =>
    if p.state = .started && p.kind = 6 then .next (if p.access.isSome then s.pollPacket p else s)
    else s.begin key (fun p =>
      if p.kind ≠ 6 then .next s
      else
        let s0 := (s.noteWalks [p.word]).serveOutside (addrs p.word 8)
        match s0.wordStop p.word with
        | some k => .next (s0.finishPacket p 8 0 (BitVec.ofNat 32 k))
        | none => .next (s0.startWait p))

/-- The unit of a byte holds an uncorrectable error that has not been found (R72, R123). -/
def State.hiddenError (s : State) (ia : Nat) : Bool := s.fatals.any (fun w => unitOf w = unitOf (s.place ia))

/-- A started wait packet whose word a home or bank watches must complete: its condition holds, or its word cannot be read
(R323). -/
def State.waitMet (s : State) (p : Packet) : Bool :=
  p.state = .started && p.kind = 6 && p.access.isNone && s.serving &&
    ((s.wordStop p.word).isSome || s.hiddenError p.word || p.holds (s.wordNow p.word 8))

/-- WAIT_PACKET_MET (R323, R326). -/
def execWaitPacketMet (key : Nat) (s : State) : Answer :=
  match s.packet key with
  | none => .next s
  | some p =>
    if s.waitMet p then
      let s1 := ((s.cancelEvent (.waitPacketTimeout key)).noteWalks [p.word]).serveOutside (addrs p.word 8)
      match s1.wordStop p.word with
      | some k => .next (s1.finishPacket p 8 0 (BitVec.ofNat 32 k))
      | none => .next (s1.finishPacket p 0 0 0)
    else .next s

/-- WAIT_PACKET_TIMEOUT (R323, R326). -/
def execWaitPacketTimeout (key : Nat) (s : State) : Answer :=
  match s.packet key with
  | none => .next s
  | some p =>
    if p.state ≠ .started || p.kind ≠ 6 then .next s
    else if !s.serving then .next (s.afterN 1600 (.waitPacketTimeout key))
    else .next (s.finishPacket p 9 0 (if p.access.isSome then p.last.setWidth 32 else BitVec.ofNat 32 (s.wordNow p.word 8)))

/-! ### Group packets (R380, R413) -/

/-- An entry of a rank table: pod, pod device and core, none when another bit is set (R413). -/
def rankEntry (v : Nat) : Option (Nat × Nat × Nat) :=
  let pod := v % 2 ^ 11
  let dev := v / 2 ^ 16 % 2 ^ 10
  let core := v / 2 ^ 32 % 8
  if v = pod + 2 ^ 16 * dev + 2 ^ 32 * core then some (pod, dev, core) else none

/-- Ranks rise strictly by pod, device and core (R380). -/
def ranksRise : List (Nat × Nat × Nat) → Bool
  | a :: b :: r =>
    (a.1 < b.1 || (a.1 = b.1 && (a.2.1 < b.2.1 || (a.2.1 = b.2.1 && a.2.2 < b.2.2)))) && ranksRise (b :: r)
  | _ => true

/-- The rank table of a form packet, none when it is malformed or does not name this device (R413). -/
def State.rankTable (s : State) (ia n : Nat) : Option (List (Nat × Nat × Nat)) :=
  if !oneRegion ia (8 * n) || (s.firstPoison (addrs ia (8 * n))).isSome || (addrs ia (8 * n)).any (fun a => !s.resident a) then none
  else
    match ((List.range n).mapM (fun i => rankEntry (s.img ia (8 * i) 8))) with
    | none => none
    | some l => if ranksRise l && l.any (fun r => (r.1, r.2.1) = s.device) then some l else none

/-- GROUP of a packet. -/
def Packet.group (p : Packet) : Nat := p.field 0x08 2

/-- A group that is formed. -/
def State.formedGroup (s : State) (n : Nat) : Bool := ((s.group n).map (·.formed)).getD false

/-- Wait for the agreement of the other devices, up to 1 s; a group of this device alone agrees at once (R413). -/
def State.seekAgreement (s : State) (key : Nat) (g : Group) : State :=
  let s1 := s.afterN 1600000000 (.groupAgreementTimeout key)
  if g.devices.all (· = s.device) then s1.after (.groupAgreement key true) else s1

/-- The sequences of the strikers go on (R382). -/
def State.kickAll (s : State) : State := s.hub.strikers.foldl (fun s k => s.kick k.1) s

/-- Forget a group on this device: its pairs, what was asked for it, and what was recorded of it (R413). -/
def State.forgetGroup (s : State) (n : Nat) : State :=
  (s.updHub (fun h =>
    { h with groups := h.groups.filter (fun g => g.number ≠ n)
             marks := h.marks.filter (fun m => m.group ≠ n)
             asked := h.asked.filter (fun a => a.1 ≠ n)
             strikers := h.strikers.map (fun k => (k.1, { k.2 with pairs := k.2.pairs.filter (fun p => p.group ≠ n) })) })).kickAll

/-- GROUP_FORM (R413). -/
def execGroupForm (key : Nat) (s : State) : Answer :=
  s.begin key (fun p =>
    if p.kind ≠ 7 || p.field 0x0A 1 ≠ 0 then .next s
    else if (s.group p.group).isSome then .next (s.finishPacket p 11 0 1)
    else
      let s := s.noteWalks (sharesIn (p.field 0x18 8) (8 * p.field 0x0C 4))
      match s.rankTable (p.field 0x18 8) (p.field 0x0C 4) with
      | none => .next (s.finishPacket p 11 0 2)
      | some l =>
        let g : Group := { number := p.group, ranks := l, formed := false, closed := false, grants := [], counts := [], barrier := 0, joined := 0, rewind := none, gone := false }
        .next (((s.updHub (fun h => { h with groups := h.groups ++ [g] })).startPacket p).seekAgreement key g))

/-- A group is granted to one more task (R380, R413). Where it is granted to none, the COLJs of each rank count from 0, and the
pairs of earlier grants that have ended are forgotten; while it is granted to another task the ranks go on counting, which is the
model's choice (assumption 94). -/
def State.grantGroup (s : State) (n : Nat) (id : BitVec 32) : State :=
  let fresh := ((s.group n).map (fun g => decide (g.grants = []))).getD false
  let s1 := s.updGroup n (fun g =>
    { g with grants := if g.grants.contains id then g.grants else g.grants ++ [id], counts := if fresh then [] else g.counts, gone := false })
  if fresh then
    s1.updHub (fun h => { h with strikers := h.strikers.map (fun k => (k.1, { k.2 with
      pairs := k.2.pairs.filter (fun p => p.group ≠ n || isBarrier p.index || !p.state.ended) })) })
  else s1

/-- GROUP_GRANT (R380, R413). -/
def execGroupGrant (key : Nat) (s : State) : Answer :=
  s.begin key (fun p =>
    if p.kind ≠ 7 || p.field 0x0A 1 ≠ 1 then .next s
    else if !s.formedGroup p.group then .next (s.finishPacket p 11 0 5)
    else
      let id := BitVec.ofNat 32 (p.field 0x10 4)
      .next ((s.grantGroup p.group id).finishPacket p 0 0 0))

/-- GROUP_REOPEN (R389, R413). -/
def execGroupReopen (key : Nat) (s : State) : Answer :=
  s.begin key (fun p =>
    if p.kind ≠ 7 || p.field 0x0A 1 ≠ 2 then .next s
    else if !s.formedGroup p.group then .next (s.finishPacket p 11 0 5)
    else
      match s.group p.group with
      | none => .next s
      | some g => .next ((s.startPacket p).seekAgreement key g))

/-- The collective jobs of a group on this device. -/
def State.groupJobs (s : State) (n : Nat) : Bool :=
  let has := fun (x : Ctx) => x.jobs.any (fun j => match j.kind with | .collective _ g _ _ _ _ _ _ _ _ _ => g = n | _ => false)
  allCores.any (fun c => has (s.core c).ctx || has (s.core c).shadow || (s.savedOn c).any has)

/-- GROUP_RELEASE (R413). -/
def execGroupRelease (key : Nat) (s : State) : Answer :=
  s.begin key (fun p =>
    if p.kind ≠ 7 || p.field 0x0A 1 ≠ 3 then .next s
    else if !s.formedGroup p.group then .next (s.finishPacket p 11 0 5)
    else .next ((s.startPacket p).after (.groupReleaseComplete key)))

/-- GROUP_AGREEMENT (R413): a form registers the group, or fails where the tables disagree; a reopen opens it, with k and
the barrier index 0. -/
def execGroupAgreement (key : Nat) (agrees : Bool) (s : State) : Answer :=
  match s.packet key with
  | none => .next s
  | some p =>
    let op := p.field 0x0A 1
    let s1 := s.cancelEvent (.groupAgreementTimeout key)
    if p.state ≠ .started || p.kind ≠ 7 || 3 ≤ op || op = 1 then .next s
    else if s.restarting then .next (s.afterN 1600 (.groupAgreement key agrees))
    else if op = 0 then
      if agrees then
        .next ((s1.updHub (fun h => { h with groups := h.groups.map (fun g => if g.number = p.group then { g with formed := true } else g) })).finishPacket p 0 0 0)
      else .next ((s1.forgetGroup p.group).finishPacket p 11 0 3)
    else if agrees then
      let s2 := s1.updHub (fun h =>
        { h with groups := h.groups.map (fun g => if g.number = p.group then { g with closed := false, barrier := 0, joined := 0, counts := [] } else g)
                 asked := h.asked.filter (fun a => a.1 ≠ p.group)
                 strikers := h.strikers.map (fun k => (k.1, { k.2 with pairs := k.2.pairs.filter (fun q => q.group ≠ p.group) })) })
      let s3 := if ((s2.group p.group).map (fun g => g.gone && !g.devices.all (· = s.device))).getD false then s2.joinBarrier p.group 0 else s2
      .next (s3.kickAll.finishPacket p 0 0 0)
    else .next s

/-- GROUP_AGREEMENT_TIMEOUT (R413). -/
def execGroupAgreementTimeout (key : Nat) (s : State) : Answer :=
  match s.packet key with
  | none => .next s
  | some p =>
    if p.state ≠ .started || p.kind ≠ 7 then .next s
    else if s.restarting then .next (s.afterN 1600 (.groupAgreementTimeout key))
    else .next ((if p.field 0x0A 1 = 0 then s.forgetGroup p.group else s).finishPacket p 11 0 4)

/-- GROUP_RELEASE_COMPLETE (R413): once every collective of the group on this device has completed. -/
def execGroupReleaseComplete (key : Nat) (s : State) : Answer :=
  match s.packet key with
  | none => .next s
  | some p =>
    if p.state ≠ .started || p.kind ≠ 7 || p.field 0x0A 1 ≠ 3 then .next s
    else if s.restarting || s.groupJobs p.group then .next (s.afterN 1600 (.groupReleaseComplete key))
    else .next ((s.forgetGroup p.group).finishPacket p 0 0 0)

end Sys2Proof.Machine
end

