-- ==== Sys2Proof/Machine/Firmware.lean ====
section
/-! DEFINITION. The firmware complex, resets and bring-up, attestation, power and heat, and the host and UALink ports
(R75 to R88, R318, R326, R366, R393 to R406). -/

namespace Sys2Proof.Machine

/-! ### Opening the queues (R88) -/

/-- The conditions of R88 hold, and bring-up has passed step 8 (R402). -/
def State.mayOpen (s : State) : Bool :=
  let h := s.hub
  h.railsUp && !h.booting && h.config.valid && 8 ≤ getBits h.bootstat 0 4 && !h.bootstat.getLsbD 5 && !h.bootstat.getLsbD 6 &&
    1 ≤ getBits h.hlstat 0 3 && 1 ≤ getBits h.hlstat 3 3 && h.hlstat.getLsbD 6 && h.portSettled = BitVec.allOnes 18 &&
    !h.devstat.getLsbD 0

/-- The firmware opens the queues when it may (R88). -/
def State.tryOpen (s : State) : State :=
  if s.mayOpen && !s.agenda.any (fun e => e.2 = .queuesOpen) then s.after .queuesOpen else s

/-- The firmware gives a home's eighth of the host-visible range its frames, once (R62, R79). -/
def Home.mapHost (m : Home) (size : Nat) : Home :=
  if m.hostFrames.isSome then m else { m with hostFrames := some m.used, used := m.used + size / 8 }

/-- QUEUES_OPEN (R65, R76, R79, R88): once EN and CONS of every queue are cleared, the host-visible range is mapped, the pools are filled, and waiting tails are consumed. -/
def execQueuesOpen (s : State) : Answer :=
  if s.mayOpen && s.hub.fwWrites ≠ [] then .next (s.afterN 1 .queuesOpen)
  else if s.mayOpen then
    let s1 := s.updHub (fun h => { h with devstat := h.devstat ||| 1, hostMapped := true })
    let s2 := allCores.foldl (fun s h => s.updHome h (fun m => (m.mapHost s.hub.settings.barSize).fill)) s1
    .next (if s2.serving then s2.replayQueues else s2)
  else .next s

/-! ### The firmware complex (R318, R326) -/

/-- A restart of the lock-step pair ends within 20 ms (R326). -/
def restartCycles : Nat := 32000000

/-- FIRMWARE_LOCKSTEP_MISMATCH (R318, R326). -/
def execFirmwareLockstepMismatch (s : State) : Answer :=
  if s.restarting then .next s
  else .next ((s.updHub (fun h => { h with devstat := h.devstat ||| 4 })).afterAtMost restartCycles .firmwareRestartEnd)

/-- FIRMWARE_RESTART_END (R325, R326): held reports are handled, and the replay resumes. -/
def execFirmwareRestartEnd (s : State) : Answer :=
  if !s.restarting then .next s
  else
    let s1 := (s.updHub (fun h => { h with devstat := h.devstat &&& ~~~4, heldReports := [] })).msix 1
    let s2 := s.hub.heldReports.foldl State.after s1
    .next ((if s2.serving then s2.replayQueues else s2).reconsider)

/-- WORKER_FAULT (R318): the work in hand goes to another worker. -/
def execWorkerFault (_worker : Nat) (s : State) : Answer :=
  .next (s.updHub (fun h => { h with workerFaults := h.workerFaults + 1 }))

/-- The device holds no work: no task, no packet in hand. -/
def State.workless (s : State) : Bool :=
  s.tasks.all (fun t => t.state = .retired) && s.hub.packets.all (fun p => p.state = .completed) && allCores.all (fun c => !(s.core c).live)

/-- A queue has an accepted tail that is still to be consumed (R83, R325). -/
def State.tailsWait (s : State) : Bool :=
  s.hub.rung ≠ [] || (List.range 1024).any (fun q => s.descOk q && !s.hub.ignored.contains q && serialAhead (s.latch q) (s.cons q))

/-- POWER_GATE_ENTRY (R75, R83, R326): the device is gated while it holds no work and no accepted tail waits. -/
def execPowerGateEntry (s : State) : Answer :=
  if s.serving && s.workless && !s.tailsWait then .next (s.updHub (fun h => { h with devstat := h.devstat ||| 2 })) else .next s

/-! ### Bring-up (R402, R403) -/

/-- Begin a bring-up step. -/
def Hub.beginStep (h : Hub) (n : Nat) : Hub := { h with bootstat := putBits h.bootstat 0 4 (BitVec.ofNat 64 n) }

/-- A bring-up step fails with its code (R402, R403). -/
def Hub.failStep (h : Hub) (n : Nat) : Hub :=
  { h with booting := false, bootstat := putBits (h.bootstat ||| 0x40) 8 4 (BitVec.ofNat 64 n) }

/-- Recovery mode (R402, R403). -/
def Hub.recovery (h : Hub) : Hub := { h with booting := false, bootstat := h.bootstat ||| 0x20 }

/-- Recovery mode, or a step that failed: the host link trains at 32 GT/s alone, and queues never open (R402). -/
def Hub.minimal (h : Hub) : Bool := h.bootstat.getLsbD 5 || h.bootstat.getLsbD 6

/-- Every slice is written with zeros (R337). -/
def State.zeroSlices (s : State) : State :=
  allCores.foldl (fun s c => (s.zeroSlice c 0 sliceBytes).updCore c (fun k => { k with highWater := 0, lastQueue := none })) s

/-- A port has reached STATE 2, or is marked STATE 3 (R88). -/
def Hub.settle (h : Hub) (port : Nat) : Hub := { h with portSettled := h.portSettled ||| BitVec.ofNat 18 (2 ^ port) }

/-- Step 10 begins: every port trains, and one not up within 500 ms is marked (R88). -/
def State.trainPorts (s : State) : State :=
  let s1 := s.updHub (fun h => { h.beginStep 10 with
    ulstat := Vector.ofFn (fun i : Fin 18 => if portState h.ulstat[i.val] = 0 then h.ulstat[i.val] ||| 1 else h.ulstat[i.val])
    portSettled := BitVec.ofNat 18 (((List.range 18).map (fun i => if 2 ≤ portState (h.ulstat.toList.getD i 0) then 2 ^ i else 0)).foldl (· + ·) 0) })
  (List.range 18).foldl (fun s i => s.afterN 800000000 (.ualinkTrainingTimeout i)) s1

/-- The march test's outcome: the dies that failed, by stack, with those of the sparing record where that is valid (R377, R402,
R406). -/
def State.marchTest (s : State) (dies : List (Nat × Nat)) : State :=
  allCores.foldl (fun s c => s.updCore c (fun k =>
    k.withDies (dies.foldl (fun m d => if d.1 = c.val && d.2 < 17 then m ||| BitVec.ofNat 17 (2 ^ d.2) else m)
      (if s.hub.sparingValid then k.failedDies else 0)))) s

/-- The copy of the firmware image that step 3 checks (R402). -/
def Hub.image (h : Hub) : Option FirmwareImage := h.flash[if h.imageTried then 1 else 0]?

/-- The boot ROM accepts that copy: it is signed, and its security version is no lower than the configuration record's minimum
(R404). -/
def Hub.imageOk (h : Hub) : Bool := (h.image.map (fun m => m.signed && decide (h.settings.minSecurity ≤ m.security))).getD false

/-- BRING_UP_STEP_END (R402 to R404, R406): ok tells what the step found that the state does not show. -/
def execBringUpStepEnd (ok : Bool) (dies : List (Nat × Nat)) (s : State) : Answer :=
  if !s.hub.booting then .next s
  else
    match getBits s.hub.bootstat 0 4 with
    | 1 => .next (s.updHub (fun h => if ok then { h.beginStep 2 with rails := h.settings.rails } else { h with booting := false, railsUp := false }))
    | 2 => .next (s.updHub (fun h => if ok then { h.beginStep 3 with identity := some Config.identityKey } else { h with booting := false }))
    | 3 => .next (s.updHub (fun h =>
        if ok && h.imageOk then (if h.config.valid then h.beginStep 4 else h.recovery)
        else if h.imageTried then h.recovery else { h with imageTried := true }))
    | 4 => .next (s.updHub (fun h => if ok then h.beginStep 5 else h.failStep 4))
    | 5 => .next (s.updHub (fun h => if ok then h.beginStep 6 else h.failStep 5))
    | 6 => if ok then .next (s.zeroSlices.updHub (fun h => h.beginStep 7)) else .next (s.updHub (fun h => h.failStep 6))
    | 7 => .next ((s.marchTest dies).updHub (fun h => h.beginStep 8))
    | 8 =>
      if !ok then .next (s.updHub (fun h => h.failStep 8))
      else if s.hub.bootEnd = 8 then .next ((s.updHub (fun h => { h with booting := false, sparingValid := true })).tryOpen)
      else .next (s.updHub (fun h => { h.beginStep 9 with sparingValid := true }))
    | 9 => if ok then .next s.trainPorts else .next (s.updHub (fun h => { h with booting := false }))
    | _ => .next ((s.updHub (fun h => { h with booting := false, bootstat := h.bootstat ||| 0x10 })).tryOpen)

/-- A core after a reset keeps what the sparing record says of its stack (R377, R402). -/
def Core.afterReset (k : Core) : Core := Core.reset.withDies k.failedDies

/-- PWRSTAT with the floor budget in force (R399, R400). -/
def Hub.floorStat (h : Hub) : Word := 0x1000 ||| (BitVec.ofNat 64 h.settings.floorBudget &&& 0xFFF)

/-- POWER_ON_RESET (R399, R402, R406): bring-up begins at step 1. Board flash and the outside world are kept. -/
def execPowerOnReset (s : State) : Answer :=
  .next { State.reset with
    now := s.now, inputs := s.inputs, delays := s.delays, free := s.free, nextId := s.nextId
    cores := Vector.ofFn (fun c : Fin 8 => (s.core c).afterReset)
    hub := { Hub.reset with
      config := s.hub.config, sparingValid := s.hub.sparingValid, flash := s.hub.flash, certificate := s.hub.certificate
      pwrstat := s.hub.floorStat, bootstat := 1, booting := true } }

/-- EN and CONS of every queue descriptor become 0 (R76). -/
def clearQueues (m : Table Byte) : Table Byte :=
  m.filterMap (fun p =>
    if p.1 < 0x10000 then
      let o := p.1 % 64
      if 0x14 ≤ o && o < 0x18 then none
      else if o = 0x11 then (if p.2 &&& 0xFE = 0 then none else some (p.1, p.2 &&& 0xFE))
      else some p
    else some p)

/-- The registers of the hub after a function-level reset (R76): status of links that are up is kept, and what the host's access
to mapped memory needs (assumption 25). In recovery mode, or after a step that failed, no step is repeated (R402). -/
def Hub.afterFlr (h : Hub) : Hub :=
  { Hub.reset with
    config := h.config, flash := h.flash, certificate := h.certificate, identity := h.identity, imageTried := h.imageTried, railsUp := h.railsUp
    rails := h.rails, sparingValid := h.sparingValid, report := h.report, hostMapped := h.hostMapped
    bootstat := if h.minimal then h.bootstat else 6, booting := !h.minimal, bootEnd := 8
    hlstat := h.hlstat &&& 0x7FF
    ulstat := Vector.ofFn (fun i : Fin 18 => h.ulstat[i.val] &&& 0x3FF0003), portSettled := h.portSettled
    pwrstat := h.floorStat
    gallery := (h.gallery.filter (fun g => g.2.state = .loaded))
    groups := (h.groups.filter (·.formed)).map (fun g => { g with grants := [], counts := [], rewind := none, gone := false }), strikers := h.strikers, d2dFailed := h.d2dFailed }

/-- The host may hold lines of the queue table (R79): CXL.mem is negotiated and the range is mapped. -/
def State.tableHeld (s : State) : Bool := s.hub.hlstat.getLsbD 9 && s.hub.hostMapped

/-- The firmware clears EN and CONS of the queues that are listed in memory, behind the host's answers (R76, R79). -/
def State.writeQueues (s : State) : State :=
  (((s.mem.filter (fun p => p.1 < 0x10000)).map (fun p => p.1 / 64)).eraseDups).foldl (fun s q =>
    (s.firmwareWrite (descriptor q + 0x11) [s.byteNow (descriptor q + 0x11) &&& 0xFE]).firmwareWrite (descriptor q + 0x14) (bytesOfNat 4 0)) s

/-- FUNCTION_LEVEL_RESET (R72, R76, R79): HBM contents and their patrol are kept, the restoration logs are not; steps 6 to 8
follow. -/
def execFunctionLevelReset (s : State) : Answer :=
  let t : State := { s with
    issue := State.reset.issue
    agenda := s.agenda.filter (fun e => match e.2 with | .ualinkTrainingTimeout _ => true | .hbmPatrolRead .. => true | _ => false)
    cores := Vector.ofFn (fun c : Fin 8 => (s.core c).afterReset)
    mem := if s.tableHeld then s.mem else clearQueues s.mem
    log := []
    homes := Vector.ofFn (fun c : Fin 8 => { s.home c with hecnt := 0, hestat := 0, headdr := 0, invalidating := [], held := [], snapLines := [], chkLines := [], snoops := [] })
    hub := s.hub.afterFlr
    tasks := [] }
  .next (if s.tableHeld then t.writeQueues else t)

/-- RECOVERY_IMAGE_LOAD (R402). -/
def execRecoveryImageLoad (image : FirmwareImage) (s : State) : Answer :=
  if s.hub.bootstat.getLsbD 5 then .next (s.updHub (fun h => { h with flash := image :: h.flash })) else .next s

/-- The values that the configuration record holds, in the order of its fields (R406). -/
def ConfigRecord.values (r : ConfigRecord) : List Nat :=
  [r.valid.toNat, r.podDevice.toNat, r.pod.toNat, r.epoch, r.revision.toNat, r.barSize, r.requireSignatures.toNat, r.thi, r.tlo, r.ttrip,
    r.floorBudget, r.minSecurity] ++ r.keys.flatMap (fun k => k.length :: k.map (·.toNat)) ++
    r.rails.toList.flatMap (fun p => [p.1, p.2.getD 0])

/-- What an attestation report gives the digests of: the boot ROM, the firmware image, the configuration record and the sparing
record (R405). -/
def State.attested (s : State) : List (List Byte) :=
  [Config.bootRom, (s.hub.image.map (·.body)).getD [], Config.recordBytes s.hub.config.values,
    Config.recordBytes (s.hub.sparingValid.toNat :: allCores.map (fun c => (s.core c).failedDies.toNat))]

/-- ATTESTATION_REQUEST (R405): digests of the boot ROM, the firmware image, the configuration record and the sparing
record, the nonce, and BOOTSTAT, with their signature. -/
def execAttestationRequest (nonce : BitVec 256) (s : State) : Answer :=
  let body := (s.attested.flatMap (fun b => bytesOfNat 64 (Config.digest b).toNat)) ++
    bytesOfNat 32 nonce.toNat ++ bytesOfNat 8 s.hub.bootstat.toNat
  .next (s.updHub (fun h => { h with report := body ++ bytesOfNat 29792 (Config.sign body).toNat }))

/-! ### Power and heat (R394, R396, R399 to R401) -/

/-- The budget in force changes (R396, R399, R400). -/
def State.setBudget (s : State) (watts : Nat) (floor : Bool) : State :=
  let v : Word := BitVec.ofNat 64 (watts % 4096) ||| (if floor then 0x1000 else 0)
  let s1 := s.updHub (fun h => { h with pwrstat := v })
  if getBits s.hub.pwrstat 0 12 = watts % 4096 then s1
  else allCores.foldl (fun s c => s.updCore c (fun k => { k with balance := 131072 })) s1

/-- A message is valid and newer than the last one accepted (R399, R400). -/
def messageOk (last msg : Word) : Bool :=
  getBits msg 44 16 ≠ 0 && getBits msg 60 4 = 0 && (last = 0 || serialAhead (msg.setWidth 32) (last.setWidth 32))

/-- Clamp(WATTS, 600, 2800) (R400). -/
def clampWatts (w : Nat) : Nat := Nat.max 600 (Nat.min 2800 w)

/-- POWER_BUDGET_MESSAGE (R399, R400). -/
def execPowerBudgetMessage (msg : Word) (s : State) : Answer :=
  if messageOk s.hub.pwrlast msg then
    let us := 1000 * getBits msg 44 16
    .next ((((s.setBudget (clampWatts (getBits msg 32 12)) false).updHub (fun h =>
      { h with pwrlast := msg, lease := some (s.now + 1600 * us) })).cancelEvent .powerLeaseExpiry).afterN (1600 * us) .powerLeaseExpiry)
  else .next s

/-- POWER_LEASE_EXPIRY (R400). -/
def execPowerLeaseExpiry (s : State) : Answer :=
  match s.hub.lease with
  | none => .next s
  | some t =>
    if t ≤ s.now then .next ((s.setBudget s.hub.settings.floorBudget true).updHub (fun h => { h with lease := none }))
    else .next s

/-- BUDGET_TICK (R396, R401): RATE, SLEW and FLOOR as the firmware converts the budget (assumption 26). -/
def execBudgetTick (s : State) : Answer :=
  let b := getBits s.hub.pwrstat 0 12
  .next (allCores.foldl (fun s c => s.updCore c (fun k =>
    { k with rate := Nat.max 16 (Nat.min 2048 (Config.budgetRate b c.val))
             slew := Nat.max 128 (Nat.min 2048 (Config.budgetSlew b c.val))
             thr := putBits k.thr 12 4 ((Config.budgetFloor b c.val).setWidth 64) })) s)

/-- The regulator's thermal step for a reading, and whether THERM is set (R394). -/
def thermalRule (cfg : ConfigRecord) (old h : Nat) : Nat × Bool :=
  if cfg.ttrip ≤ h then (15, true)
  else if cfg.thi ≤ h then (Nat.min 15 (old + 1), old < 15)
  else if cfg.tlo ≤ h then (old, false)
  else (old - 1, false)

/-- The regulator sets its step, never below the effective floor (R394, R398). -/
def Core.regulate (k : Core) (cfg : ConfigRecord) (h : Nat) : Core :=
  let r := thermalRule cfg k.thermalStep h
  let floor := Nat.max (getBits k.thr 12 4) (getBits k.thr 16 4)
  let k1 := if r.2 then k.reason 0x10 else k
  { k1 with
    thermalStep := r.1, thr := putBits k1.thr 0 4 (BitVec.ofNat 64 (Nat.max r.1 floor)), evaluated := true
    floors := (getBits k.thr 12 4, getBits k.thr 16 4)
    tooHot := k.tooHot && cfg.tlo ≤ h }

/-- REGULATOR_EVALUATE (R394): in a cycle with ctl.cyc mod 1,024 = 0; at other times the reading is only noted. -/
def execRegulatorEvaluate (c : CoreId) (hottest : Nat) (s : State) : Answer :=
  let k := s.core c
  let cfg := s.hub.settings
  if k.evaluated || k.cyc.toNat % 1024 ≠ 0 then .next (s.updCore c (fun k => { k with sensor := hottest }))
  else
    let s1 := s.updCore c (fun k => { k.regulate cfg hottest with sensor := hottest })
    if cfg.ttrip ≤ hottest then
      let s2 := s1.msix 0
      match k.tripSince with
      | some _ => .next s2
      | none => .next ((s2.updCore c (fun k => { k with tripSince := some s.now })).afterN 16000000 (.thermalTripTimeout c))
    else .next (((s1.updCore c (fun k => { k with tripSince := none })).cancelEvent (.thermalTripTimeout c)).reconsider)

/-- THERMAL_TRIP_TIMEOUT (R394): every task on the core ends, and none is placed until it has cooled. -/
def execThermalTripTimeout (c : CoreId) (s : State) : Answer :=
  let k := s.core c
  match k.tripSince with
  | none => .next s
  | some t =>
    if s.now < t + 16000000 then .next s
    else
      let s1 := s.updCore c (fun k => { k with tooHot := true })
      let here := s.tasks.filter (fun q => q.cores.contains c && (q.state = .running || q.state = .staged || q.state = .draining) && q.ended.isNone)
      .next (here.foldl (fun s q => s.after (.taskEnd q.key 0 c false)) s1)

/-! ### The host port (R75, R79, R85, R86) -/

/-- HOST_LINK_STATE_CHANGE (R75, R86, R88, R402): in recovery mode and after a failed step the link trains at 32 GT/s alone. -/
def execHostLinkStateChange (rate width : BitVec 3) (io cache memory lzp : Bool) (s : State) : Answer :=
  if rate = 0 || 3 < rate.toNat || 3 < width.toNat || (s.hub.minimal && rate ≠ 1) then .next s
  else
    let v : Word := rate.setWidth 64 ||| (width.setWidth 64 <<< 3) ||| 0x40 ||| (if io then 0x80 else 0) ||| (if cache then 0x100 else 0) |||
      (if memory then 0x200 else 0) ||| (if lzp then 0x400 else 0)
    let s1 := s.updHub (fun h => { h with hlstat := (h.hlstat &&& ~~~0x7FF) ||| v })
    .next (if width = 0 && !s.hub.devstat.getLsbD 0 then s1.msix 0 else s1.tryOpen)

/-- HOST_LINK_DOWN (R81, R86). -/
def execHostLinkDown (s : State) : Answer :=
  if getBits s.hub.hlstat 0 3 = 0 then .next s
  else .next ((s.updHub (fun h => { h with hlstat := (h.hlstat &&& ~~~0x7FF) ||| 0x800 })).msix 0)

/-- LINK_REPLAY (R86, R87, R366). -/
def execLinkReplay (port : Option Nat) (s : State) : Answer :=
  match port with
  | none => .next (s.updHub (fun h => { h with hlstat := satAdd h.hlstat 16 16 1 }))
  | some p =>
    if hp : p < 18 then .next (s.updHub (fun h => { h with ulstat := h.ulstat.set p (satAdd h.ulstat[p] 32 16 1) hp }))
    else .next s

/-- The host reaches an address range of package memory (R78, R79). -/
def State.hostReach (s : State) (addr len : Nat) : Bool :=
  s.hub.hostMapped && getBits s.hub.hlstat 0 3 ≠ 0 && addr + len ≤ s.hub.settings.barSize

/-- An address range of host memory, by its IA in the host window, or of another device's memory, by its IA in a peer window:
its owner may write there at any time (R305). -/
def State.foreign (s : State) (addr len : Nat) : Bool :=
  oneRegion addr len && s.place addr = addr &&
    (match regionOf addr with
     | .host => true
     | .peerPkg _ => true
     | .peerSlice _ _ => true
     | _ => false)

/-- The aligned 8-byte units in which an access of the host is applied or served: first byte and length of each (R408). -/
def hostUnits (addr len : Nat) : List (Nat × Nat) :=
  (List.range ((addr + len + 7) / 8 - addr / 8)).map (fun i =>
    let lo := Nat.max addr (8 * (addr / 8 + i))
    (lo, Nat.min (addr + len) (8 * (addr / 8 + i) + 8) - lo))

/-- HOST_MEMORY_WRITE (R79, R305, R408): the host writes the host-visible range, at once, in the way an atomic does; it, or
another device, writes its own memory. A write wider than a unit of 8 bytes is applied unit by unit, in no promised order. What
a host access outside the mapped range does R79 leaves open: that a write there
is dropped is the model's choice (assumption 74). -/
def execHostMemoryWrite (addr : Nat) (data : List Byte) (s : State) : Answer :=
  if (s.hostReach addr data.length || s.foreign addr data.length) && 1 < (hostUnits addr data.length).length then
    .next ((hostUnits addr data.length).foldl (fun s u => s.after (.hostMemoryWrite u.1 ((data.drop (u.1 - addr)).take u.2))) s)
  else if s.hostReach addr data.length then .next (s.agentWrite Writer.outside (atAddr addr data) false)
  else if s.foreign addr data.length then .next (s.applyWrite Writer.outside (atAddr addr data))
  else .next s

/-- The reply to a read of the host whose units have all been read (R73, R408): a poisoned completion carries bytes 0xFF. -/
def Hub.reply (h : Hub) (q : HostAsk) : Hub :=
  let parts := (hostUnits q.addr q.len).map (fun u => (aget q.got u.1).getD none)
  let bad := parts.any (·.isNone)
  { h with hostAsk := none, hostPoison := bad, hostReply := if bad then List.replicate q.len 0xFF else parts.flatMap (·.getD []) }

/-- The homes serve one unit of a read of the host, from one state of it (R71, R408): of several, a free one is next. -/
def State.readUnit (s : State) (q : HostAsk) : State :=
  let left := (hostUnits q.addr q.len).filter (fun u => (aget q.got u.1).isNone)
  match left[if left.length ≤ 1 then 0 else (Config.freeWord s.free).toNat % left.length]? with
  | none => s.updHub (fun h => h.reply q)
  | some u =>
    let s1 := s.serveOutside (addrs u.1 u.2)
    let v := if (s1.firstPoison (addrs u.1 u.2)).isSome then none else some ((addrs u.1 u.2).map s1.byteNow)
    let r := { q with got := q.got ++ [(u.1, v)] }
    if left.length ≤ 1 then s1.updHub (fun h => h.reply r)
    else (s1.drawFree.updHub (fun h => { h with hostAsk := some r })).after (.hostMemoryRead q.addr q.len)

/-- A read of the host is the one whose units are being read. -/
def HostAsk.is (q : HostAsk) (addr len : Nat) : Bool := q.addr = addr && q.len = len

/-- HOST_MEMORY_READ (R71, R73, R79, R408): the units of a wide read are read one by one, in no promised order. A read outside the
mapped range leaves the reply as it was (assumption 74). -/
def execHostMemoryRead (addr len : Nat) (s : State) : Answer :=
  if !s.hostReach addr len then
    .next (if s.hub.hostAsk.any (fun q => q.is addr len) then s.updHub (fun h => { h with hostAsk := none }) else s)
  else
    match s.hub.hostAsk with
    | some q => .next (if q.is addr len then s.readUnit q else s.afterN 1 (.hostMemoryRead addr len))
    | none => .next (s.readUnit { addr := addr, len := len, got := [] })

/-- An operation has waited 50 ms for its link: it fails (R75, R85). -/
def State.timeOutOp (s : State) (c : CoreId) (id : Nat) (on : List Nat → Bool) (drop : Op → State → State) : State :=
  match (s.core c).opBank id with
  | some (_, _, o) => if o.sentAt + accessLimit ≤ s.now && on o.kind.addrs then s.failOp c id (drop o) else s
  | none => s

/-- A job, a collective or a poll of a core has waited 50 ms for its link: it fails (R85, R97, R315, R389). -/
def State.timeOutOther (s : State) (c : CoreId) (id : Nat) (peer : Bool) (e : Instr) : State :=
  match s.findJob c id with
  | some (_, j) => if j.kind.needsEngine then s.timeOutJob c id peer e else s.timeOutRank c id peer
  | none => (s.failPoll c false id).failPoll c true id

/-- HOST_COMPLETION_TIMEOUT (R75, R85, R97): an access over the host port has waited 50 ms. -/
def execHostCompletionTimeout (c : CoreId) (id : Nat) (s : State) : Answer :=
  match (s.core c).opBank id with
  | some _ => .next (s.timeOutOp c id onHost (fun _ s => s.updHub (fun h => { h with hlstat := satAdd h.hlstat 32 16 1 })))
  | none => .next (s.timeOutOther c id false (.hostCompletionTimeout c id))

/-! ### UALink (R84, R85, R87, R88) -/

/-- PEER_ACCESS_TIMEOUT (R84, R85, R97): an access to a peer has waited 50 ms; the requests of a write are counted at their
ports. -/
def execPeerAccessTimeout (c : CoreId) (id : Nat) (s : State) : Answer :=
  match (s.core c).opBank id with
  | some _ => .next (s.timeOutOp c id onPeer (fun o s => o.ports.foldl (fun s p => s.dropRequest p.2) s))
  | none => .next (s.timeOutOther c id true (.peerAccessTimeout c id))

/-- Bytes and place of a peer's request. -/
def peerExtent : PeerReq → Nat × Nat
  | .read off len => (off, len)
  | .write off data => (off, data.length)
  | .atom off _ wide _ => (off, if wide then 8 else 4)
  | .cas off wide _ _ => (off, if wide then 8 else 4)

/-- A request that UALink carries (R84). -/
def peerOk (r : PeerReq) : Bool :=
  let e := peerExtent r
  1 ≤ e.2 && e.2 ≤ 256 && e.1 / 256 = (e.1 + e.2 - 1) / 256 &&
    (match r with
     | .atom off _ wide _ => off % (if wide then 8 else 4) = 0
     | .cas off wide _ _ => off % (if wide then 8 else 4) = 0
     | _ => true)

/-- Give a peer its bytes. -/
def State.peerAnswer (s : State) (b : List Byte) : State := s.updHub (fun h => { h with peerReply := b })

/-- An atomic of a peer at a home or bank (R84, R204 to R206). -/
def State.peerAtomic (s : State) (ia n : Nat) (k : AtomKind) (b : Nat) : State :=
  let s1 := s.serveOutside (addrs ia n)
  if (s1.firstPoison (addrs ia n)).isSome then s1.peerAnswer []
  else
    let old := s1.wordNow ia n
    let s2 := match k.write (8 * n) old (b % 2 ^ (8 * n)) with
      | some v => s1.agentWrite Writer.outside (atAddr ia (bytesOfNat n v)) false
      | none => s1.snoopsUsed (addrs ia n)
    s2.peerAnswer (bytesOfNat n old)

/-- A request that may write waits until the host has answered for its lines (R79). -/
def peerWrites : PeerReq → Bool
  | .read .. => false
  | _ => true

/-- A request of a peer may act: the host has answered for what it writes, and the sub-banks of a slice are granted (R79, R121). -/
def State.peerReady (s : State) (port : Nat) (r : PeerReq) (as : List Nat) : State × Bool :=
  let w := if peerWrites r then s.writeReady (.peerAccessRequest port r) as else (s, true)
  if w.2 then w.1.hubTakes (.peerAccessRequest port r) as else w

/-- PEER_ACCESS_REQUEST (R53, R61, R66, R84, R121): at the newest value; an absent share or a hole gives nothing back. -/
def execPeerAccessRequest (port : Nat) (r : PeerReq) (s : State) : Answer :=
  let up := port < 18 && portState (s.hub.ulstat.toList.getD port 0) = 2
  match peerTarget (peerExtent r).1 with
  | none => .next (s.peerAnswer [])
  | some ia =>
    if !up || !peerOk r then .next s
    else if !oneRegion ia (peerExtent r).2 || !s.resident ia then .next ((s.noteWalks [ia]).peerAnswer [])
    else
      let w := s.peerReady port r (addrs ia (peerExtent r).2)
      if !w.2 then .next (w.1.afterN 1 (.peerAccessRequest port r))
      else
        match r with
        | .read _ len =>
          let s1 := w.1.serveOutside (addrs ia len)
          .next (s1.peerAnswer (if (s1.firstPoison (addrs ia len)).isSome then [] else (addrs ia len).map s1.byteNow))
        | .write _ data => .next (w.1.agentWrite Writer.outside (atAddr ia data) false)
        | .atom _ f wide b => .next (w.1.peerAtomic ia (if wide then 8 else 4) (.op f) b.toNat)
        | .cas _ wide e v => .next (w.1.peerAtomic ia (if wide then 8 else 4) (.cas e) v.toNat)

/-- UALINK_PORT_UP (R85, R87, R88). -/
def execUalinkPortUp (port device : Nat) (s : State) : Answer :=
  if device = s.hub.settings.podDevice.toNat then
    .next (((s.updPort port (fun u => putBits (putBits u 0 2 2) 16 10 (BitVec.ofNat 64 device))).updHub (fun h => h.settle port)).tryOpen)
  else .next s

/-- UALINK_PORT_DOWN (R81, R87). -/
def execUalinkPortDown (port : Nat) (s : State) : Answer :=
  if portState (s.hub.ulstat.toList.getD port 0) = 2 then .next ((s.updPort port (fun u => putBits u 0 2 0 ||| 8)).msix 0)
  else .next s

/-- UALINK_ID_MISMATCH (R81, R85, R88). -/
def execUalinkIdMismatch (port : Nat) (s : State) : Answer :=
  if port < 18 && portState (s.hub.ulstat.toList.getD port 0) ≠ 2 then
    .next ((((s.updPort port (fun u => putBits u 0 2 3 ||| 4)).updHub (fun h => h.settle port)).msix 0).tryOpen)
  else .next s

/-- UALINK_TRAINING_TIMEOUT (R88): no vector is raised. -/
def execUalinkTrainingTimeout (port : Nat) (s : State) : Answer :=
  if portState (s.hub.ulstat.toList.getD port 0) ≤ 1 && !s.hub.portSettled.getLsbD port then
    .next (((s.updPort port (fun u => putBits u 0 2 3)).updHub (fun h => h.settle port)).tryOpen)
  else .next s

/-! ### Die-to-die links (R11, R366) -/

/-- The base dies at the ends of a link (R11): the six row links, the four column links, the four hub links. -/
def linkEnds (l : Nat) : List CoreId :=
  [[0, 1], [1, 2], [2, 3], [4, 5], [5, 6], [6, 7], [0, 4], [1, 5], [2, 6], [3, 7], [1], [2], [5], [6]].getD l []

/-- D2D_PARITY_ERROR (R366): the word is resent; after 8 failed resends the link is marked failed. -/
def execD2dParityError (l : Nat) (s : State) : Answer :=
  if h : l < 14 then
    let n := s.hub.d2dResends[l] + 1
    let s1 := s.updHub (fun q => { q with d2dResends := q.d2dResends.set l n h })
    .next (if n = 9 then s1.after (.d2dLinkFailed l) else s1)
  else .next s

/-- D2D_LINK_FAILED (R81, R366): every task with a core on either end is rolled back. -/
def execD2dLinkFailed (l : Nat) (s : State) : Answer :=
  let s1 := (s.updHub (fun h => { h with d2dFailed := h.d2dFailed ||| BitVec.ofNat 14 (2 ^ l) })).msix 0
  let hit := s.tasks.filter (fun t => t.started && t.state ≠ .retired && t.ended.isNone && t.cores.any (fun c => (linkEnds l).contains c))
  .next (hit.foldl (fun s t => s.after (.rollback t.key)) s1)

end Sys2Proof.Machine
end

