-- ==== Sys2Proof/Machine/Events.lean ====
section
/-! DEFINITION. Register writes, soft errors, and the events of a stream (R4, R23, R40, R66, R338, R345, R352, R366). -/

namespace Sys2Proof.Machine

/-! ### Register writes (R4, R58, R96, R141, R162, R279, R287, R372, R410 to R412) -/

/-- SEED_WRITE (R141). -/
def execSeedWrite (c : CoreId) (sec : Bool) (v : Word) (s : State) : Answer := .next (s.ctlWrite c sec 0x009 v)

/-- TAGS_WRITE (R96). -/
def execTagsWrite (c : CoreId) (v : Word) (s : State) : Answer := .next (s.ctlWrite c false 0x0C0 v)

/-- CPERR_CLEAR (R96). -/
def execCperrClear (c : CoreId) (v : Word) (s : State) : Answer := .next (s.ctlWrite c false 0x0C1 v)

/-- RNSSTAT_WRITE (R287). -/
def execRnsstatWrite (c : CoreId) (v : Word) (s : State) : Answer := .next (s.ctlWrite c false 0x041 v)

/-- RNS_MODE_WRITE (R279). -/
def execRnsModeWrite (c : CoreId) (v : Word) (s : State) : Answer := .next (s.ctlWrite c false 0x040 v)

/-- WINDOW_WRITE (R55, R58). -/
def execWindowWrite (c : CoreId) (reg : BitVec 12) (v : Word) (s : State) : Answer :=
  if 0x100 ≤ reg.toNat ∧ reg.toNat ≤ 0x11F then .next (s.ctlWrite c false reg.toNat v) else .next s

/-- CHK_WRITE (R372). -/
def execChkWrite (c : CoreId) (v : Word) (s : State) : Answer := .next (s.ctlWrite c false 0x050 v)

/-- SPDIAG_WRITE (R410, R411). -/
def execSpdiagWrite (c : CoreId) (v : Word) (s : State) : Answer := .next (s.ctlWrite c false 0x0D2 v)

/-- RINJ_WRITE (R412). -/
def execRinjWrite (c : CoreId) (v : Word) (s : State) : Answer := .next (s.ctlWrite c false 0x042 v)

/-- STAT_WRITE (R162). -/
def execStatWrite (c : CoreId) (sec : Bool) (v : Word) (s : State) : Answer := .next (s.ctlWrite c sec 0x000 v)

/-- The value and the base of an access of 4 or 8 bytes to the 64-bit register that holds it. -/
def barValue (off size : Nat) (v : Word) : Word :=
  if size = 8 then v else if off % 8 = 4 then (v &&& 0xFFFFFFFF) <<< 32 else v &&& 0xFFFFFFFF

/-- The bit of a 64-bit word of the MSI-X table that masks its entry, where the word holds it (R80; assumption 75). -/
def maskBit (off : Nat) : Word := if off % 16 = 8 then 0x100000000 else 0

/-- A word of the MSI-X table (R80). -/
def Hub.msixWord (h : Hub) (off : Nat) : Word :=
  let v := BitVec.ofNat 64 (natOfBytes (Memory.bytes h.msixTable off 8))
  if h.msixMask.getLsbD (off / 16) then v ||| maskBit off else v

/-- A write to the MSI-X table (R80): the message of a pending vector is sent once it is no longer masked (assumption 75). -/
def Hub.writeMsix (h : Hub) (off size : Nat) (v : Word) : Hub :=
  let bit : Word := if size = 8 then maskBit off else if off % 16 = 12 then 1 else 0
  let h1 := { h with msixTable := Memory.putAll h.msixTable (atAddr off (bytesOfNat size (v &&& ~~~bit).toNat)) }
  let m := BitVec.ofNat 1040 (2 ^ (off / 16))
  if bit = 0 then h1
  else if v &&& bit ≠ 0 then { h1 with msixMask := h.msixMask ||| m }
  else { h1 with msixMask := h.msixMask &&& ~~~m, msixPending := h.msixPending &&& ~~~m }

/-- The 64-bit register of the control BAR at an offset that is a multiple of 8 (R80); 0 where none is listed, and in
PWRMSG, which is written only (R399). -/
def State.barReg (s : State) (base : Nat) : Word :=
  let home := s.home ⟨(base - 0x20000) / 0x100 % 8, Nat.mod_lt _ (by decide)⟩
  if base = 0 then s.hub.devstat
  else if base = 8 then s.hub.bootstat
  else if base = 0x10000 then s.hub.hlstat
  else if 0x10100 ≤ base && base < 0x10190 then s.hub.ulstat.toList.getD ((base - 0x10100) / 8) 0
  else if base = 0x10200 then s.hub.ulunrt
  else if 0x20000 ≤ base && base < 0x20800 then
    match base % 0x100 with
    | 0 => home.hecnt
    | 8 => home.hestat
    | 16 => home.headdr
    | _ => 0
  else if base = 0x30008 then s.hub.pwrstat
  else if base = 0x30010 then s.hub.pwrlast
  else if 0x100000 ≤ base && base < 0x100000 + 16640 then s.hub.msixWord (base - 0x100000)
  else if 0x110000 ≤ base && base < 0x110000 + 136 then s.hub.msixPending.extractLsb' (8 * (base - 0x110000)) 64
  else 0

/-- What a host read of the control BAR returns (R80): any size but 4 and 8 reads as all ones. R80 does not speak of an access of
4 or 8 bytes that is not aligned to its size: that it reads as all ones too, and is dropped on write, is the model's choice
(assumption 75). -/
def State.barRead (s : State) (off size : Nat) : Word :=
  if size = 8 && off % 8 = 0 then s.barReg off
  else if size = 4 && off % 4 = 0 then
    (if off % 8 = 4 then s.barReg (off - 4) >>> 32 else s.barReg off &&& 0xFFFFFFFF)
  else BitVec.allOnes 64

/-- A host write to the control BAR (R74, R80, R86, R87, R399): sticky bits clear on 1, PWRMSG takes a message from an
8-byte write, the MSI-X table keeps its bytes, and the rest is unchanged. An unaligned access is dropped (assumption 75). -/
def State.barWrite (s : State) (off size : Nat) (v : Word) : Answer :=
  let base := off / 8 * 8
  let w := barValue off size v
  if (size ≠ 4 && size ≠ 8) || off % size ≠ 0 then .next s
  else if off = 0x30000 && size = 8 then execPowerBudgetMessage v s
  else if base = 0x10000 then .next (s.updHub (fun h => { h with hlstat := rs h.hlstat w 0x800 }))
  else if 0x10100 ≤ base && base < 0x10190 then .next (s.updPort ((base - 0x10100) / 8) (fun u => rs u w 0xC))
  else if 0x20000 ≤ base && base < 0x20800 && base % 0x100 = 8 then
    .next (s.updHome ⟨(base - 0x20000) / 0x100 % 8, Nat.mod_lt _ (by decide)⟩ (fun m => { m with hestat := rs m.hestat w 0x1F }))
  else if 0x100000 ≤ off && off + size ≤ 0x100000 + 16640 then
    .next (s.updHub (fun h => h.writeMsix (off - 0x100000) size v))
  else .next s

/-- REGISTER_WRITE (R4). -/
def execRegisterWrite (t : RegTarget) (v : Word) (s : State) : Answer :=
  match t with
  | .ctl c sec reg => .next (s.ctlWrite c sec reg.toNat v)
  | .bar off size => s.barWrite off size v

/-! ### Soft errors (R72, R123, R366) -/

/-- Put a unit into a list without repeats. -/
def withUnit (l : List Nat) (u : Nat) : List Nat := u :: l.filter (· != u)

/-- A stored word is upset (R72, R123): by a single bit, or beyond correction; a second single bit is beyond correction too. -/
def State.strikeWord (s : State) (w : Nat) (fatal : Bool) : State :=
  if fatal || s.flips.contains w then { s with fatals := withUnit s.fatals w, flips := s.flips.filter (· != w) }
  else { s with flips := withUnit s.flips w }

/-- The patrol of a home reads every line of its stack once in 24 hours (R72): in cycles. -/
def dayCycles : Nat := 24 * 3600 * 1600000000

/-- One bit of n, the one that a free value names, is set: what an upset changes. -/
def upsetBit (n : Nat) (v : Word) : BitVec n := BitVec.ofNat n (2 ^ (v.toNat % n))

/-- The key in Ctx.accBad of the element of an accumulator that byte o of block b of its image lies in (R159). -/
def accKeyOf (n : BitVec 3) (b o : Nat) : Nat :=
  if n.toNat < 4 then 24576 * n.toNat + 256 * b + o / 4 else 98304 + (1024 * b + o) / 20

/-- A result in flight or latched for a register, a predicate or an accumulator is upset: its parity error comes to its
destination with it, and is found by what then reads that (R366). -/
def markLatch (l : List Landing) (r : BitVec 6) (v : Word) : List Landing :=
  l.flatMap (fun e =>
    match e.dest with
    | .scalar q x => if q = r then [{ e with dest := .scalar q (x ^^^ upsetBit 64 v) }, { e with dest := .badScalar q }] else [e]
    | .vec q m x n =>
      if q = r then [{ e with dest := .vec q m (x ^^^ upsetBit 8192 v) n }, { e with dest := .badVector q (v.toNat % 8192 / 64) n }]
      else [e]
    | .pred m x =>
      if r.toNat < 7 && m.getLsbD r.toNat then
        [{ e with dest := .pred m (x ^^^ BitVec.ofNat 7 (2 ^ r.toNat)) }, { e with dest := .badPred (BitVec.ofNat 7 (2 ^ r.toNat)) }]
      else [e]
    | .mask q m x =>
      if q.setWidth 6 = r then [{ e with dest := .mask q m (x ^^^ upsetBit 512 v) }, { e with dest := .badMask q (v.toNat % 512 / 64) }]
      else [e]
    | .streamWord n w x =>
      if n.setWidth 6 = r then [{ e with dest := .streamWord n w (x ^^^ upsetBit 64 v) }, { e with dest := .badStream n w }] else [e]
    | .accBlock n b x =>
      if n.setWidth 6 = r then
        [{ e with dest := .accBlock n b (x ^^^ upsetBit 8192 v) }, { e with dest := .badAcc (accKeyOf n b (v.toNat % 8192 / 8)) }]
      else [e]
    | _ => [e])

/-- SOFT_ERROR (R366): a stored bit is upset, which one is free (assumption 4), and the error waits for its check to
find it. Corrected errors leave the value. -/
def execSoftError (p : SoftError) (s : State) : Answer :=
  let v := s.freeVal
  match p with
  | .hbm addr fatal =>
    let u := addr / 8 * 8
    if pagedHere (regionOf (u % 2 ^ 52)) && u / 2 ^ 52 ≤ 8 then .next ((s.strikeWord u fatal).afterAtMost dayCycles (.hbmPatrolRead u))
    else .next s
  | .slice c word fatal =>
    if word % 8 = 0 ∧ word < sliceBytes then .next (s.strikeWord (sliceBase c.val + word) fatal)
    else .next s
  | .scalar c sec r =>
    if r = 0 then .next s
    else .next ((s.updStream c sec (fun x => { x.ws r (x.rs r ^^^ upsetBit 64 v) with badScalar := r :: x.badScalar.filter (· != r) })).drawFree)
  | .vector c r =>
    .next ((s.updCtx c (fun x => { x.wv r (BitVec.allOnes 8192) (x.rv r ^^^ upsetBit 8192 v) with badVector := (r, v.toNat % 8192 / 64) :: x.badVector.filter (· != (r, v.toNat % 8192 / 64)) })).drawFree)
  | .pred c sec n =>
    if n = 7 then .next s
    else .next (s.updStream c sec (fun x => { x with p := x.p ^^^ predBit n, badPred := x.badPred ||| predBit n }))
  | .mask c r =>
    if r = 0 then .next s
    else .next ((s.updCtx c (fun x =>
      { x.wm r (BitVec.allOnes 512) (x.rm r ^^^ upsetBit 512 v) with
        badMask := (r, v.toNat % 512 / 64) :: x.badMask.filter (· != (r, v.toNat % 512 / 64)) })).drawFree)
  | .streamReg c n =>
    let w := BitVec.ofNat 3 (v.toNat % 512 / 64)
    .next ((s.updCtx c (fun x =>
      { x.wstr n w (x.strWord n w ^^^ upsetBit 64 v) with badStream := (n, w) :: x.badStream.filter (· != (n, w)) })).drawFree)
  | .latch c sec r =>
    .next ((s.updStream c sec (fun x => { x with inflight := markLatch x.inflight r v, latches := markLatch x.latches r v })).drawFree)
  | .ring c sec place =>
    .next ((s.updStream c sec (fun x =>
      { x with ring := x.ring.set place.toNat (x.ring[place.toNat]'place.isLt ^^^ upsetBit 8192 v) place.isLt
               badRing := withUnit x.badRing place.toNat })).drawFree)
  | .acc c n e fatal =>
    if fatal && e < 24576 && n.toNat ≤ 4 then
      .next (s.updCtx c (fun x => { x with accBad := withUnit x.accBad (24576 * n.toNat + e) }))
    else .next s
  | .plane c cell v => .next (s.updCtx c (fun x => { x with plane := { x.plane with sums := tput 0 x.plane.sums cell v } }))

/-! ### The events of a stream -/

/-- RESULT_LANDING (R40): every result that is due lands, in issue order. -/
def execResultLanding (c : CoreId) (sec : Bool) (s : State) : Answer :=
  .next (s.updCtx c (fun x => x.landUpTo sec (x.stream sec).sc))

/-- A pause of the primary's feed in this cycle puts off an operation that is to enter in a later one (R247). -/
def TileOp.putOff (t : TileOp) (now : Nat) : TileOp := if !t.sec && now < t.ready then { t with ready := t.ready + 1 } else t

/-- MERGE_WAIT_LIMIT (R247, R338): the primary is held in this cycle. -/
def execMergeWaitLimit (c : CoreId) (s : State) : Answer :=
  if (s.stream c true).waitCount = 15 then
    .next (s.updCore c (fun k => { k with primHeld := true, ctx := { k.ctx with tiles := k.ctx.tiles.map (fun t => t.putOff s.now) } }))
  else .next s

/-- Where a pending trap finds a stream (R345, R352): none where it cannot be taken now; else the bundle, WT, and the
stream cycle of that bundle. -/
def Stream.trapPlace (x : Stream) (copying : Bool) : Option (BitVec 59 × Bool × Nat) :=
  if !x.live || x.pending = [] || x.hnd || x.idle ≠ 0 || x.asking.isSome then none
  else
    match x.wait with
    | .counters .. => some (x.ipc, true, x.sc - 1)
    | .tags .. => some (x.ipc, true, x.sc - 1)
    | .yield .. => some (x.ipc, false, x.sc - 1)
    | .none =>
      match x.hold with
      | .phase _ _ _ (some _) => none
      | .phase _ _ true none => if copying then none else some (x.pc, false, x.sc)
      | _ => some (x.pc, false, x.sc)
    | _ => none

/-- DEFERRED_TRAP_TAKE (R345, R352): the pending trap reported first is taken. -/
def execDeferredTrapTake (c : CoreId) (sec : Bool) (s : State) : Answer :=
  match (s.stream c sec).trapPlace (s.copyingOf c ≠ 0), (s.stream c sec).pending with
  | some (p, wt, t), q :: r =>
    .next ((s.updStream c sec (fun x => { x with pending := r })).enterTrap c sec q p true wt 0 t)
  | _, _ => .next s

/-- ILLEGAL_ENCODING (R23, R25): cause 0x01 at the bundle, and no slot takes effect. -/
def execIllegalEncoding (slot : BitVec 3) (word : SlotWord) (s : State) : Answer :=
  .next (s.raise { cause := 0x01, tval := word ++ (0#29 ++ slot) })

end Sys2Proof.Machine
end

