-- ==== Sys2Proof/Machine/Hazard.lean ====
section
/-! DEFINITION. The registers that an instruction reads and writes, the scoreboard of interlocked mode (R39, R158),
and the parity checks of the register files and the ring (R366). -/

namespace Sys2Proof.Machine

/-- A register that the scoreboard follows. -/
inductive Reg where
  | s (r : BitVec 6)
  | p (n : BitVec 3)
  | v (r : BitVec 6)
  | m (n : BitVec 3)
  | str (n : BitVec 4)
  | acc (n : BitVec 3)
  /-- The ring entry pushed k + 1 pushes before the bundle (R158). -/
  | tap (k : Nat)
deriving DecidableEq, Repr

/-- What an operand code reads (R30). -/
def codeReg (c : BitVec 7) : List Reg :=
  if c.toNat < 64 then [.v (c.setWidth 6)] else if c.toNat < 72 then [.tap (c.toNat - 64)] else []

/-- The registers of a group of n (R29). -/
def groupRegs (sg : BitVec 6) (n : Nat) : List Reg := (List.range n).map (fun i => .s (sg + BitVec.ofNat 6 i))

/-- The predicates p0 to p6. -/
def allPreds : List Reg := [.p 0, .p 1, .p 2, .p 3, .p 4, .p 5, .p 6]

/-- What a stream that starts the secondary copies: s1 to s63 and p0 to p6 (R340). -/
def startRegs : List Reg := (List.range 63).map (fun i => .s (BitVec.ofNat 6 (i + 1))) ++ allPreds

/-- The registers that an instruction reads. -/
def readsOf (i : Instr) : List Reg :=
  match i with
  | .br p _ _ | .call p _ _ => [.p p]
  | .ret p _ => [.p p, .s 62]
  | .strtHdr _ => startRegs
  | .strtReg _ a => .s a :: startRegs
  | .jind _ a | .loop _ a _ | .domj _ a _ _ | .trap a _ | .wrctl a _ => [.s a]
  | .waitt _ a b _ | .waitany _ a b _ | .waddr _ a b _ | .range _ a b _ _ _ | .swprep _ a b => [.s a, .s b]
  | .add _ a b _ _ | .sub _ a b _ _ | .mul _ a b _ | .mulh _ a b _ | .and _ a b | .or _ a b | .xor _ a b | .andn _ a b
  | .shl _ a b _ | .shr _ a b _ | .sar _ a b _ | .min _ a b | .max _ a b | .minu _ a b | .maxu _ a b | .cmp _ _ a b _
  | .lea _ a b _ | .chks a b => [.s a, .s b]
  | .addi _ a _ | .shi _ a _ _ _ | .clz _ a _ | .popc _ a _ | .cmpi _ _ a _ | .bfx _ a _ _ _ | .pmovSet _ a | .pmovUnpk a
  | .tfirst _ a _ | .stset a _ _ => [.s a]
  | .sSel _ a b _ n => [.s a, .s b, .p n]
  | .movhi d _ _ => [.s d]
  | .bfi d a _ _ => [.s d, .s a]
  | .plog _ _ _ a _ b => [.p a, .p b]
  | .pmovPack _ => allPreds
  | .stget _ _ n => [.str n]
  | .ld _ base _ _ _ | .ldg _ base _ _ _ => [.s base]
  | .st d base _ _ _ | .stg d base _ _ _ | .stnt d base _ _ _ => [.s d, .s base]
  | .ldv _ base _ m _ _ => [.s base, .m m]
  | .ldvs _ base _ m _ k => [.s base, .m m, .s k]
  | .stv d base _ m _ _ => [.v d, .s base, .m m]
  | .stvs d base _ m _ k => [.v d, .s base, .m m, .s k]
  | .atom _ a b _ _ _ => [.s a, .s b]
  | .cas d a b _ _ => [.s d, .s a, .s b]
  | .pgreq _ a b _ => [.s a, .s b]
  | .fadd _ a b m _ | .fsub _ a b m _ | .fmul _ a b m _ | .fmin _ a b m _ _ | .fmax _ a b m _ _ | .fcmp _ _ a b m _
  | .fscl _ a b m _ | .iadd _ a b m _ _ | .isub _ a b m _ _ | .imul _ a b m _ _ | .iand _ a b m _ | .ior _ a b m _
  | .ixor _ a b m _ | .ishl _ a b m _ | .ishr _ a b m _ | .isar _ a b m _ | .imin _ a b m _ _ | .imax _ a b m _ _
  | .icmp _ _ a b m _ | .vSel _ a b m _ | .pack _ a b m _ | .chkv a b m _ => codeReg a ++ codeReg b ++ [.m m]
  | .fma _ a b c _ | .fms _ a b c _ | .fnma _ a b c _ | .imad _ a b c _ | .modmul _ a b c _ =>
    codeReg a ++ codeReg b ++ [.v (c.setWidth 6)]
  | .fabs _ a _ m | .fneg _ a _ m | .fclass _ a _ m | .mov _ a _ m | .mxqScale _ a m | .mxqElem _ a _ m | .xpnd _ a _ m _
  | .unpk _ a _ m _ | .rcp _ a _ _ m | .rsq _ a _ _ m | .exp2 _ a _ _ m | .log2 _ a _ _ m | .sigm _ a _ _ m | .tanh _ a _ _ m
  | .red _ a _ _ m _ | .resf _ a _ m _ => codeReg a ++ [.m m]
  | .resx _ a m _ => codeReg a ++ codeReg (a + 1) ++ [.m m]
  | .cvt _ a _ _ _ _ => codeReg a
  | .bcast _ r _ => [.s r]
  | .xcl _ a _ _ | .perm _ a _ _ _ | .vext _ a _ _ => [.v a]
  | .accrd _ r _ n => [.s r, .acc n]
  | .accwr v r _ _ => [.v v, .s r]
  | .rngv _ _ m => [.m m]
  | .msk _ a b f => if f.toNat = 5 then codeReg a else if f.toNat = 4 then [.m (a.setWidth 3)] else [.m (a.setWidth 3), .m (b.setWidth 3)]
  | .slc _ r _ v => [.s r, .v v]
  | .mma _ a b sg _ _ _ _ | .mmi a b sg _ _ _ _ | .xdot a b sg _ _ _ _ => groupRegs sg 4 ++ [.str a, .str b]
  | .mmaHold _ a sg _ _ _ _ => groupRegs sg 4 ++ [.str a]
  | .mmz b sg _ _ _ => groupRegs sg 4 ++ [.str b]
  | .mdrn t a _ _ _ _ _ _ => [.str t, .s a]
  | .xfin t a _ _ => .str t :: groupRegs a 3
  | .cpy _ sg _ _ _ _ | .cpyd _ sg _ _ _ _ | .cpys _ sg _ _ _ _ | .ctab _ sg _ _ | .colj _ sg _ _ _ _ => groupRegs sg 4
  | .ewr _ a _ | .tclr _ a => [.s a]
  | _ => []

/-- The registers that an instruction writes. -/
def writesOf (i : Instr) : List Reg :=
  match i with
  | .call _ _ _ => [.s 62]
  | .jind d _ | .waitt d _ _ _ | .waitany d _ _ _ | .phase d _ | .waddr d _ _ _ | .strtHdr d | .strtReg d _ | .yieldCore d _
  | .domj d _ _ _ | .rdctl d _ | .range d _ _ _ _ _ | .swprep d _ _ | .swap d | .chkpt d _ => [.s d]
  | .add d _ _ _ _ | .sub d _ _ _ _ | .addi d _ _ | .mul d _ _ _ | .mulh d _ _ _ | .and d _ _ | .or d _ _ | .xor d _ _
  | .andn d _ _ | .shl d _ _ _ | .shr d _ _ _ | .sar d _ _ _ | .shi d _ _ _ _ | .clz d _ _ | .popc d _ _ | .min d _ _
  | .max d _ _ | .minu d _ _ | .maxu d _ _ | .sSel d _ _ _ _ | .movi d _ | .movhi d _ _ | .lea d _ _ _ | .bfx d _ _ _ _
  | .bfi d _ _ _ | .pmovPack d | .rdsys d _ | .tfirst d _ _ | .stget d _ _ => [.s d]
  | .cmp p _ _ _ _ | .cmpi p _ _ _ | .plog p _ _ _ _ _ | .pmovSet p _ => [.p p]
  | .pmovUnpk _ => allPreds
  | .stset _ _ n => [.str n]
  | .ld d _ _ _ _ | .ldg d _ _ _ _ | .atom d _ _ _ _ _ | .cas d _ _ _ _ | .pgreq d _ _ _ => [.s d]
  | .ldv d _ _ m _ _ | .ldvs d _ _ m _ _ => [.v d, .m m]
  | .fadd d _ _ _ _ | .fsub d _ _ _ _ | .fmul d _ _ _ _ | .fmin d _ _ _ _ _ | .fmax d _ _ _ _ _ | .fscl d _ _ _ _
  | .iadd d _ _ _ _ _ | .isub d _ _ _ _ _ | .imul d _ _ _ _ _ | .iand d _ _ _ _ | .ior d _ _ _ _ | .ixor d _ _ _ _
  | .ishl d _ _ _ _ | .ishr d _ _ _ _ | .isar d _ _ _ _ | .imin d _ _ _ _ _ | .imax d _ _ _ _ _ | .vSel d _ _ _ _
  | .pack d _ _ _ _ | .fma d _ _ _ _ | .fms d _ _ _ _ | .fnma d _ _ _ _ | .imad d _ _ _ _ | .modmul d _ _ _ _
  | .fabs d _ _ _ | .fneg d _ _ _ | .fclass d _ _ _ | .mov d _ _ _ | .mxqScale d _ _ | .mxqElem d _ _ _ | .xpnd d _ _ _ _
  | .unpk d _ _ _ _ | .rcp d _ _ _ _ | .rsq d _ _ _ _ | .exp2 d _ _ _ _ | .log2 d _ _ _ _ | .sigm d _ _ _ _ | .tanh d _ _ _ _
  | .red d _ _ _ _ _ | .resf d _ _ _ _ | .resx d _ _ _ | .cvt d _ _ _ _ _ | .bcast d _ _ | .vimm d _ _ | .xcl d _ _ _
  | .perm d _ _ _ _ | .accrd d _ _ _ | .rngv d _ _ | .slc d _ _ _ => [.v d]
  | .fcmp _ k _ _ _ _ | .icmp _ k _ _ _ _ | .msk k _ _ _ => [.m k]
  | .vext d _ _ _ => [.s d]
  | .accwr _ _ _ n => [.acc n]
  | .mholdChk d | .morgRd d | .mgang d _ | .mstat d _ _ | .tclr d _ | .canj d _ => [.s d]
  | .mma _ a b _ _ _ adv _ | .mmi a b _ _ _ adv _ | .xdot a b _ _ _ adv _ => if adv then [.str a, .str b] else []
  | .mmaHold _ a _ _ _ adv _ | .mdrn a _ _ _ adv _ _ _ | .xfin a _ adv _ => if adv then [.str a] else []
  | .mmz b _ _ _ adv => if adv then [.str b] else []
  | _ => []

/-- s0, m0 and p7 are constant and never waited for (R154, R165). -/
def Reg.constant (r : Reg) : Bool := r == .s 0 || r == .m 0 || r == .p 7

/-- A result in flight is due for a register (R39, R158). -/
def Dest.hits (d : Dest) (pushes : Nat) (r : Reg) : Bool :=
  match d, r with
  | .scalar a _, .s b => a == b
  | .pred pm _, .p n => pm.getLsbD n.toNat
  | .vec a _ _ _, .v b => a == b
  | .vec _ _ _ (some n), .tap k => n + k + 1 == pushes
  | .ringZero n, .tap k => n + k + 1 == pushes
  | .mask a _ _, .m b => a == b
  | .accBlock a _ _, .acc b => a == b
  | .streamWord a _ _, .str b => a == b
  | _, _ => false

/-- Counter-tracked work has a register as its destination (R39, R191). -/
def OpKind.hits (k : OpKind) (r : Reg) : Bool :=
  match k, r with
  | .load d _ _ _ _, .s b => d == b
  | .vload d _, .v b => d == b
  | .vload _ a, .m b => a.mask == b
  | .atomic d _ _ _ _ _ _, .s b => d == b
  | .page d _ _, .s b => d == b
  | _, _ => false

/-- The scoreboard stalls a bundle: a source or a destination of it is not free (R39, R158). -/
def Stream.stalled (x : Stream) (is : List Instr) : Bool :=
  ((is.flatMap (fun i => readsOf i ++ writesOf i)).filter (fun r => !r.constant)).any (fun r =>
    x.inflight.any (fun l => l.dest.hits x.pushes r) || x.ops.any (fun o => o.kind.hits r))

/-- The parity errors that the sources of a bundle meet: what ctl.tval holds for each (R366). A ring entry has no
register number, and its record is free (assumption 4). -/
def Ctx.parity (x : Ctx) (sec : Bool) (is : List Instr) (free : Word) : List Word :=
  let y := x.stream sec
  (is.flatMap readsOf).filterMap (fun r =>
    match r with
    | .s n => if y.badScalar.contains n then some (n.setWidth 64) else none
    | .p n => if n ≠ 7 && y.badPred.getLsbD n.toNat then some (n.setWidth 64) else none
    | .m n => if x.badMask.any (fun b => b.1 == n) then some (n.setWidth 64) else none
    | .str n => if x.badStream.any (fun b => b.1 == n) then some (n.setWidth 64) else none
    | .v n => if x.badVector.any (fun b => b.1 == n) then some (n.setWidth 64) else none
    | .tap k => if y.badRing.contains ((y.pushes + 15 - k) % 8) then some free else none
    | _ => none)

end Sys2Proof.Machine
end

