-- ==== Sys2Proof/Machine/Fetch.lean ====
section
/-! DEFINITION. The fetch of a stream's next bundle (R20, R23, R57, R66, R67, R73, R182, R303). -/

namespace Sys2Proof.Machine

/-- Where the next bundle of a stream lies, or why it cannot be fetched. -/
inductive FetchPlace where
  /-- At an IA, in a window with these attributes. -/
  | at_ (ia : Nat) (attr : BitVec 6)
  /-- Its share is not confirmed: the share, and the window's Z (R67). -/
  | ask (share : Nat) (z : Bool)
  /-- A trap at the bundle (R57, R66). -/
  | fault (t : TrapReq)
deriving DecidableEq, Repr

/-- Translate the next bundle's address and find its share (R57, R66, R67). -/
def State.fetchPlace (s : State) (c : CoreId) (sec : Bool) : FetchPlace :=
  let y := s.stream c sec
  let va := y.pcWord
  match translate (s.ctx c).win va 32 .fetch with
  | none => .fault { cause := 0x0F, tval := va }
  | some (ia, attr) =>
    let sh := shareOf ia
    if !logged (regionOf ia) || (s.core c).holds sh then .at_ ia attr
    else
      match aget y.answers sh with
      | some true => .at_ ia attr
      | some false => .fault { cause := 0x04, tval := va }
      | none => .ask sh (attrZ attr)

/-- The bytes of the next bundle are on their way over a link, have arrived, or have failed to in time (R85). -/
inductive FetchLink where
  | coming | here | failed
deriving DecidableEq, Repr

/-- How far a fetch at an IA is (R85): over a link it takes a request of its own. -/
def State.fetchLink (s : State) (c : CoreId) (sec : Bool) (ia : Nat) : FetchLink :=
  let y := s.stream c sec
  if !(onHost [ia] || onPeer [ia]) || !s.linkUp (regionOf ia) then .here
  else
    match y.fetching.filter (fun q => q.pc = y.pc) with
    | some q => if s.now < q.due then .coming else if q.failed then .failed else .here
    | none => .coming

/-- The fetch of the next bundle goes out over its link, once (R85): its time is not promised, and at 50 ms it fails. -/
def State.sendFetch (s : State) (c : CoreId) (sec : Bool) : State :=
  let y := s.stream c sec
  if y.fetching.any (fun q => q.pc = y.pc) then s
  else
    let t := Nat.max 1 (s.delays.headD 1)
    let q : FetchReq := { pc := y.pc, id := s.nextId, due := s.now + Nat.min accessLimit t, failed := accessLimit ≤ t }
    { s.updStream c sec (fun x => { x with fetching := some q }) with nextId := s.nextId + 1, delays := s.delays.tail }

/-- The fetch reads its line where it is stored: once for a bundle that is then held (R71 to R73). -/
def State.fetchRead (s : State) (c : CoreId) (sec : Bool) : State :=
  match s.fetchPlace c sec with
  | .at_ ia attr =>
    if s.fetchLink c sec ia = .here && (s.stream c sec).hold = .none && (s.stream c sec).waitCount = 0 then
      (s.noteReads ((addrs ia 32).map (s.servedAt c (attrRep attr)))).cacheTouch (s.servingHome c ia (attrRep attr)) ia (attrNt attr)
    else s
  | _ => s

/-- What a fetch gives. -/
inductive Fetched where
  /-- The eight slot words and their instructions. -/
  | bundle (words : List SlotWord) (ins : List Instr)
  /-- The lowest slot that is an illegal encoding (R23, R25). -/
  | illegal (slot : Nat) (word : SlotWord)
  | ask (share : Nat) (z : Bool)
  /-- The bytes are on their way over a link (R85). -/
  | coming
  | fault (t : TrapReq)
deriving DecidableEq, Repr

/-- The bytes of the next bundle: a plain read, related to every store of the stream (R303; assumption 13). -/
def State.fetchBytes (s : State) (c : CoreId) (sec : Bool) (ia : Nat) : List Byte :=
  s.plainBytes (s.stream c sec).snap (s.ownBytes 0 (s.stream c sec).own 0 ia 32) ia 32

/-- Fetch and decode the next bundle (R23, R67, R73). -/
def State.fetch (s : State) (c : CoreId) (sec : Bool) : Fetched :=
  match s.fetchPlace c sec with
  | .fault t => .fault t
  | .ask sh z => .ask sh z
  | .at_ ia attr =>
    if s.fetchLink c sec ia = .coming then .coming
    else if s.fetchLink c sec ia = .failed || (s.firstPoison ((addrs ia 32).map (s.servedAt c (attrRep attr)))).isSome then .fault { cause := 0x11, tval := (s.stream c sec).pcWord }
    else
      let bytes := s.fetchBytes c sec ia
      match decodeBundle bytes with
      | .ok is => .bundle (slotWords 8 bytes) is
      | .error (i, w, _) => .illegal i w

/-- Take an immediate trap at the next bundle of a stream (R345). -/
def State.trapAt (s : State) (c : CoreId) (sec : Bool) (t : TrapReq) : State :=
  (s.enterTrap c sec t (s.stream c sec).pc false false 0 (s.stream c sec).sc).setStatus (.trapped t)

/-- INSTRUCTION_FETCH_FAULT (R57, R66, R73, R182): the trap is precise at the bundle that cannot be fetched. -/
def execInstructionFetchFault (c : CoreId) (sec : Bool) (s : State) : Answer :=
  let s1 := s.fetchRead c sec
  if !(s.stream c sec).live then .next s
  else
    match s1.fetch c sec with
    | .fault t => .next (s1.trapAt c sec t)
    | _ => .next s

end Sys2Proof.Machine
end

