-- ==== Sys2Proof/Machine/VecConv.lean ====
section
/-! DEFINITION. Conversion, packing and expansion: CVT, MXQ, XPND, PACK, UNPK (R224 to R228). -/

namespace Sys2Proof.Machine

/-- A format code is a signed integer (R128). -/
def fmtSigned (c : Nat) : Bool := (8 ≤ c && c ≤ 11) || c = 16

/-- A format code is floating-point (R128). -/
def fmtFloat (c : Nat) : Bool := c ≤ 6

/-- The integer in the low bits of a container (R225). -/
def intOfCode (c x : Nat) : Int :=
  let y := x % 2 ^ fmtWidth c
  if fmtSigned c then toSigned (fmtWidth c) y else y

/-- CVT sources that exposed mode flushes: FP32, FP64, BF16 (R149). -/
def cvtFlushes (c : Nat) : Bool := c ≤ 2

/-- CVT from a narrow format to FP32 or FP64 on one container (R224, R225, R149). -/
def cvtTo (c : Nat) (dst : Fmt) (mode : RMode) (ex : Bool) (w x : Nat) : Nat × BitVec 7 :=
  if fmtFloat c then
    let v := (fmtOfCode c).operand (ex && cvtFlushes c) (x % 2 ^ fmtWidth c)
    let r := convertF (fmtOfCode c) dst mode .dflt ex w v.1
    (r.1, r.2 ||| v.2)
  else convertF dst dst mode .dflt ex w (ofInteger (intOfCode c x))

/-- CVT from FP32 or FP64 to a format on one container (R142, R143, R149, R224, R225). -/
def cvtFrom (c : Nat) (src : Fmt) (mode : RMode) (ex xbit : Bool) (w x : Nat) : Nat × BitVec 7 :=
  let v := src.operand ex x
  if fmtFloat c then
    let ov : OvMode := if !xbit then .dflt else if c = 4 then .nan else .sat
    let r := convertF src (fmtOfCode c) mode ov (ex && cvtFlushes c) w v.1
    (r.1, r.2 ||| v.2)
  else
    let r := convertI (fmtWidth c) (fmtSigned c) mode w v.1
    (ofSigned (fmtWidth c) r.1, r.2 ||| v.2)

/-- CVT (R224, R225): dir 0 .to32, 1 .from32, 2 .to64, 3 .from64. -/
def execCvt (d : BitVec 6) (a : BitVec 7) (f : BitVec 5) (r : BitVec 3) (x : Bool) (dir : BitVec 2) (s : State) : Answer :=
  let w := if dir.toNat < 2 then 32 else 64
  let narrowIn := dir.toNat % 2 = 0
  let rd : ReadAs := if !narrowIn then .flt else if fmtFloat f.toNat then .narrow (fmtOfCode f.toNat) else .int
  let src := s.vsrc a rd w
  let mode := s.rfield r
  s.putF 3 d (vmap w allOn (mode = .rsr) s.gens (fun wd i =>
    if narrowIn then cvtTo f.toNat (fmtOfWidth w) mode s.exposed wd (src i)
    else cvtFrom f.toNat (fmtOfWidth w) mode s.exposed x wd (src i)))

/-! ### MXFP4 (R228) -/

/-- What MxBlock makes of a block: the poison rule, all zero, or a scale. -/
inductive MxScale where
  | bad | zero | scale (v : Nat)
deriving DecidableEq, Repr

/-- The exponent of a nonzero datum: floor of log2 of its magnitude. -/
def FVal.top : FVal → Int
  | .fin _ m e => Nat.log2 m + e
  | _ => 0

/-- The datum is zero. -/
def FVal.isZero : FVal → Bool
  | .fin _ m _ => m = 0
  | _ => false

/-- The datum is finite. -/
def FVal.isFin : FVal → Bool
  | .fin _ _ _ => true
  | _ => false

/-- The scale of a block from its enabled elements (R228). -/
def mxScale (xs : List FVal) : MxScale :=
  if xs.any (fun x => !x.isFin) then .bad
  else
    match xs.filter (fun x => !x.isZero) with
    | [] => .zero
    | x :: r =>
      let e := r.foldl (fun t y => Max.max t y.top) x.top - 2
      .scale (Max.max 0 (Min.min (e + 127) 254)).toNat

/-- The scale byte of a block (R228). -/
def MxScale.byte : MxScale → Nat
  | .bad => 0xFF
  | .zero => 0x7F
  | .scale v => v

/-- The E2M1 code of an element under its block's scale (R228). -/
def mxElem (sc : MxScale) (mode : RMode) (w : Nat) (x : FVal) : Nat × BitVec 7 :=
  match sc with
  | .bad => (0, fNV)
  | .zero => (e2m1.withSign x.neg 0, 0)
  | .scale v =>
    match x with
    | .fin n m e => roundFin e2m1 mode .dflt false w n m (e + (127 - (v : Int)))
    | _ => (0, 0)

/-- MXQ of both forms (R228). -/
def State.mxq (s : State) (d : BitVec 6) (a : BitVec 7) (m : BitVec 3) (draw : Bool)
    (f : MxScale → Nat → FVal → Nat × BitVec 7) : Answer :=
  let src := s.vsrc a .flt 32
  let on := s.ven m 32
  let datum := fun i => fp32.operand s.exposed (src i)
  let scales := (List.range 8).map (fun c =>
    mxScale (((List.range 32).filter (fun j => on (32 * c + j))).map (fun j => (datum (32 * c + j)).1)))
  s.putF 3 d (vmap 32 on draw s.gens (fun wd i =>
    let o := f (scales.getD (i / 32) .zero) wd (datum i).1
    (o.1, o.2 ||| (datum i).2)))

/-- MXQ.scale (R228). -/
def execMxqScale (d : BitVec 6) (a : BitVec 7) (m : BitVec 3) (s : State) : Answer :=
  s.mxq d a m false (fun sc _ _ => (sc.byte, flagIf (sc = .bad) fNV))

/-- MXQ.elem (R228): every enabled element draws once under .rsr. -/
def execMxqElem (d : BitVec 6) (a : BitVec 7) (r m : BitVec 3) (s : State) : Answer :=
  s.mxq d a m (s.rfield r = .rsr) (fun sc wd x => mxElem sc (s.rfield r) wd x)

/-! ### Expansion and packing -/

/-- XPND of one output byte from its lane word (R134, R227). -/
def xpndByte (f : Nat) (h : Bool) (lane o : Nat) : Nat :=
  if f = 16 then
    (convertF e4m3 e4m3 .rne .dflt false 0 (ofInteger (toSigned 4 (lane / 16 ^ (o + if h then 8 else 0) % 16)))).1
  else
    let g := lane / 2 ^ (24 * (o / 4)) % 2 ^ 24
    let x := g / 2 ^ (6 * (o % 4)) % 64
    if f = 17 then (convertF e3m2 e5m2 .rne .dflt false 0 (e3m2.decode x)).1
    else (convertF e2m3 e4m3 .rne .dflt false 0 (e2m3.decode x)).1

/-- XPND (R227): the mask enables output bytes in pairs; no flag. A constant is read as the lane word. -/
def execXpnd (d : BitVec 6) (a : BitVec 7) (f : BitVec 5) (m : BitVec 3) (h : Bool) (s : State) : Answer :=
  let src := s.vsrc a .int 64
  .next (s.putV 3 d (vmap 8 (s.ven m 8) false s.gens (fun _ i => (xpndByte f.toNat h (src (i / 8)) (i % 8), 0))))

/-- PACK (R226): ow is the output width, 32 for .w down to 4 for .n. A constant is read at the width of its
container. -/
def execPack (d : BitVec 6) (a b : BitVec 7) (m : BitVec 3) (f : BitVec 2) (s : State) : Answer :=
  let ow := 32 >>> f.toNat
  let k := 32 / ow
  let x := s.vsrc a .int (2 * ow)
  let y := s.vsrc b .int (2 * ow)
  let on := if ow = 4 then allOn else s.ven m ow
  .next (s.putV 3 d (vmap ow on false s.gens (fun _ i =>
    let j := i % (2 * k)
    let c := i / (2 * k) * k + j % k
    ((if j < k then x c else y c) % 2 ^ ow, 0))))

/-- UNPK (R226): h selects the high half of each lane word. A constant is read at the narrow width. -/
def execUnpk (d : BitVec 6) (a : BitVec 7) (f : BitVec 5) (m : BitVec 3) (h : Bool) (s : State) : Answer :=
  let nw := unpkWidth f.toNat
  let cw := 2 * nw
  let k := 64 / cw
  let x := s.vsrc a .int nw
  .next (s.putV 3 d (vmap cw (s.ven m cw) false s.gens (fun _ i =>
    let e := x (i / k * (2 * k) + (if h then k else 0) + i % k)
    (if fmtSigned f.toNat then ofSigned cw (toSigned nw e) else e, 0))))

end Sys2Proof.Machine
end

