-- ==== Sys2Proof/Machine/VecInt.lean ====
section
/-! DEFINITION. Integer, logic, selection and mask instructions of the V slots, majors 14 to 30, 48 to 50, and
RNGV (R218 to R223, R234, R236, R237). -/

namespace Sys2Proof.Machine

/-- A masked two-operand integer instruction: no flag, latency 2 (R41, R218). -/
def State.intVector (s : State) (d : BitVec 6) (a b : BitVec 7) (m : BitVec 3) (wc : BitVec 2)
    (f : Nat → Nat → Nat → Nat) : Answer :=
  let w := codeWidth wc
  let x := s.vsrc a .int w
  let y := s.vsrc b .int w
  .next (s.putV 2 d (vmap w (s.ven m w) false s.gens (fun _ i => (f w (x i) (y i), 0))))

/-- A signed result of w bits, saturating or wrapping (R218). -/
def intElem (sat : Bool) (w : Nat) (x : Int) : Nat := ofSigned w (if sat then clampS w x else x)

/-- IADD (R218). -/
def execIadd (d : BitVec 6) (a b : BitVec 7) (m : BitVec 3) (sat : Bool) (w : BitVec 2) (s : State) : Answer :=
  s.intVector d a b m w (fun w x y => intElem sat w (toSigned w x + toSigned w y))

/-- ISUB (R218). -/
def execIsub (d : BitVec 6) (a b : BitVec 7) (m : BitVec 3) (sat : Bool) (w : BitVec 2) (s : State) : Answer :=
  s.intVector d a b m w (fun w x y => intElem sat w (toSigned w x - toSigned w y))

/-- IMUL (R218). -/
def execImul (d : BitVec 6) (a b : BitVec 7) (m : BitVec 3) (hi : Bool) (w : BitVec 2) (s : State) : Answer :=
  s.intVector d a b m w (fun w x y =>
    let p := ofSigned (2 * w) (toSigned w x * toSigned w y)
    if hi then p / 2 ^ w else p % 2 ^ w)

/-- IMAD (R219): c names v0 to v31, no mask. -/
def execImad (d : BitVec 6) (a b : BitVec 7) (c : BitVec 5) (t : Bool) (s : State) : Answer :=
  let w := typeWidth t
  let x := s.vsrc a .int w
  let y := s.vsrc b .int w
  let z := s.vsrc (c.setWidth 7) .int w
  .next (s.putV 2 d (vmap w allOn false s.gens (fun _ i => ((x i * y i + z i) % 2 ^ w, 0))))

/-- IAND (R218). -/
def execIand (d : BitVec 6) (a b : BitVec 7) (m : BitVec 3) (w : BitVec 2) (s : State) : Answer :=
  s.intVector d a b m w (fun _ x y => x &&& y)

/-- IOR (R218). -/
def execIor (d : BitVec 6) (a b : BitVec 7) (m : BitVec 3) (w : BitVec 2) (s : State) : Answer :=
  s.intVector d a b m w (fun _ x y => x ||| y)

/-- IXOR (R218). -/
def execIxor (d : BitVec 6) (a b : BitVec 7) (m : BitVec 3) (w : BitVec 2) (s : State) : Answer :=
  s.intVector d a b m w (fun _ x y => x ^^^ y)

/-- ISHL (R218): the amount is b[log2 W − 1 : 0]. -/
def execIshl (d : BitVec 6) (a b : BitVec 7) (m : BitVec 3) (w : BitVec 2) (s : State) : Answer :=
  s.intVector d a b m w (fun w x y => x <<< (y % w) % 2 ^ w)

/-- ISHR (R218). -/
def execIshr (d : BitVec 6) (a b : BitVec 7) (m : BitVec 3) (w : BitVec 2) (s : State) : Answer :=
  s.intVector d a b m w (fun w x y => x >>> (y % w))

/-- ISAR (R218). -/
def execIsar (d : BitVec 6) (a b : BitVec 7) (m : BitVec 3) (w : BitVec 2) (s : State) : Answer :=
  s.intVector d a b m w (fun w x y => ofSigned w (toSigned w x / 2 ^ (y % w)))

/-- An element is less than or equal to another, signed or unsigned. -/
def intLe (u : Bool) (w x y : Nat) : Bool := if u then x ≤ y else toSigned w x ≤ toSigned w y

/-- IMIN (R218). -/
def execImin (d : BitVec 6) (a b : BitVec 7) (m : BitVec 3) (u : Bool) (w : BitVec 2) (s : State) : Answer :=
  s.intVector d a b m w (fun w x y => if intLe u w x y then x else y)

/-- IMAX (R218). -/
def execImax (d : BitVec 6) (a b : BitVec 7) (m : BitVec 3) (u : Bool) (w : BitVec 2) (s : State) : Answer :=
  s.intVector d a b m w (fun w x y => if intLe u w x y then y else x)

/-- The conditions of ICMP (R220). -/
def intCompare (cond w x y : Nat) : Bool :=
  match cond with
  | 0 => x = y
  | 1 => x ≠ y
  | 2 => toSigned w x < toSigned w y
  | 3 => toSigned w x ≤ toSigned w y
  | 4 => x < y
  | 5 => x ≤ y
  | 6 => x &&& y ≠ 0
  | _ => x &&& y = 0

/-- ICMP (R210, R220). -/
def execIcmp (cond k : BitVec 3) (a b : BitVec 7) (m : BitVec 3) (wc : BitVec 2) (s : State) : Answer :=
  let w := codeWidth wc
  let x := s.vsrc a .int w
  let y := s.vsrc b .int w
  .next (s.putM 2 k (mmap w (s.ven m w) (fun i => (intCompare cond.toNat w (x i) (y i), 0))))

/-- SEL of the V slots (R221): the mask selects and does not enable. -/
def execVSel (d : BitVec 6) (a b : BitVec 7) (m : BitVec 3) (wc : BitVec 2) (s : State) : Answer :=
  let w := codeWidth wc
  let x := s.vsrc a .int w
  let y := s.vsrc b .int w
  let sel := s.ven m w
  .next (s.putV 2 d (vmap w allOn false s.gens (fun _ i => (if sel i then x i else y i, 0))))

/-- MOV (R221). -/
def execMov (d : BitVec 6) (a : BitVec 7) (f : BitVec 5) (m : BitVec 3) (s : State) : Answer :=
  let w := fmtWidth f.toNat
  let x := s.vsrc a (if f.toNat ≤ 1 then .flt else .int) w
  .next (s.putV 2 d (vmap w (s.ven m w) false s.gens (fun _ i => (x i, 0))))

/-- BCAST (R222). -/
def execBcast (d src : BitVec 6) (wc : BitVec 2) (s : State) : Answer :=
  let v := (s.cur.rs src).toNat
  .next (s.putV 2 d (vmap (codeWidth wc) allOn false s.gens (fun _ _ => (v, 0))))

/-- VIMM (R222). -/
def execVimm (d : BitVec 6) (wc : BitVec 2) (imm : BitVec 14) (s : State) : Answer :=
  .next (s.putV 2 d (vmap (codeWidth wc) allOn false s.gens (fun _ _ => ((imm.signExtend 64).toNat, 0))))

/-- MSK (R210, R223). -/
def execMsk (k : BitVec 3) (a b : BitVec 7) (f : BitVec 3) (s : State) : Answer :=
  let x := s.curCtx.rm (a.setWidth 3)
  let y := s.curCtx.rm (b.setWidth 3)
  let e := s.vsrc a .int 16
  let r : BitVec 512 := match f.toNat with
    | 0 => x &&& y
    | 1 => x ||| y
    | 2 => x ^^^ y
    | 3 => x &&& ~~~y
    | 4 => ~~~x
    | _ => BitVec.ofNat 512 (mmap 16 allOn (fun i => (e i ≠ 0, 0))).bits
  .next (s.putM 2 k { bits := r.toNat, written := 2 ^ 512 - 1, flags := 0 })

/-- VEXT (R210, R234). -/
def execVext (d src : BitVec 6) (wc : BitVec 2) (i : BitVec 10) (s : State) : Answer :=
  .next ((s.pushZero 4).emit 4
    (.scalar d (BitVec.ofNat 64 (elemOf (s.curCtx.rv src).toNat (codeWidth wc) i.toNat))))

/-- The random bits of an element of w bits: 1, 2 or 4 draws of generator g, the first lowest (R236). -/
def drawWide (gens : Vector Word 128) (g : Nat) : Nat → Vector Word 128 × Nat
  | 0 => (gens, 0)
  | n + 1 =>
    let d := drawFrom gens g
    let r := drawWide d.1 g n
    (r.1, d.2 + 65536 * r.2)

/-- RNGV (R236). -/
def execRngv (d : BitVec 6) (f : BitVec 5) (m : BitVec 3) (s : State) : Answer :=
  let w := fmtWidth f.toNat
  let on := s.ven m w
  let r := foldUp (elemCount w) (fun (r : VResult) i =>
    if on i then
      let x := drawWide r.gens (w * i / 64) (w / 16)
      { r with gens := x.1 }.put w i x.2 0
    else r) { img := 0, written := 0, flags := 0, gens := s.gens }
  .next ((s.putV 2 d r).updCur (fun x => { x with gens := r.gens }))

/-- CHKV (R237): on a difference the bundle traps precisely; otherwise only the ring entry of zeros. -/
def execChkv (a b : BitVec 7) (m : BitVec 3) (wc : BitVec 2) (s : State) : Answer :=
  let w := codeWidth wc
  let x := s.vsrc a .int w
  let y := s.vsrc b .int w
  let on := s.ven m w
  match (List.range (elemCount w)).find? (fun i => on i && x i != y i) with
  | some i =>
    if s.cur.dup then .next (s.raise { cause := 0x0A, tval := BitVec.ofNat 64 (x i ^^^ y i) })
    else .next (s.pushZero 2)
  | none => .next (s.pushZero 2)

end Sys2Proof.Machine
end

