-- ==== Sys2Proof/Machine/VecMove.lean ====
section
/-! DEFINITION. Moves within and between clusters, and the accumulators' blocks: XCL, PERM, ACCRD, ACCWR (R231,
R232, R235). -/

namespace Sys2Proof.Machine

/-- The cluster of a that cluster c of d receives (R231). -/
def xclFrom (k x c : Nat) : Nat :=
  match k with
  | 0 => (c + 8 - x) % 8
  | 1 => c ^^^ x
  | _ => x

/-- XCL (R231). -/
def execXcl (d a : BitVec 6) (k : BitVec 2) (x : BitVec 3) (s : State) : Answer :=
  let img := (s.curCtx.rv a).toNat
  .next (s.putV 8 d (vmap 64 allOn false s.gens (fun _ i =>
    (elemOf img 64 (16 * xclFrom k.toNat x.toNat (i / 16) + i % 16), 0))))

/-- The input element that output element j of a cluster of n receives (R232). -/
def permFrom (k n x j : Nat) : Nat :=
  match k with
  | 0 => (j + n - x) % n
  | 1 => j ^^^ x
  | 2 => x
  | _ => n - 1 - j

/-- PERM (R232). -/
def execPerm (d a : BitVec 6) (k : BitVec 3) (wc : BitVec 2) (x : BitVec 6) (s : State) : Answer :=
  let w := 16 <<< wc.toNat
  let n := 1024 / w
  let img := (s.curCtx.rv a).toNat
  .next (s.putV 3 d (vmap w allOn false s.gens (fun _ i =>
    (elemOf img w (n * (i / n) + permFrom k.toNat n x.toNat (i % n)), 0))))

/-- The block that ACCRD and ACCWR name (R235). -/
def accBlockOf (a : Word) (off : BitVec 11) (n : BitVec 3) : Nat := (a.toNat + off.toNat) % (if n = 4 then 480 else 96)

/-- A tile operation or drain issued before this bundle names an accumulator and has not completed (R160). -/
def State.accBusy (s : State) (n : BitVec 3) : Bool := s.curCtx.tiles.any (fun t => t.acc == n && t.id < s.issue.base)

/-- The elements of an accumulator whose bytes lie in a block, with the first of them by key, that are
uncorrectable (R235, R366). -/
def Ctx.badInBlock (x : Ctx) (n : BitVec 3) (block : Nat) : List Nat :=
  if n = 4 then (x.accBad.filter (98304 ≤ ·)).map (· - 98304) |>.filter (fun e => 1024 * block < 20 * e + 20 && 20 * e < 1024 * block + 1024)
  else (x.accBad.filter (fun e => 24576 * n.toNat + 256 * block ≤ e && e < 24576 * n.toNat + 256 * block + 256)).map (· - 24576 * n.toNat)

/-- Byte o of an accumulator image; zero in an uncorrectable element (R159, R235). -/
def Ctx.accImageByte (x : Ctx) (n : BitVec 3) (bad : List Nat) (o : Nat) : Byte :=
  if n = 4 then (if bad.contains (o / 20) then 0 else accwByte x.accw o)
  else if bad.contains (o / 4) then 0
  else (tget 0 x.acc (24576 * n.toNat + o / 4)).extractLsb' (8 * (o % 4)) 8

/-- ACCRD (R160, R235). -/
def execAccrd (d src : BitVec 6) (off : BitVec 11) (n : BitVec 3) (s : State) : Answer :=
  if s.accBusy n then .next (s.holdFor .cube)
  else
    let x := s.curCtx
    let block := accBlockOf (s.cur.rs src) off n
    let bad := x.badInBlock n block
    let s1 := s.putV 6 d (vmap 8 allOn false s.gens (fun _ i => ((x.accImageByte n bad (1024 * block + i)).toNat, 0)))
    if bad = [] then .next s1 else .next ((s1.emit 6 (.report 0x11 s.freeVal)).drawFree)

/-- ACCWR (R160, R210, R235). -/
def execAccwr (v src : BitVec 6) (off : BitVec 11) (n : BitVec 3) (s : State) : Answer :=
  if s.accBusy n then .next (s.holdFor .cube)
  else .next ((s.pushZero 6).emit 6 (.accBlock n (accBlockOf (s.cur.rs src) off n) (s.curCtx.rv v)))

end Sys2Proof.Machine
end

