-- ==== Sys2Proof/Machine/VecSpecial.lean ====
section
/-! DEFINITION. The special functions RCP, RSQ, EXP2, LOG2, SIGM and TANH (R229, R230). The exact cases are as
R229 gives them; elsewhere the result is free within the bound of R230 (assumption 5). -/

namespace Sys2Proof.Machine

/-- The scale of the fixed-point numbers: 256 bits below the point. -/
def one256 : Nat := 2 ^ 256

/-- ln 2 at that scale. -/
def ln2Fix : Nat := 80260960185991308862233904206310070533990667611589946606122867505419956976171

/-- log2 e at that scale. -/
def log2eFix : Nat := 167052672916848388242985626561247531987276682633131050150846402744536260568207

/-- e^y for y below 1, both at the fixed-point scale, by the first 64 terms of its series. -/
def expFix (y : Nat) : Nat :=
  ((List.range 64).reverse).foldl (fun acc k => one256 + y * acc / one256 / (k + 1)) one256

/-- floor(m × 2^e × 2^256). -/
def toFix (m : Nat) (e : Int) : Nat := if 0 ≤ e + 256 then m * 2 ^ (e + 256).toNat else m / 2 ^ (-(e + 256)).toNat

/-- A positive number m × 2^e near an inexact result. -/
abbrev Near := Nat × Int

/-- Mark a number as lying strictly above m × 2^e. -/
def above (m : Nat) (e : Int) : Near := (2 * m + 1, e - 1)

/-- 2^X for X at the fixed-point scale. -/
def exp2Fix (x : Int) : Near :=
  above (expFix ((x % (one256 : Int)).toNat * ln2Fix / one256)) (x / (one256 : Int) - 256)

/-- e^(−x) for x = m × 2^e; below 2^−20000 for x of 16,384 or more. -/
def expNeg (m : Nat) (e : Int) : Near :=
  if 14 ≤ Nat.log2 m + e then (1, -20000)
  else exp2Fix (-((toFix (m * log2eFix) (e - 256) : Nat) : Int) - 1)

/-- A Near number at the fixed-point scale. -/
def Near.fix (x : Near) : Nat := toFix x.1 x.2

/-- The integer square root, bit by bit from bit n - 1. -/
def isqrtFrom (x : Nat) : Nat → Nat → Nat
  | 0, r => r
  | n + 1, r => isqrtFrom x n (if (r + 2 ^ n) * (r + 2 ^ n) ≤ x then r + 2 ^ n else r)

/-- The first n bits after the point of log2 y, for y in [1, 2) at the fixed-point scale. -/
def log2Frac : Nat → Nat → Nat → Nat
  | 0, _, acc => acc
  | n + 1, y, acc =>
    let z := y * y / one256
    if 2 * one256 ≤ z then log2Frac n (z / 2) (2 * acc + 1) else log2Frac n z (2 * acc)

/-- What a special function gives: an exact case with its flags, an invalid operation, or a number near which the
result lies. -/
inductive Special where
  | exact (v : FVal) (f : BitVec 7)
  | invalid
  | near (neg : Bool) (x : Near)
deriving DecidableEq, Repr

/-- m is a power of two. -/
def isPow2 (m : Nat) : Bool := m = 2 ^ Nat.log2 m

/-- RCP (R229). -/
def spRcp (x : FVal) : Special :=
  match x with
  | .fin n m e =>
    if m = 0 then .exact (.inf n) fDZ
    else if isPow2 m then .exact (.fin n 1 (-(Nat.log2 m + e))) 0
    else .near n (above (2 ^ 400 / m) (-400 - e))
  | v => .exact (.fin v.neg 0 0) 0

/-- RSQ (R229). -/
def spRsq (x : FVal) : Special :=
  match x with
  | .fin n m e =>
    if m = 0 then .exact (.inf n) fDZ
    else if n then .invalid
    else
      let j : Int := Nat.log2 m + e
      if isPow2 m && j % 2 = 0 then .exact (.fin false 1 (-(j / 2))) 0
      else
        let m1 := if e % 2 = 0 then m else 2 * m
        .near false (above (isqrtFrom (2 ^ 600 / m1) 301 0) (-300 - e / 2))
  | v => if v.neg then .invalid else .exact (.fin false 0 0) 0

/-- The integer that a finite datum is, if it is one. -/
def integerOf (n : Bool) (m : Nat) (e : Int) : Option Int :=
  if m = 0 then some 0
  else if 14 ≤ Nat.log2 m + e then (if 0 ≤ e || m % 2 ^ (-e).toNat = 0 then some (if n then -16384 else 16384) else none)
  else if 0 ≤ e then some ((if n then -1 else 1) * ((m * 2 ^ e.toNat : Nat) : Int))
  else if m % 2 ^ (-e).toNat = 0 then some ((if n then -1 else 1) * ((m / 2 ^ (-e).toNat : Nat) : Int))
  else none

/-- EXP2 (R229). An integer of magnitude above 16,384 overflows or is tiny as that one does. -/
def spExp2 (x : FVal) : Special :=
  match x with
  | .fin n m e =>
    match integerOf n m e with
    | some k => .exact (.fin false 1 k) 0
    | none =>
      if 14 ≤ Nat.log2 m + e then .near false (1, if n then -16384 else 16384)
      else .near false (exp2Fix (if n then -((toFix m e : Nat) : Int) - 1 else toFix m e))
  | v => .exact (if v.neg then .fin false 0 0 else .inf false) 0

/-- LOG2 (R229). -/
def spLog2 (x : FVal) : Special :=
  match x with
  | .fin n m e =>
    if m = 0 then .exact (.inf true) fDZ
    else if n then .invalid
    else
      let t := Nat.log2 m
      let i : Int := t + e
      if isPow2 m then .exact (ofInteger i) 0
      else
        let v : Int := i * 2 ^ 200 + log2Frac 200 (m * 2 ^ (256 - t)) 0
        .near (v < 0) (above v.natAbs (-200))
  | v => if v.neg then .invalid else .exact (.inf false) 0

/-- A number below 1 at the fixed-point scale: an exact value that rounds to 1 there still lies in the binade below (R230). -/
def belowOne (q : Nat) : Near := above (Nat.min q (one256 - 1)) (-256)

/-- SIGM (R229). -/
def spSigm (x : FVal) : Special :=
  match x with
  | .fin n m e =>
    if m = 0 then .exact (.fin false 1 (-1)) 0
    else
      let u := expNeg m e
      if n then .near false (above (u.1 * one256 / (one256 + u.fix)) u.2)
      else .near false (belowOne (one256 * one256 / (one256 + u.fix)))
  | v => .exact (if v.neg then .fin false 0 0 else .fin false 1 0) 0

/-- TANH (R229). Below 2^−30 in magnitude by x − x³/3, else by (1 − e^(−2x)) / (1 + e^(−2x)). -/
def spTanh (x : FVal) : Special :=
  match x with
  | .fin n m e =>
    if m = 0 then .exact (.fin n 0 0) 0
    else if Nat.log2 m + e < -30 then
      let k := (-2 * e).toNat
      .near n (above (m * (3 * 2 ^ k - m * m) * 2 ^ 200 / 3) (e - k - 200))
    else
      let u := (expNeg m (e + 1)).fix
      .near n (belowOne ((one256 - u) * one256 / (one256 + u)))
  | v => .exact (.fin v.neg 1 0) 0

/-- |a × 2^p − b × 2^q| ≤ n × 2^r. -/
def within (a : Nat) (p : Int) (b : Nat) (q : Int) (n : Nat) (r : Int) : Bool :=
  let lo := Min.min p (Min.min q r)
  let x := a * 2 ^ (p - lo).toNat
  let y := b * 2 ^ (q - lo).toNat
  (if x ≤ y then y - x else x - y) ≤ n * 2 ^ (r - lo).toNat

/-- The result of an inexact case (R229, R230): bound units in the last place at the exact value, off the free
displacement. Overflow and tininess are decided in round to nearest even. -/
def nearResult (fm : Fmt) (ex : Bool) (bound : Nat) (off : Int) (neg : Bool) (x : Near) : Nat × BitVec 7 :=
  let r := roundFin fm .rne .dflt ex 0 neg x.1 x.2
  if r.2 &&& fOF ≠ 0 || r.2 &&& fFZ ≠ 0 then (r.1, r.2 ||| fNX)
  else
    let mag := r.1 % 2 ^ (fm.e + fm.f)
    let c : Int := mag + off
    let q : Int := Max.max (Nat.log2 x.1 + x.2) fm.emin - fm.f
    let ok := 0 ≤ c && c ≤ fm.maxBits && (!ex || decide ((2 ^ fm.f : Int) ≤ c)) &&
      (match fm.decode c.toNat with
       | .fin _ m e => within m e x.1 x.2 bound q
       | _ => false)
    (if ok then fm.withSign neg c.toNat else r.1, r.2 ||| fNX)

/-- A special function on one element (R144, R149, R229, R230): k its major. -/
def spElem (k bound : Nat) (fm : Fmt) (ex : Bool) (f : FVal → Special) (bits : Nat) : Nat × BitVec 7 :=
  let x := fm.operand ex bits
  match firstNan fm [x.1] with
  | some r => (r.1, r.2 ||| x.2)
  | none =>
    let r := match f x.1 with
      | .invalid => (fm.cnan, fNV)
      | .exact v fl => let d := deliver fm .rne ex 0 (some v); (d.1, d.2 ||| fl)
      | .near n y => nearResult fm ex bound (Config.specialOffset k (if fm = fp64 then 1 else 0) bits) n y
    (r.1, r.2 ||| x.2)

/-- A special-function instruction (R229): b32 and b64 are the bounds of R230. -/
def State.special (s : State) (k b32 b64 : Nat) (f : FVal → Special) (d : BitVec 6) (a : BitVec 7) (t : Bool)
    (m : BitVec 3) : Answer :=
  let w := typeWidth t
  let src := s.vsrc a .flt w
  s.putF 8 d (vmap w (s.ven m w) false s.gens
    (fun _ i => spElem k (if t then b64 else b32) (fmtOfWidth w) s.exposed f (src i)))

/-- RCP (R229); its rounding field is ignored. -/
def execRcp (d : BitVec 6) (a : BitVec 7) (t : Bool) (_r m : BitVec 3) (s : State) : Answer :=
  s.special 36 1 1 spRcp d a t m

/-- RSQ (R229). -/
def execRsq (d : BitVec 6) (a : BitVec 7) (t : Bool) (_r m : BitVec 3) (s : State) : Answer :=
  s.special 37 1 1 spRsq d a t m

/-- EXP2 (R229). -/
def execExp2 (d : BitVec 6) (a : BitVec 7) (t : Bool) (_r m : BitVec 3) (s : State) : Answer :=
  s.special 38 2 4 spExp2 d a t m

/-- LOG2 (R229). -/
def execLog2 (d : BitVec 6) (a : BitVec 7) (t : Bool) (_r m : BitVec 3) (s : State) : Answer :=
  s.special 39 2 4 spLog2 d a t m

/-- SIGM (R229). -/
def execSigm (d : BitVec 6) (a : BitVec 7) (t : Bool) (_r m : BitVec 3) (s : State) : Answer :=
  s.special 40 2 4 spSigm d a t m

/-- TANH (R229). -/
def execTanh (d : BitVec 6) (a : BitVec 7) (t : Bool) (_r m : BitVec 3) (s : State) : Answer :=
  s.special 41 2 4 spTanh d a t m

end Sys2Proof.Machine
end

