-- ==== Sys2Proof/Machine/Dispatch.lean ====
section
/-! DEFINITION. One arm for each row: the meaning of every instruction and event. -/

namespace Sys2Proof.Machine

/-- The meaning of a row of the opcode table. -/
def exec (i : Instr) (s : State) : Host.Outcome State Fault Refusal :=
  match i with
  | .nop => Sys2Proof.Machine.execNop s
  | .br p neg off => Sys2Proof.Machine.execBr p neg off s
  | .call p neg off => Sys2Proof.Machine.execCall p neg off s
  | .ret p neg => Sys2Proof.Machine.execRet p neg s
  | .jind d a => Sys2Proof.Machine.execJind d a s
  | .loop level a dist => Sys2Proof.Machine.execLoop level a dist s
  | .waitc ld st cp tl at_ => Sys2Proof.Machine.execWaitc ld st cp tl at_ s
  | .waitt d a b clr => Sys2Proof.Machine.execWaitt d a b clr s
  | .waitany d a b clr => Sys2Proof.Machine.execWaitany d a b clr s
  | .waitTimeout c sec => Sys2Proof.Machine.execWaitTimeout c sec s
  | .pmode inter => Sys2Proof.Machine.execPmode inter s
  | .halt code => Sys2Proof.Machine.execHalt code s
  | .phase d level => Sys2Proof.Machine.execPhase d level s
  | .phaseArrival c sec => Sys2Proof.Machine.execPhaseArrival c sec s
  | .phaseBoundaryComplete c sec => Sys2Proof.Machine.execPhaseBoundaryComplete c sec s
  | .rel scope => Sys2Proof.Machine.execRel scope s
  | .acq scope => Sys2Proof.Machine.execAcq scope s
  | .waddr d a b n => Sys2Proof.Machine.execWaddr d a b n s
  | .waddrWake c sec => Sys2Proof.Machine.execWaddrWake c sec s
  | .waddrPoll c sec => Sys2Proof.Machine.execWaddrPoll c sec s
  | .waddrTimeout c sec => Sys2Proof.Machine.execWaddrTimeout c sec s
  | .strtHdr d => Sys2Proof.Machine.execStrtHdr d s
  | .strtReg d a => Sys2Proof.Machine.execStrtReg d a s
  | .yieldCore d floor => Sys2Proof.Machine.execYield d floor s
  | .yieldAnswer c sec => Sys2Proof.Machine.execYieldAnswer c sec s
  | .domj d a off level => Sys2Proof.Machine.execDomj d a off level s
  | .trap a code => Sys2Proof.Machine.execTrap a code s
  | .tret => Sys2Proof.Machine.execTret s
  | .rdctl d reg => Sys2Proof.Machine.execRdctl d reg s
  | .wrctl a reg => Sys2Proof.Machine.execWrctl a reg s
  | .range d a b w r t => Sys2Proof.Machine.execRange d a b w r t s
  | .swprep d a b => Sys2Proof.Machine.execSwprep d a b s
  | .swprepStagingEnd c sec => Sys2Proof.Machine.execSwprepStagingEnd c sec s
  | .swap d => Sys2Proof.Machine.execSwap d s
  | .chkpt d level => Sys2Proof.Machine.execChkpt d level s
  | .checkpointCopyDone task => Sys2Proof.Machine.execCheckpointCopyDone task s
  | .add d a b sat w => Sys2Proof.Machine.execAdd d a b sat w s
  | .sub d a b sat w => Sys2Proof.Machine.execSub d a b sat w s
  | .addi d a imm => Sys2Proof.Machine.execAddi d a imm s
  | .mul d a b w => Sys2Proof.Machine.execMul d a b w s
  | .mulh d a b f => Sys2Proof.Machine.execMulh d a b f s
  | .and d a b => Sys2Proof.Machine.execAnd d a b s
  | .or d a b => Sys2Proof.Machine.execOr d a b s
  | .xor d a b => Sys2Proof.Machine.execXor d a b s
  | .andn d a b => Sys2Proof.Machine.execAndn d a b s
  | .shl d a b w => Sys2Proof.Machine.execShl d a b w s
  | .shr d a b w => Sys2Proof.Machine.execShr d a b w s
  | .sar d a b w => Sys2Proof.Machine.execSar d a b w s
  | .shi d a w k n => Sys2Proof.Machine.execShi d a w k n s
  | .clz d a w => Sys2Proof.Machine.execClz d a w s
  | .popc d a w => Sys2Proof.Machine.execPopc d a w s
  | .min d a b => Sys2Proof.Machine.execMin d a b s
  | .max d a b => Sys2Proof.Machine.execMax d a b s
  | .minu d a b => Sys2Proof.Machine.execMinu d a b s
  | .maxu d a b => Sys2Proof.Machine.execMaxu d a b s
  | .cmp p cond a b w => Sys2Proof.Machine.execCmp p cond a b w s
  | .cmpi p cond a imm => Sys2Proof.Machine.execCmpi p cond a imm s
  | .sSel d a b neg n => Sys2Proof.Machine.execSSel d a b neg n s
  | .movi d imm => Sys2Proof.Machine.execMovi d imm s
  | .movhi d q chunk => Sys2Proof.Machine.execMovhi d q chunk s
  | .lea d a b sh => Sys2Proof.Machine.execLea d a b sh s
  | .bfx d a sg w pos => Sys2Proof.Machine.execBfx d a sg w pos s
  | .bfi d a w pos => Sys2Proof.Machine.execBfi d a w pos s
  | .plog p op na a nb b => Sys2Proof.Machine.execPlog p op na a nb b s
  | .pmovSet p a => Sys2Proof.Machine.execPmovSet p a s
  | .pmovPack b => Sys2Proof.Machine.execPmovPack b s
  | .pmovUnpk a => Sys2Proof.Machine.execPmovUnpk a s
  | .chks a b => Sys2Proof.Machine.execChks a b s
  | .rdsys d sel => Sys2Proof.Machine.execRdsys d sel s
  | .tfirst d a clr => Sys2Proof.Machine.execTfirst d a clr s
  | .stset a w n => Sys2Proof.Machine.execStset a w n s
  | .stget d w n => Sys2Proof.Machine.execStget d w n s
  | .ld d base cls sz off => Sys2Proof.Machine.execLd d base cls sz off s
  | .st d base cls sz off => Sys2Proof.Machine.execSt d base cls sz off s
  | .ldv d base cls m sz off => Sys2Proof.Machine.execLdv d base cls m sz off s
  | .stv d base cls m sz off => Sys2Proof.Machine.execStv d base cls m sz off s
  | .ldvs d base cls m sz k => Sys2Proof.Machine.execLdvs d base cls m sz k s
  | .stvs d base cls m sz k => Sys2Proof.Machine.execStvs d base cls m sz k s
  | .ldg d base cls sz off => Sys2Proof.Machine.execLdg d base cls sz off s
  | .stg d base cls sz off => Sys2Proof.Machine.execStg d base cls sz off s
  | .stnt d base cls sz off => Sys2Proof.Machine.execStnt d base cls sz off s
  | .atom d a b f scope w => Sys2Proof.Machine.execAtom d a b f scope w s
  | .cas d a b scope w => Sys2Proof.Machine.execCas d a b scope w s
  | .pgreq d a b wr => Sys2Proof.Machine.execPgreq d a b wr s
  | .pageRequestSettled c id declined => Sys2Proof.Machine.execPageRequestSettled c id declined s
  | .fadd d a b m t => Sys2Proof.Machine.execFadd d a b m t s
  | .fsub d a b m t => Sys2Proof.Machine.execFsub d a b m t s
  | .fmul d a b m t => Sys2Proof.Machine.execFmul d a b m t s
  | .fma d a b c t => Sys2Proof.Machine.execFma d a b c t s
  | .fms d a b c t => Sys2Proof.Machine.execFms d a b c t s
  | .fnma d a b c t => Sys2Proof.Machine.execFnma d a b c t s
  | .fmin d a b m num t => Sys2Proof.Machine.execFmin d a b m num t s
  | .fmax d a b m num t => Sys2Proof.Machine.execFmax d a b m num t s
  | .fabs d a t m => Sys2Proof.Machine.execFabs d a t m s
  | .fneg d a t m => Sys2Proof.Machine.execFneg d a t m s
  | .fcmp cond k a b m t => Sys2Proof.Machine.execFcmp cond k a b m t s
  | .fclass d a t m => Sys2Proof.Machine.execFclass d a t m s
  | .fscl d a b m t => Sys2Proof.Machine.execFscl d a b m t s
  | .iadd d a b m sat w => Sys2Proof.Machine.execIadd d a b m sat w s
  | .isub d a b m sat w => Sys2Proof.Machine.execIsub d a b m sat w s
  | .imul d a b m hi w => Sys2Proof.Machine.execImul d a b m hi w s
  | .imad d a b c w => Sys2Proof.Machine.execImad d a b c w s
  | .iand d a b m w => Sys2Proof.Machine.execIand d a b m w s
  | .ior d a b m w => Sys2Proof.Machine.execIor d a b m w s
  | .ixor d a b m w => Sys2Proof.Machine.execIxor d a b m w s
  | .ishl d a b m w => Sys2Proof.Machine.execIshl d a b m w s
  | .ishr d a b m w => Sys2Proof.Machine.execIshr d a b m w s
  | .isar d a b m w => Sys2Proof.Machine.execIsar d a b m w s
  | .imin d a b m u w => Sys2Proof.Machine.execImin d a b m u w s
  | .imax d a b m u w => Sys2Proof.Machine.execImax d a b m u w s
  | .icmp cond k a b m w => Sys2Proof.Machine.execIcmp cond k a b m w s
  | .vSel d a b m w => Sys2Proof.Machine.execVSel d a b m w s
  | .mov d a f m => Sys2Proof.Machine.execMov d a f m s
  | .bcast d sg w => Sys2Proof.Machine.execBcast d sg w s
  | .vimm d w imm => Sys2Proof.Machine.execVimm d w imm s
  | .cvt d a f r x dir => Sys2Proof.Machine.execCvt d a f r x dir s
  | .mxqScale d a m => Sys2Proof.Machine.execMxqScale d a m s
  | .mxqElem d a r m => Sys2Proof.Machine.execMxqElem d a r m s
  | .xpnd d a f m h => Sys2Proof.Machine.execXpnd d a f m h s
  | .pack d a b m f => Sys2Proof.Machine.execPack d a b m f s
  | .unpk d a f m h => Sys2Proof.Machine.execUnpk d a f m h s
  | .rcp d a t r m => Sys2Proof.Machine.execRcp d a t r m s
  | .rsq d a t r m => Sys2Proof.Machine.execRsq d a t r m s
  | .exp2 d a t r m => Sys2Proof.Machine.execExp2 d a t r m s
  | .log2 d a t r m => Sys2Proof.Machine.execLog2 d a t r m s
  | .sigm d a t r m => Sys2Proof.Machine.execSigm d a t r m s
  | .tanh d a t r m => Sys2Proof.Machine.execTanh d a t r m s
  | .xcl d a k x => Sys2Proof.Machine.execXcl d a k x s
  | .perm d a k w x => Sys2Proof.Machine.execPerm d a k w x s
  | .red d a f r m g => Sys2Proof.Machine.execRed d a f r m g s
  | .accrd d sg off n => Sys2Proof.Machine.execAccrd d sg off n s
  | .accwr v sg off n => Sys2Proof.Machine.execAccwr v sg off n s
  | .rngv d f m => Sys2Proof.Machine.execRngv d f m s
  | .msk k a b f => Sys2Proof.Machine.execMsk k a b f s
  | .vext d sg w e => Sys2Proof.Machine.execVext d sg w e s
  | .chkv a b m w => Sys2Proof.Machine.execChkv a b m w s
  | .modmul d a b c h => Sys2Proof.Machine.execModmul d a b c h s
  | .resf d a f m h => Sys2Proof.Machine.execResf d a f m h s
  | .resx d a m deg => Sys2Proof.Machine.execResx d a m deg s
  | .slc d sg n v => Sys2Proof.Machine.execSlc d sg n v s
  | .mma acc a b sg f g adv z => Sys2Proof.Machine.execMma acc a b sg f g adv z s
  | .mmaHold acc a sg f g adv z => Sys2Proof.Machine.execMmaHold acc a sg f g adv z s
  | .mmz b sg f g adv => Sys2Proof.Machine.execMmz b sg f g adv s
  | .mholdRel => Sys2Proof.Machine.execMholdRel s
  | .mholdChk d => Sys2Proof.Machine.execMholdChk d s
  | .morgAdv => Sys2Proof.Machine.execMorgAdv s
  | .morgRd d => Sys2Proof.Machine.execMorgRd d s
  | .mgang d cfg => Sys2Proof.Machine.execMgang d cfg s
  | .mdrn t a r ovx adv clr f n => Sys2Proof.Machine.execMdrn t a r ovx adv clr f n s
  | .mstat d clr sel => Sys2Proof.Machine.execMstat d clr sel s
  | .mmi a b sg f g adv z => Sys2Proof.Machine.execMmi a b sg f g adv z s
  | .rnsx z sh n => Sys2Proof.Machine.execRnsx z sh n s
  | .rnschk => Sys2Proof.Machine.execRnschk s
  | .rnsdeg p g => Sys2Proof.Machine.execRnsdeg p g s
  | .xdot a b sg f g adv z => Sys2Proof.Machine.execXdot a b sg f g adv z s
  | .xdotDrainStart c id => Sys2Proof.Machine.execXdotDrainStart c id s
  | .xfin t a adv clr => Sys2Proof.Machine.execXfin t a adv clr s
  | .cpy t sg z span nt cls => Sys2Proof.Machine.execCpy t sg z span nt cls s
  | .cpyd t sg slot span nt cls => Sys2Proof.Machine.execCpyd t sg slot span nt cls s
  | .cpys t sg e span nt cls => Sys2Proof.Machine.execCpys t sg e span nt cls s
  | .ctab t sg slot cls => Sys2Proof.Machine.execCtab t sg slot cls s
  | .ewr e a imm => Sys2Proof.Machine.execEwr e a imm s
  | .ego t => Sys2Proof.Machine.execEgo t s
  | .tclr d a => Sys2Proof.Machine.execTclr d a s
  | .colj t sg span nt op cls => Sys2Proof.Machine.execColj t sg span nt op cls s
  | .canj d tag => Sys2Proof.Machine.execCanj d tag s
  | .canjAnswer c sec => Sys2Proof.Machine.execCanjAnswer c sec s
  | .resultLanding c sec => Sys2Proof.Machine.execResultLanding c sec s
  | .mergeWaitLimit c => Sys2Proof.Machine.execMergeWaitLimit c s
  | .deferredTrapTake c sec => Sys2Proof.Machine.execDeferredTrapTake c sec s
  | .taskEnd task cause c sec => Sys2Proof.Machine.execTaskEnd task cause c sec s
  | .loadDataReturn c id => Sys2Proof.Machine.execLoadDataReturn c id s
  | .storeApplied c id => Sys2Proof.Machine.execStoreApplied c id s
  | .atomicPerformed c id => Sys2Proof.Machine.execAtomicPerformed c id s
  | .residencyAnswer c sec => Sys2Proof.Machine.execResidencyAnswer c sec s
  | .poolRefill home => Sys2Proof.Machine.execPoolRefill home s
  | .shareUnmap home ia => Sys2Proof.Machine.execShareUnmap home ia s
  | .replicaInvalidationAck home page copy => Sys2Proof.Machine.execReplicaInvalidationAck home page copy s
  | .replicaFence home page copy => Sys2Proof.Machine.execReplicaFence home page copy s
  | .sliceWordWriteback c word => Sys2Proof.Machine.execSliceWordWriteback c word s
  | .remoteSliceRequest c bank requester => Sys2Proof.Machine.execRemoteSliceRequest c bank requester s
  | .remoteRequestGrant c bank => Sys2Proof.Machine.execRemoteRequestGrant c bank s
  | .jobStart c id => Sys2Proof.Machine.execJobStart c id s
  | .jobComplete c id => Sys2Proof.Machine.execJobComplete c id s
  | .feedStep c => Sys2Proof.Machine.execFeedStep c s
  | .gangRendezvous c sec => Sys2Proof.Machine.execGangRendezvous c sec s
  | .tileOperationComplete c id => Sys2Proof.Machine.execTileOperationComplete c id s
  | .drainComplete c id => Sys2Proof.Machine.execDrainComplete c id s
  | .shadowReport c sec tval => Sys2Proof.Machine.execShadowReport c sec tval s
  | .strikeRequest group index rank desc => Sys2Proof.Machine.execStrikeRequest group index rank desc s
  | .strikeGo group index => Sys2Proof.Machine.execStrikeGo group index s
  | .collectiveStart striker => Sys2Proof.Machine.execCollectiveStart striker s
  | .strikeCancel group index => Sys2Proof.Machine.execStrikeCancel group index s
  | .strikeRequestRetry group index => Sys2Proof.Machine.execStrikeRequestRetry group index s
  | .strikerTakeover striker => Sys2Proof.Machine.execStrikerTakeover striker s
  | .taskPlace task => Sys2Proof.Machine.execTaskPlace task s
  | .contextStage task => Sys2Proof.Machine.execContextStage task s
  | .schedulerSwap task => Sys2Proof.Machine.execSchedulerSwap task s
  | .cubeSwapDrainEnd c => Sys2Proof.Machine.execCubeSwapDrainEnd c s
  | .spillComplete c => Sys2Proof.Machine.execSpillComplete c s
  | .saveAreaFault c va => Sys2Proof.Machine.execSaveAreaFault c va s
  | .sliceTransferEnd c => Sys2Proof.Machine.execSliceTransferEnd c s
  | .taskRetire task => Sys2Proof.Machine.execTaskRetire task s
  | .rollback task => Sys2Proof.Machine.execRollback task s
  | .groupRollback group => Sys2Proof.Machine.execGroupRollback group s
  | .dieRetire c die works => Sys2Proof.Machine.execDieRetire c die works s
  | .reservationTick => Sys2Proof.Machine.execReservationTick s
  | .budgetTick => Sys2Proof.Machine.execBudgetTick s
  | .powerLeaseExpiry => Sys2Proof.Machine.execPowerLeaseExpiry s
  | .regulatorEvaluate c hottest => Sys2Proof.Machine.execRegulatorEvaluate c hottest s
  | .thermalTripTimeout c => Sys2Proof.Machine.execThermalTripTimeout c s
  | .wakeComplete => Sys2Proof.Machine.execWakeComplete s
  | .packetConsume queue => Sys2Proof.Machine.execPacketConsume queue s
  | .packetPoll queue => Sys2Proof.Machine.execPacketPoll queue s
  | .invokePacket packet => Sys2Proof.Machine.execInvokePacket packet s
  | .loadSlotPacket packet => Sys2Proof.Machine.execLoadSlotPacket packet s
  | .loadSlotComplete packet => Sys2Proof.Machine.execLoadSlotComplete packet s
  | .unloadSlotPacket packet => Sys2Proof.Machine.execUnloadSlotPacket packet s
  | .unloadSlotComplete packet => Sys2Proof.Machine.execUnloadSlotComplete packet s
  | .copyPacket packet => Sys2Proof.Machine.execCopyPacket packet s
  | .signalPacket packet => Sys2Proof.Machine.execSignalPacket packet s
  | .waitPacket packet => Sys2Proof.Machine.execWaitPacket packet s
  | .waitPacketMet packet => Sys2Proof.Machine.execWaitPacketMet packet s
  | .waitPacketTimeout packet => Sys2Proof.Machine.execWaitPacketTimeout packet s
  | .groupForm packet => Sys2Proof.Machine.execGroupForm packet s
  | .groupGrant packet => Sys2Proof.Machine.execGroupGrant packet s
  | .groupReopen packet => Sys2Proof.Machine.execGroupReopen packet s
  | .groupRelease packet => Sys2Proof.Machine.execGroupRelease packet s
  | .groupAgreement packet agrees => Sys2Proof.Machine.execGroupAgreement packet agrees s
  | .groupAgreementTimeout packet => Sys2Proof.Machine.execGroupAgreementTimeout packet s
  | .groupReleaseComplete packet => Sys2Proof.Machine.execGroupReleaseComplete packet s
  | .firmwareLockstepMismatch => Sys2Proof.Machine.execFirmwareLockstepMismatch s
  | .firmwareRestartEnd => Sys2Proof.Machine.execFirmwareRestartEnd s
  | .queuesOpen => Sys2Proof.Machine.execQueuesOpen s
  | .functionLevelReset => Sys2Proof.Machine.execFunctionLevelReset s
  | .powerOnReset => Sys2Proof.Machine.execPowerOnReset s
  | .hostSnoopResponse line => Sys2Proof.Machine.execHostSnoopResponse line s
  | .hostLinkDown => Sys2Proof.Machine.execHostLinkDown s
  | .ualinkTrainingTimeout port => Sys2Proof.Machine.execUalinkTrainingTimeout port s
  | .d2dLinkFailed link => Sys2Proof.Machine.execD2dLinkFailed link s
  | .illegalEncoding slot word => Sys2Proof.Machine.execIllegalEncoding slot word s
  | .instructionFetchFault c sec => Sys2Proof.Machine.execInstructionFetchFault c sec s
  | .powerGateEntry => Sys2Proof.Machine.execPowerGateEntry s
  | .hostWindowFlushComplete c sec => Sys2Proof.Machine.execHostWindowFlushComplete c sec s
  | .hbmPatrolRead line => Sys2Proof.Machine.execHbmPatrolRead line s
  | .hbmRefreshScrub home count => Sys2Proof.Machine.execHbmRefreshScrub home count s
  | .slicePatrolRead c word => Sys2Proof.Machine.execSlicePatrolRead c word s
  | .peerAccessRequest port req => Sys2Proof.Machine.execPeerAccessRequest port req s
  | .rankUnreachable group index rank => Sys2Proof.Machine.execRankUnreachable group index rank s
  | .spillRestart c => Sys2Proof.Machine.execSpillRestart c s
  | .heldContextSwapIn c => Sys2Proof.Machine.execHeldContextSwapIn c s
  | .powerBudgetMessage msg => Sys2Proof.Machine.execPowerBudgetMessage msg s
  | .doorbellWrite queue off size tail => Sys2Proof.Machine.execDoorbellWrite queue off size tail s
  | .workerFault worker => Sys2Proof.Machine.execWorkerFault worker s
  | .bringUpStepEnd ok dies => Sys2Proof.Machine.execBringUpStepEnd ok dies s
  | .recoveryImageLoad image => Sys2Proof.Machine.execRecoveryImageLoad image s
  | .attestationRequest nonce => Sys2Proof.Machine.execAttestationRequest nonce s
  | .hostMemoryWrite addr data => Sys2Proof.Machine.execHostMemoryWrite addr data s
  | .hostMemoryRead addr len => Sys2Proof.Machine.execHostMemoryRead addr len s
  | .hostCompletionTimeout c id => Sys2Proof.Machine.execHostCompletionTimeout c id s
  | .peerAccessTimeout c id => Sys2Proof.Machine.execPeerAccessTimeout c id s
  | .ualinkPortUp port device => Sys2Proof.Machine.execUalinkPortUp port device s
  | .ualinkPortDown port => Sys2Proof.Machine.execUalinkPortDown port s
  | .ualinkIdMismatch port => Sys2Proof.Machine.execUalinkIdMismatch port s
  | .d2dParityError link => Sys2Proof.Machine.execD2dParityError link s
  | .seedWrite c sec value => Sys2Proof.Machine.execSeedWrite c sec value s
  | .tagsWrite c value => Sys2Proof.Machine.execTagsWrite c value s
  | .cperrClear c value => Sys2Proof.Machine.execCperrClear c value s
  | .rnsstatWrite c value => Sys2Proof.Machine.execRnsstatWrite c value s
  | .rnsModeWrite c value => Sys2Proof.Machine.execRnsModeWrite c value s
  | .windowWrite c reg value => Sys2Proof.Machine.execWindowWrite c reg value s
  | .chkWrite c value => Sys2Proof.Machine.execChkWrite c value s
  | .spdiagWrite c value => Sys2Proof.Machine.execSpdiagWrite c value s
  | .rinjWrite c value => Sys2Proof.Machine.execRinjWrite c value s
  | .statWrite c sec value => Sys2Proof.Machine.execStatWrite c sec value s
  | .registerWrite target value => Sys2Proof.Machine.execRegisterWrite target value s
  | .hostLinkStateChange rate width io cache memory partialWidth => Sys2Proof.Machine.execHostLinkStateChange rate width io cache memory partialWidth s
  | .linkReplay port => Sys2Proof.Machine.execLinkReplay port s
  | .softError place => Sys2Proof.Machine.execSoftError place s
  | .replicaPlace home page copies => Sys2Proof.Machine.execReplicaPlace home page copies s

end Sys2Proof.Machine
end

