-- ==== Sys2Proof/Machine/Cycle.lean ====
section
/-! DEFINITION. One clock cycle of a core, the events that the machine raises by itself, and the end of a cycle (R23 to
R25, R37 to R40, R181, R185 to R191, R338, R345, R352, R355, R366). -/

namespace Sys2Proof.Machine

/-! ### The issue of a bundle -/

/-- Slots act one after another until one is held or traps. -/
def runList : List Instr → State → Answer
  | [], s => .next s
  | i :: r, s =>
    match exec i s with
    | .next t => if t.issue.status = .ok then runList r t else .next t
    | o => o

/-- A LOOP, which neither waits nor traps, acts after the other slots: none of them sees the level it installs (R38, R178,
R185). -/
def slotOrder (ins : List Instr) : List Instr :=
  match ins with
  | .loop l a d :: r => r ++ [.loop l a d]
  | l => l

/-- Every slot of a bundle acts on the registers as they stand, in slot order, until one is held or traps (R38). -/
def runSlots (ins : List Instr) (s : State) : Answer := runList (slotOrder ins) s

/-- An instruction is privileged (R24). -/
def privileged (i : Instr) : Bool :=
  match i with
  | .wrctl _ reg => ctlPrivileged reg.toNat
  | .rnsdeg .. => true
  | .swprep .. => true
  | .swap .. => true
  | _ => false

/-- The privilege trap of a bundle, with its lowest slot (R24, R25). -/
def privilegeFault (x : Stream) (ins : List Instr) : Option TrapReq :=
  if x.priv then none
  else (ins.zipIdx.find? (fun p => privileged p.1)).map (fun p => { cause := 0x02, tval := privilegeRecord p.2 p.1 })

/-- The results of its own that a held stream waits for come a cycle nearer. In a hazard its stream cycles advance (R39). In the
hold for its own ACCWR they do not (R40, R160, R407): the ACCWRs in flight alone go on, since they could not land otherwise
(assumption 82). -/
def Stream.heldOn (x : Stream) (h : Hold) : Stream :=
  match h with
  | .hazard => { x with sc := x.sc + 1 }
  | .accwr => { x with inflight := x.inflight.map (fun l => match l.dest with | .accBlock .. => { l with due := l.due - 1 } | _ => l) }
  | _ => x

/-- A bundle is held: nothing of it issues. The query or the flush that it waits for is sent once (R67, R312). At a boundary
the reports in flight become pending, at a release those of the shadow units (R310, R312, R369; assumption 67). -/
def State.recordHold (s : State) (h : Hold) : State :=
  let s1 := (s.holdFor h).updCur (fun x => x.heldOn h)
  match h with
  | .residency .. => if s.cur.hold = h then s1 else s1.after (.residencyAnswer s.issue.core s.issue.sec)
  | .fetch => s1.sendFetch s.issue.core s.issue.sec
  | .phase .. => s1.updCurCtx (fun x => x.flushReports s.issue.sec false)
  | .rel true false =>
    (match s.cur.hold with
     | .rel true _ => s1.updCurCtx (fun x => x.flushReports s.issue.sec true)
     | _ => (s1.updCurCtx (fun x => x.flushReports s.issue.sec true)).after (.hostWindowFlushComplete s.issue.core s.issue.sec))
  | .rel .. => s1.updCurCtx (fun x => x.flushReports s.issue.sec true)
  | _ => s1

/-- A level of a loop set. -/
def LoopSet.level (l : LoopSet) (n : Nat) : LoopLevel := if n = 0 then l.l0 else l.l1

/-- What the shadow units of the lanes check of an instruction: its product and its sum (R368). -/
def shadowed (i : Instr) : Option (Bool × Bool) :=
  match i with
  | .fadd .. => some (false, true)
  | .fsub .. => some (false, true)
  | .fmul .. => some (true, false)
  | .fma .. => some (true, true)
  | .fms .. => some (true, true)
  | .fnma .. => some (true, true)
  | _ => none

/-- The checks that a bundle starts (R368, R369): they report within 4 cycles of the result, which takes 4. -/
def Stream.startChecks (x : Stream) (ins : List Instr) (now : Nat) : Stream :=
  let new := (ins.filterMap shadowed).map (fun k =>
    ({ by_ := now + 8, lands := x.sc + 4, product := k.1, sum := k.2 } : ShadowCheck))
  { x with checks := if new = [] then x.checks else Nat.max x.checks (now + 8)
           checking := x.checking.filter (fun k => now ≤ k.by_) ++ new }

/-- The least exponent that the checks of a format take (R368). -/
def shadowLow (w : Nat) : Int := if w = 64 then -1000 else -120

/-- A result is zero although the exact one is not: it was flushed (R149, R368). -/
def lostTo (exact : Option FVal) (r : FVal) : Bool :=
  match exact with
  | some x => x.expo.isSome && r.expo.isNone
  | none => false

/-- The check of one element of FADD, FSUB or FMUL: whether it diverges, and whether in a sum (R368). -/
def binaryShadow (b w : Nat) (mode : RMode) (ex : Bool) (op : FVal → FVal → Option FVal) (sum neg : Bool) (p q : Nat) :
    Option Bool :=
  let fm := fmtOfWidth w
  let x := (fm.operand ex p).1
  let y := (fm.operand ex q).1
  let r := fm.decode (fpBinary fm mode ex op p q).1
  if !(x.finite && y.finite && r.finite) || lostTo (op x y) r then none
  else if sum then (if addDiverges b (shadowLow w) x (if neg then y.negate else y) r then some true else none)
  else
    match mulVal x y, mulVal (x.roundFrac 8) (y.roundFrac 8) with
    | some e, some z => if productDiverges b (shadowLow w) e z then some false else none
    | _, _ => none

/-- The checks of one element of a fused operation: its product, then its sum (R368). -/
def fusedShadow (b w : Nat) (mode : RMode) (ex negP negC : Bool) (p q c : Nat) : Option Bool :=
  let fm := fmtOfWidth w
  let x := (fm.operand ex p).1
  let y := (fm.operand ex q).1
  let z := (fm.operand ex c).1
  let r := fm.decode (fpFused fm mode ex negP negC p q c).1
  match mulVal x y, mulVal (x.roundFrac 8) (y.roundFrac 8) with
  | some e, some g =>
    let u := if negP then e.negate else e
    let v := if negC then z.negate else z
    if !(x.finite && y.finite) then none
    else if productDiverges b (shadowLow w) e g then some false
    else if z.finite && r.finite && !lostTo (addVal mode u v) r && addDiverges b (shadowLow w) u v r then some true
    else none
  | _, _ => none

/-- ctl.tval of a divergence in the vector unit (R369). -/
def vectorRecord (c : CoreId) (lane cluster : Nat) (add : Bool) : Word :=
  BitVec.ofNat 64 (lane + 2 ^ 7 * cluster + 2 ^ 24 + (if add then 2 ^ 25 else 0) + 2 ^ 26 * c.val)

/-- The record of the first element that diverges, by lane and then by cluster (R369). -/
def firstVector (c : CoreId) (w : Nat) (on : Nat → Bool) (f : Nat → Option Bool) : Option Word :=
  (List.range 16).findSome? (fun l => (List.range 8).findSome? (fun k => (List.range (64 / w)).findSome? (fun i =>
    let n := (16 * k + l) * (64 / w) + i
    if on n then (f n).map (vectorRecord c l k) else none)))

/-- The divergence that the shadow units of the lanes find in an instruction that issues (R368, R369). A unit without fault
stays below 1.2 × 2^(e_max − 4), so only a bound of 1 can report it. -/
def State.vectorShadow (s : State) (i : Instr) : Option Word :=
  let b := shadowBound s.curCtx.shbound
  let src := fun (a : BitVec 7) (t : Bool) => s.vsrc a .flt (typeWidth t)
  let two := fun (p q : BitVec 7) (m : BitVec 3) (t : Bool) (op : FVal → FVal → Option FVal) (sum neg : Bool) =>
    firstVector s.issue.core (typeWidth t) (s.ven m (typeWidth t))
      (fun n => binaryShadow b (typeWidth t) s.rmode s.exposed op sum neg (src p t n) (src q t n))
  let three := fun (p q : BitVec 7) (c : BitVec 5) (t negP negC : Bool) =>
    firstVector s.issue.core (typeWidth t) allOn
      (fun n => fusedShadow b (typeWidth t) s.rmode s.exposed negP negC (src p t n) (src q t n) (src (c.setWidth 7) t n))
  if 2 ≤ b then none
  else
    match i with
    | .fadd _ p q m t => two p q m t (addVal s.rmode) true false
    | .fsub _ p q m t => two p q m t (subVal s.rmode) true true
    | .fmul _ p q m t => two p q m t mulVal false false
    | .fma _ p q c t => three p q c t false false
    | .fms _ p q c t => three p q c t false true
    | .fnma _ p q c t => three p q c t true false
    | _ => none

/-- What every bundle that issues leaves: no hold, the shadow checks under way and the divergences that they find, and the
parity errors that its sources met (R366, R368, R369). -/
def State.settleIssue (t : State) (ins : List Instr) (bad : List Word) : State :=
  let t1 := t.updCur (fun x => { x with hold := .none, answers := [], fetching := none
                                        passed := x.passed.filter (fun q => q.1 ≠ x.pc) }.startChecks ins t.now)
  let t1 := (ins.filterMap t.vectorShadow).foldl (fun s v => s.emit 8 (.report 0x06 v)) t1
  bad.foldl (fun s v => s.report s.issue.core s.issue.sec { cause := 0x11, tval := v }) t1

/-- The bundle that follows one that has issued whole (R181, R185, R186, R192): x is the stream before it. A LOOP's level
is installed after the end check. -/
def State.nextBundle (t : State) (x : Stream) (ins : List Instr) : State :=
  if t.issue.transfer || t.cur.halted then t.updCur (fun y => { y with ipc := x.pc, sc := y.sc + 1 })
  else
    let r := x.curLoops.next x.pc
    let l := match ins with
      | .loop level _ _ :: _ => r.1.put level.toNat (t.cur.curLoops.level level.toNat)
      | _ => r.1
    t.updCur (fun y => { y.setLoops l with pc := r.2, ipc := x.pc, sc := y.sc + 1 })

/-- Every counter whose field is not 31 is at or below its field (R188). -/
def Stream.countersMet (x : Stream) (ld st cp tl a : BitVec 5) : Bool :=
  let ok := fun (f : BitVec 5) (n : Nat) => f = 31#5 || n ≤ f.toNat
  ok ld x.ld && ok st x.st && ok cp x.cp && ok tl x.tl && ok a x.at_

/-- A bundle that a trap ends has not issued; a rendezvous whose verdict was that trap is used up all the same (R273). -/
def State.raiseOver (s : State) (t : State) (q : TrapReq) : State := (if t.issue.unmet then s.dropMeeting else s).raise q

/-- A bundle whose K slot ends it: TRAP, TRET and SWAP act once the other slots have issued (R345, R355, R365). -/
def State.issueLast (s : State) (ins : List Instr) (bad : List Word) : Answer :=
  match ins with
  | [] => .next s
  | k :: r =>
    match runSlots r s with
    | .next t =>
      (match t.issue.status with
       | .held h => .next (s.recordHold h)
       | .trapped q => .next (s.raiseOver t q)
       | _ => exec k (t.settleIssue ins bad))
    | o => o

/-- A WAITC whose counters are at or below its fields as its bundle issues does not freeze (R188). -/
def Stream.settleCounters (x : Stream) : Stream :=
  match x.wait with
  | .counters ld st cp tl a => if x.countersMet ld st cp tl a then { x with wait := .none } else x
  | _ => x

/-- An instruction of a C slot that starts a job (R94). -/
def startsJob (i : Instr) : Bool :=
  match i with
  | .cpy .. => true
  | .cpyd .. => true
  | .cpys .. => true
  | .ctab .. => true
  | .ego _ => true
  | .colj .. => true
  | _ => false

/-- Issue a decoded bundle of the issuing stream (R24, R25, R38 to R40, R94, R345, R366). -/
def State.issueBundle (s0 : State) (ins : List Instr) : Answer :=
  let s := { s0 with issue := { s0.issue with jobs := (ins.filter startsJob).length } }
  match privilegeFault s.cur ins with
  | some t => .next (s.raise t)
  | none =>
    if s.cur.inter && s.cur.stalled ins then .next (s.recordHold .hazard)
    else
      let bad := s.curCtx.parity s.issue.sec ins s.freeVal
      match runSlots ins s with
      | .next t =>
        (match t.issue.status with
         | .ok => .next (((t.settleIssue ins bad).nextBundle s.cur ins).updCur Stream.settleCounters)
         | .held h => .next (s.recordHold h)
         | .trapped q => .next (s.raiseOver t q)
         | .stopping _ => .next t
         | _ => s.issueLast ins bad)
      | o => o

/-- A stream is about to issue. -/
def State.beginIssue (s : State) (c : CoreId) (sec : Bool) : State :=
  { s with issue := { s.issue with core := c, sec := sec, status := .ok, transfer := false, pushed := 0, base := s.nextId, late := [], beside := [], jobs := 0, unmet := false } }

/-- A stream with a fetched bundle tries to issue it, beside a merged bundle whose tile operation takes some places (R23, R66,
R67, R85). -/
def State.attemptBeside (s : State) (c : CoreId) (sec : Bool) (f : Fetched) (beside : List (Nat × Nat)) : Answer :=
  let b := s.beginIssue c sec
  let s0 := { b with issue := { b.issue with beside := beside } }
  match f with
  | .fault _ => exec (.instructionFetchFault c sec) s0
  | .ask sh z => .next (s0.recordHold (.residency sh z))
  | .coming => .next (s0.recordHold .fetch)
  | .illegal i w => exec (.illegalEncoding (BitVec.ofNat 3 i) w) s0
  | .bundle _ ins => s0.issueBundle ins

/-- The same without one. -/
def State.attempt (s : State) (c : CoreId) (sec : Bool) (f : Fetched) : Answer := s.attemptBeside c sec f []

/-- The last attempt issued its bundle. -/
def IssueStatus.issued : IssueStatus → Bool
  | .ok => true
  | .software .. => true
  | .returning => true
  | _ => false

/-! ### Waits -/

/-- The freeze of a stream is over (R188, R189, R191, R355). -/
def State.waitOver (s : State) (c : CoreId) (sec : Bool) : Bool :=
  let x := s.stream c sec
  match x.wait with
  | .none => true
  | .counters ld st cp tl a => x.countersMet ld st cp tl a
  | .tags any _ _ mask _ => (s.ctx c).tagWaitMet any mask
  | .mode _ => x.inflight = []
  | .trapReturn => x.inflight = []
  | _ => false

/-- End a freeze that is over. A report that becomes pending as the condition of a wait comes true finds the stream still
frozen in it (R352; assumption 15). -/
def State.settleWait (s : State) (c : CoreId) (sec : Bool) : State :=
  if (s.core c).pause = some sec || !(s.stream c sec).live || (s.stream c sec).idle ≠ 0 || !s.waitOver c sec ||
      ((s.stream c sec).trapPlace (s.copyingOf c ≠ 0)).isSome then s
  else
    match (s.stream c sec).wait with
    | .counters .. => s.updStream c sec (fun x => { x with wait := .none })
    | .tags _ clr d mask _ => s.wakeTags c sec clr d mask
    | .mode inter => s.updStream c sec (fun x => { x with wait := .none, stat := setBitIf (x.stat &&& ~~~2) 1 inter })
    | .trapReturn => s.updStream c sec (fun x => x.leave x.sc)
    | _ => s

/-- One more live cycle of the timeouts of a wait (R190, R315). -/
def Wait.tick (w : Wait) : Wait :=
  match w with
  | .tags any clr d mask left => .tags any clr d mask (left.map (· - 1))
  | .addr w => .addr { w with left := w.left.map (· - 1), poll := if watched (regionOf w.ia) then w.poll else w.poll - 1 }
  | w => w

/-! ### A core's turn -/

/-- What a stream does in a cycle. -/
inductive Plan where
  /-- Nothing: it is not live, or frozen. -/
  | rest
  /-- Its stream cycle advances (R191, R192). -/
  | tick
  /-- An idle cycle after a control transfer (R181). -/
  | idle
  /-- A pending trap is taken (R345). -/
  | trap
  /-- Its next bundle may issue. -/
  | ready
deriving DecidableEq, Repr

/-- What a stream does in this cycle. -/
def State.plan (s : State) (c : CoreId) (sec : Bool) : Plan :=
  let x := s.stream c sec
  if x.halted then .tick
  else if !x.live || (s.core c).pause = some sec then .rest
  else if x.asking.isSome then .rest
  else if (x.trapPlace (s.copyingOf c ≠ 0)).isSome then .trap
  else if x.idle ≠ 0 then .idle
  else
    match x.wait with
    | .none => .ready
    | .mode _ => .tick
    | .trapReturn => .tick
    | _ => .rest

/-- The core is running: a live context, no swap, no slice transfer (R335, R361). -/
def State.running (s : State) (c : CoreId) : Bool :=
  (s.core c).live && (s.core c).swapEnd ≤ s.now && !(s.core c).sliceBusy

/-- A stream's part of a cycle in which it has no bundle to issue. -/
def State.pass (s : State) (c : CoreId) (sec : Bool) (p : Plan) : Answer :=
  match p with
  | .tick => .next (s.updStream c sec (fun x => { x with sc := x.sc + 1 }))
  | .idle => .next (s.updStream c sec (fun x => { x with sc := x.sc + 1, idle := x.idle - 1 }))
  | .trap => exec (.deferredTrapTake c sec) s
  | _ => .next s

/-- MergeOK (R37). -/
def mergeOk (p q : List SlotWord) : Bool := (List.zipWith (fun a b => a = 0#32 || b = 0#32) p q).all id

/-- The secondary's bundle meets a primary bundle that leaves it no room: it is decoded and traps for its own sake, if it
does so, without waiting (R25). -/
def State.mergeWaits (s : State) (c : CoreId) (w : Option (List SlotWord)) (f : Fetched) : Bool :=
  match w, f with
  | some a, .bundle b ins => !mergeOk a b && (privilegeFault (s.stream c true) ins).isNone
  | _, _ => false

/-- The secondary tries its bundle, and its wait ends where it issues (R338). -/
def State.secondaryIssue (s : State) (c : CoreId) (f : Fetched) (beside : List (Nat × Nat)) : Answer :=
  match s.attemptBeside c true f beside with
  | .next t => .next (if t.issue.status.issued then t.updStream c true (fun x => { x with waitCount := 0 }) else t)
  | o => o

/-- The secondary's part of a cycle (R25, R37, R338): w is the primary's bundle, if it has issued one. A bundle that
waits to merge is counted where it is not frozen: where alone it would not have been held. -/
def State.secondaryTurn (s : State) (c : CoreId) (p : Plan) (f : Fetched) (w : Option (List SlotWord)) : Answer :=
  if p ≠ .ready then s.pass c true p
  else if s.mergeWaits c w f then
    match s.attempt c true f with
    | .next t =>
      (match t.issue.status with
       | .held _ => .next t
       | _ => .next (s.updStream c true (fun x => { x with waitCount := Nat.min 15 (x.waitCount + 1) })))
    | o => o
  else s.secondaryIssue c f []

/-- A trap reported for a stream after its HALT stops it (R192). -/
def State.stopHalted (s : State) (c : CoreId) (sec : Bool) : State :=
  let x := s.stream c sec
  match x.pending with
  | t :: _ => if x.halted && x.stopped.isNone then s.stopStream c sec t x.pc else s
  | [] => s

/-- The secondary's bundle would issue if the primary left it room (R338): neither frozen nor idle, and not held. -/
def State.secondaryWould (s : State) (c : CoreId) : Bool :=
  s.plan c true = .ready &&
    (match s.attempt c true (s.fetch c true) with
     | .next t => (match t.issue.status with | .held _ => false | _ => true)
     | _ => false)

/-- Two bundles merge (R37). -/
def Fetched.merges (f g : Fetched) : Bool :=
  match f, g with
  | .bundle a _, .bundle b _ => mergeOk a b
  | _, _ => false

/-- A slot of a bundle is occupied. -/
def Fetched.has (f : Fetched) (slot : Nat) : Bool :=
  match f with
  | .bundle a _ => a.getD slot 0 ≠ 0#32
  | _ => false

/-- A merged secondary acts first: its job lies in a lower C slot than the primary's and enters its scheduler first (R94,
R104). -/
def secondaryFirst (fp fq : Fetched) : Bool := fp.merges fq && fp.has 7 && fq.has 6

/-- Bank and row of the places that step 0 of the tile operation of a stream's bundle takes, if that bundle issues (R118). -/
def State.stepZero (s : State) (c : CoreId) (sec : Bool) (f : Fetched) : List (Nat × Nat) :=
  match s.attempt c sec f with
  | .next t =>
    if t.issue.status.issued then
      match (t.ctx c).feedAt s.now 2 with
      | some (o, j) => if s.nextId ≤ o.id && j = 0 then (o.stepPlaces c 0).map (fun p => (p.bank, p.row)) else []
      | none => []
    else []
  | _ => []

/-- The places of the merged bundle's step 0 that the L slot of the bundle that acts first is decided against (R120). -/
def State.besideOf (s : State) (c : CoreId) (sec : Bool) (first other : Fetched) : List (Nat × Nat) :=
  if first.merges other && first.has 2 && other.has 5 then s.stepZero c sec other else []

/-- Both streams of a running core: the primary first, then the secondary, alone or merged (R37, R338). -/
def State.bothStreams (s : State) (c : CoreId) : Answer :=
  let s1 := (((s.stopHalted c false).stopHalted c true).settleWait c false).settleWait c true
  let p := s1.plan c false
  let q := s1.plan c true
  let s2 := if p = .ready then s1.fetchRead c false else s1
  let s3 := if q = .ready then s2.fetchRead c true else s2
  let fp := s3.fetch c false
  let fq := s3.fetch c true
  let held := (s3.core c).primHeld || (q = .ready && (s3.stream c true).waitCount = 15 && s3.secondaryWould c)
  let first : Answer × Bool :=
    if p ≠ .ready then (s3.pass c false p, false)
    else if held then (.next s3, false)
    else (s3.attemptBeside c false fp (if q = .ready then s3.besideOf c true fp fq else []), true)
  if p = .ready && q = .ready && !held && secondaryFirst fp fq then
    match s3.secondaryIssue c fq (s3.besideOf c false fq fp) with
    | .next t => if t.running c then t.attempt c false fp else .next t
    | o => o
  else match first.1 with
  | .next t =>
    if !t.running c then .next t
    else t.secondaryTurn c q fq (match fp with
      | .bundle b _ => if first.2 && t.issue.status.issued then some b else none
      | _ => none)
  | o => o

/-- The turn of a core. -/
def State.turnOf (s : State) (c : CoreId) : Answer :=
  if s.running c then { s with issue := { s.issue with tagsNamed := 0 } }.bothStreams c else .next s

/-! ### The end of a cycle -/

/-- The timeouts of a stream and what was marked for this cycle only. -/
def Stream.endCycle (x : Stream) (running : Bool) : Stream :=
  { x with fresh := 0, wait := if running && x.idle = 0 then x.wait.tick else x.wait }

/-- The same for a context. -/
def Ctx.endCycle (x : Ctx) (running : Bool) : Ctx :=
  { x with prim := x.prim.endCycle running, sec := x.sec.endCycle running, strFresh := 0, cubeFresh := 0 }

/-- The clock of a core, its balance and its frame (R164, R396), and what was marked for this cycle only. -/
def Core.endCycle (k : Core) (running : Bool) : Core :=
  let turn := (k.cyc + 1).toNat % 16 = 0
  { k with
    cyc := k.cyc + 1
    ctx := k.ctx.endCycle running
    balance := Nat.min 131072 (k.balance + k.rate)
    framePrev := if turn then k.frameCost else k.framePrev
    frameCost := if turn then 0 else k.frameCost
    thrFresh := 0, fed := false, evaluated := false, primHeld := false, pause := none, granted := [] }

/-- The end of a cycle on one core (R111, R118, R190, R356). -/
def State.endCore (s : State) (c : CoreId) : State :=
  let r := s.running c
  (s.landEndWrites c).updCore c (fun k => { k.endCycle r with booked := k.booked.filter (fun b => s.now < b.1) })

/-- Cycles of a tick of 1 ms (R336, R401). -/
def tickCycles : Nat := 1600000

/-- The end of a cycle of the device. -/
def State.endCycle (s : State) : State :=
  let s1 := [(0 : CoreId), 1, 2, 3, 4, 5, 6, 7].foldl State.endCore s
  let s2 := { s1 with now := s.now + 1, turn := 0, hub := { s1.hub with d2dResends := Vector.replicate 14 0 } }
  let s3 := if s2.windowOpens then s2.reconsider else s2
  if s3.now % tickCycles = 0 then (s3.afterN 0 .reservationTick).afterN 0 .budgetTick else s3

/-- The turn of the next core, or the next cycle after that of core 7. -/
def State.passTurn (s : State) : State :=
  if h : s.turn.val < 7 then { s with turn := ⟨s.turn.val + 1, by omega⟩ } else s.endCycle

/-- One core's part of a cycle. -/
def State.takeTurn (s : State) : Answer :=
  match s.turnOf s.turn with
  | .next t => .next t.passTurn
  | o => o

/-! ### The events that the machine raises by itself -/

/-- The next stream cycle of a stream begins in this cycle: it is neither paused nor held for the secondary bundle, and
no freeze after a bundle that has issued keeps it (R40, R190). -/
def State.flows (s : State) (c : CoreId) (sec : Bool) : Bool :=
  let x := s.stream c sec
  x.halted || (x.live && x.asking.isNone && (s.core c).pause ≠ some sec && (sec || !(s.core c).primHeld) &&
    (match x.wait with
     | .none => true
     | .mode _ => true
     | .trapReturn => true
     | _ => x.idle ≠ 0 || (s.waitOver c sec && (x.trapPlace (s.copyingOf c ≠ 0)).isNone)))

/-- Results of a stream land in this cycle: those due at the stream cycle that begins (R40, R43). -/
def State.lands (s : State) (c : CoreId) (sec : Bool) : Bool :=
  s.running c && s.flows c sec && (s.stream c sec).inflight.any (fun l => l.due ≤ (s.stream c sec).sc)

/-- An event of a stream that stands at the start of a cycle. The results of the primary stream come last (R339). -/
def State.streamEvent (s : State) (c : CoreId) (sec : Bool) : Option Instr :=
  let x := s.stream c sec
  if sec && s.lands c true then some (.resultLanding c true)
  else if !x.live || x.idle ≠ 0 then none
  else
    match x.wait with
    | .tags _ _ _ _ (some 0) =>
      if s.waitOver c sec || (x.trapPlace (s.copyingOf c ≠ 0)).isSome then none else some (.waitTimeout c sec)
    | .addr w =>
      if s.waddrMet c sec then some (.waddrWake c sec)
      else if w.poll = 0 && w.sent.isNone then some (.waddrPoll c sec)
      else if w.left = some 0 then some (.waddrTimeout c sec)
      else none
    | _ =>
      if s.mayArrive c sec || s.mayJoin c sec then some (.phaseArrival c sec)
      else if s.boundaryReady c sec ≠ 0 then some (.phaseBoundaryComplete c sec)
      else if (s.gangMeeting c sec).isSome then some (.gangRendezvous c sec)
      else none

/-- The primary would issue in this cycle. -/
def State.primaryReady (s : State) (c : CoreId) : Bool :=
  let x := s.stream c false
  x.live && x.asking.isNone && x.idle = 0 && s.waitOver c false && (x.trapPlace (s.copyingOf c ≠ 0)).isNone

/-- The wait of the secondary's bundle has reached its bound, and the bundle would issue once the results due in this
cycle have landed (R338). -/
def State.mergeBound (s : State) (c : CoreId) : Bool :=
  s.running c && (s.stream c true).waitCount = 15 && !(s.core c).primHeld && s.primaryReady c &&
    (let land := fun (s : State) (b : Bool) => if s.lands c b then s.updCtx c (fun x => x.landUpTo b (x.stream b).sc) else s
     let t := (land (land s true) false).settleWait c true
     t.secondaryWould c)

/-- A corrected word whose sub-bank is free in this cycle (R121, R123). -/
def State.rewritable (s : State) (c : CoreId) : Option Nat :=
  (if (s.core c).raw then none else (s.core c).writeback.find? (fun u => !s.bankTaken c (slicePlace (u - sliceBase c.val)).index)).map
    (fun u => (u - sliceBase c.val) / 8)

/-- Cycles between two patrol reads of a slice: every word is read within a second (R3, R124; assumption 70). -/
def patrolCycles : Nat := 127

/-- The word that the patrol of a slice is due to read, once its sub-bank is free (R121, R124). -/
def State.patrolWord (s : State) (c : CoreId) : Option Nat :=
  let w := (s.core c).patrol % (sliceBytes / 8)
  if patrolCycles * ((s.core c).patrol + 1) ≤ s.now && !s.bankTaken c (slicePlace (8 * w)).index && !(s.core c).raw then some w else none

/-- An event of a core that stands at the start of a cycle. -/
def State.coreEvent (s : State) (c : CoreId) : Option Instr :=
  let k := s.core c
  if k.cyc.toNat % 1024 = 0 && !k.evaluated then some (.regulatorEvaluate c k.sensor)
  else if s.mergeBound c then some (.mergeWaitLimit c)
  else if !k.fed && (match s.feedHead c with | some t => decide (t.ready ≤ s.now) | none => false) then some (.feedStep c)
  else
    let own := if s.running c then (s.streamEvent c true).orElse (fun _ => s.streamEvent c false) else none
    own.orElse (fun _ =>
        match k.remote.find? (fun r => s.mayGrant c r.bank), s.rewritable c with
        | some r, _ => some (.remoteRequestGrant c r.bank)
        | none, some w => some (.sliceWordWriteback c w)
        | none, none =>
          match s.patrolWord c with
          | some w => some (.slicePatrolRead c w)
          | none => (s.readyJobs c).head?.map (fun j => .jobStart c j.id))

/-- The event that stands at the start of a cycle, if there is one, but for the landing of primary results. -/
def State.standing (s : State) : Option Instr :=
  ([(0 : CoreId), 1, 2, 3, 4, 5, 6, 7].findSome? s.coreEvent).orElse (fun _ =>
    ((s.hub.packets.find? s.waitMet).map (fun p => .waitPacketMet p.key)).orElse (fun _ =>
      (s.tasks.find? (fun t => s.taskHalted t || s.taskDone t)).map (fun t => .taskRetire t.key)))

/-- The landing of a primary stream's results: where both streams write one unit in a cycle, the primary's result stays,
so it comes last (R152, R339). -/
def State.primaryLanding (s : State) : Option Instr :=
  ([(0 : CoreId), 1, 2, 3, 4, 5, 6, 7].find? (fun c => s.lands c false)).map (fun c => .resultLanding c false)

/-- Every event that stands at the start of a cycle. -/
def State.nextEvent (s : State) : Option Instr := s.standing.orElse (fun _ => s.primaryLanding)

/-- An event under way is the return of a primary stream's load, which comes after what the secondary writes in the
cycle (R152, R339). -/
def State.primaryReturn (s : State) (i : Instr) : Bool :=
  match i with
  | .loadDataReturn c id => (match (s.core c).opBank id with | some (_, sec, _) => !sec | none => false)
  | _ => false

/-- An event from outside: only rows that are events (R-numbers in their meanings). -/
def State.takeInput (s : State) (i : Instr) (rest : List Instr) : Answer :=
  if i.slot.isSome then .next { s with inputs := rest } else exec i { s with inputs := rest }

/-- An event under way acts. -/
def State.takeDue (s : State) (e : Nat × Instr) : Answer := exec e.2 { s with agenda := s.agenda.erase e }

/-- What the machine does at the start of a cycle: events from outside, then events that are due, then those that
stand, then the returns of primary loads and the landing of primary results; with none left the first core takes its
turn. -/
def State.startCycle (s : State) : Answer :=
  match s.inputs with
  | i :: r => s.takeInput i r
  | [] =>
    match s.agenda.find? (fun e => e.1 ≤ s.now && !s.primaryReturn e.2), s.standing,
        s.agenda.find? (fun e => e.1 ≤ s.now), s.primaryLanding with
    | some e, _, _, _ => s.takeDue e
    | none, some i, _, _ => exec i s
    | none, none, some e, _ => s.takeDue e
    | none, none, none, some i => exec i s
    | none, none, none, none => s.takeTurn

end Sys2Proof.Machine
end

