-- ==== Sys2Proof/Machine/Step.lean ====
section
/-! DEFINITION. One step of the machine, and a machine about to run one slot word. -/

namespace Sys2Proof.Machine

/-- One step: an event at the start of a cycle, or the turn of one core. With the rails down the machine stops, until
it is powered on again (R402). -/
def step (s : State) : Host.Outcome State Fault Refusal :=
  if !s.hub.railsUp && s.inputs.head? ≠ some .powerOnReset then .fault .noPower
  else if s.turn = 0 then s.startCycle
  else s.takeTurn

/-- The primary stream of withFetchWord: live and free to issue. -/
def Stream.mayFetch (x : Stream) (now : Nat) : Stream :=
  { x with live := true, halted := false, stopped := none, wait := .none, asking := none, fetching := none, hold := .none, idle := 0, pending := [], answers := []
           waitCount := 0, snap := now, own := [], pc := if x.pc.toNat < 2 ^ 51 then x.pc else 0 }

/-- Its context: window 0 maps the bundle's 64 KiB to the second MiB of package memory, readable, and the secondary
stream does not run. -/
def Ctx.mayFetch (x : Ctx) (now : Nat) : Ctx :=
  let p := x.prim.mayFetch now
  { x with prim := p, sec := { x.sec with live := false, halted := false }
           win := (((x.win.set 0 (putBits p.pcWord 0 16 0)).set 1 1).set 2 0x100000).set 3 1 }

/-- The IA of the bundle in that window. -/
def Stream.fetchIa (x : Stream) : Nat := 0x100000 + x.pcWord.toNat % 65536

/-- Store one slot word, alone in a bundle, where core 1's primary stream fetches next, and give core 1 its turn. The
word goes to the lowest slot index in which it decodes (assumption 3); how a program comes to run from reset is
assumption 14. -/
def State.withFetchWord (s : State) (_nbits w : Nat) : State :=
  let word := BitVec.ofNat 32 w
  let slot := ((loneSlot word loneSlots).map (·.1)).getD 0
  let x := (s.ctx 1).mayFetch s.now
  let ia := x.prim.fetchIa
  let s1 := s.updCore 1 (fun k =>
    { k with live := true, ctx := x, swapEnd := 0, sliceBusy := false, pause := none, primHeld := false
             resCache := shareOf ia :: k.resCache })
  { s1 with
    turn := 1
    hub := { s1.hub with railsUp := true }
    mem := Memory.putAll s1.mem (atAddr ia (bundleBytes slot word))
    poison := s1.poison.filter (· ≠ unitOf ia)
    fatals := s1.fatals.filter (fun w => lineOf w ≠ lineOf ia)
    log := s1.log.filter (fun e => e.line ≠ lineOf ia) }

end Sys2Proof.Machine
end

