-- ==== Sys2Proof/Safety.lean ====
section
/-! DEFINITION. What counts as a safe run: the machine goes on, and memory and the tables of the state keep their
canonical form. -/

namespace Sys2Proof.Machine

/-- The rails are up, or the next event from outside powers the device on (R402). -/
def State.powered (s : State) : Bool := s.hub.railsUp || s.inputs.head? = some .powerOnReset

/-- Memory is in its one canonical form: addresses rise strictly and no listed byte is 0 (R52); and so is the page
table of every home, its entries rising strictly and none of them 0 (R60). -/
def State.canonical (s : State) : Prop := Memory.wf s.mem = true ∧ ∀ h : CoreId, twf 0 (s.home h).pte = true

/-- One step of the machine leads from s to t. -/
def Steps (s t : State) : Prop := step s = .next t

/-- t is reached from s in some number of steps. -/
inductive Reaches (s : State) : State → Prop where
  | start : Reaches s s
  | more {t u : State} (h : Reaches s t) (hs : Steps t u) : Reaches s u

/-- A run of n steps from s meets no fault and no refusal. -/
def SafeRun (s : State) (n : Nat) : Prop := ∃ t, Sys2Proof.core.run n s = .next t

/-- An invariant that every step keeps. -/
def KeptByStep (P : State → Prop) : Prop := ∀ s t, P s → Steps s t → P t

end Sys2Proof.Machine
end

