-- ==== Sys2Proof/Certificates/Slice0/Obligations.lean ====
section
/-! DEFINITION. The statements for the provers, one for each rule or group of rules of the spec, and the words in which
they are said. -/

namespace Sys2Proof.Claims

open Sys2Proof.Machine

/-! ### Words of the statements -/

/-- The instruction completes at issue with one result in flight: destination d, due lat stream cycles after the issue
(R40); nothing else of the machine changes. -/
def Lands (i : Instr) (s : State) (lat : Nat) (d : Dest) : Prop :=
  exec i s = .next (s.updCur (fun x => { x with inflight := x.inflight ++ [{ due := x.sc + lat, dest := d }] }))

/-- The instruction completes with the scalar result s_d := v of latency lat (R40, R165). -/
def Writes (i : Instr) (s : State) (lat : Nat) (d : BitVec 6) (v : Word) : Prop := Lands i s lat (.scalar d v)

/-- The predicates p0 to p6 that a predicate number names: none for p7 (R165). -/
def onePred (p : BitVec 3) : BitVec 7 := if p = 7 then 0 else 1#7 <<< p.toNat

/-- The instruction completes with the predicate result pd := b of latency 1 (R41, R165). -/
def SetsPred (i : Instr) (s : State) (p : BitVec 3) (b : Bool) : Prop :=
  Lands i s 1 (.pred (onePred p) (if b then onePred p else 0))

/-- The instruction completes with no effect at all. -/
def Nothing (i : Instr) (s : State) : Prop := exec i s = .next s

/-- SInt of bits 31:0 or of all 64 bits (R167). -/
def sintOf (w : Bool) (x : Word) : Int := if w then (x.setWidth 32).toInt else x.toInt

/-- What IntArith writes for the exact integer x (R167). -/
def arithResult (w sat : Bool) (x : Int) : Word :=
  let n : Nat := if w then 31 else 63
  let y : Int := if sat then (if x < -(2 ^ n) then -(2 ^ n) else if 2 ^ n - 1 < x then 2 ^ n - 1 else x) else x
  if w then (BitVec.ofInt 32 y).signExtend 64 else BitVec.ofInt 64 y

/-- The scalar, predicate, loop and trap registers of a stream, its ring, and its counters, apart from the work in
flight. -/
structure SameRegs (x y : Stream) : Prop where
  scalars : ∀ r, y.rs r = x.rs r
  preds : ∀ n, y.rp n = x.rp n
  ring : y.ring = x.ring
  stat : y.stat = x.stat
  fflags : y.fflags = x.fflags
  seed : y.seed = x.seed
  gens : y.gens = x.gens
  traps : y.tpc = x.tpc ∧ y.tstat = x.tstat ∧ y.tcause = x.tcause ∧ y.tval = x.tval ∧ y.tvec = x.tvec
  counts : y.counts = x.counts

/-- The vector, mask, stream, accumulator, engine and window registers of a context, and its control registers. -/
structure SameCtx (x y : Ctx) : Prop where
  vectors : ∀ r, y.rv r = x.rv r
  masks : ∀ n, y.rm n = x.rm n
  streams : ∀ n, y.rstr n = x.rstr n
  acc : y.acc = x.acc
  accw : y.accw = x.accw
  plane : y.plane = x.plane
  win : y.win = x.win
  tags : y.tags = x.tags ∧ y.tagBusy = x.tagBusy ∧ y.tagStatus = x.tagStatus
  engine : y.e = x.e
  codes : y.codes = x.codes
  ctl : y.cperr = x.cperr ∧ y.shbound = x.shbound ∧ y.domain = x.domain ∧ y.rns = x.rns ∧ y.rnsstat = x.rnsstat ∧ y.chk = x.chk

/-- Every byte of memory reads as before. -/
def SameMemory (s t : State) : Prop := ∀ a, Memory.get t.mem a = Memory.get s.mem a

/-- Nothing is saved, stopped or pending: the stream stands ready to issue its next bundle alone. -/
structure Alone (s : State) (c : CoreId) : Prop where
  turn : s.turn = c
  rails : s.hub.railsUp = true
  quiet : c = 0 → s.inputs = [] ∧ s.agenda.find? (fun e => e.1 ≤ s.now) = none ∧ s.nextEvent = none
  running : s.running c = true
  live : (s.stream c false).live = true
  going : (s.stream c false).halted = false
  free : (s.stream c false).pending = [] ∧ (s.stream c false).wait = .none ∧ (s.stream c false).idle = 0 ∧
    (s.stream c false).asking = none
  pause : (s.core c).pause = none ∧ (s.core c).primHeld = false
  other : (s.stream c true).live = false ∧ (s.stream c true).halted = false ∧ (s.stream c true).pending = []

/-- The state in which that stream's bundle issues: its line has been read, and its jobs are counted (R94). -/
def issuing (s : State) (c : CoreId) (ins : List Instr) : State :=
  let b := ({ s with issue := { s.issue with tagsNamed := 0 } }.fetchRead c false).beginIssue c false
  { b with issue := { b.issue with jobs := (ins.filter startsJob).length } }

/-- R173: what CMP and CMPI compare. With .w, bits 31:0 of both operands: signed for conditions 2 to 5, unsigned for the
others. -/
def compares (cond : BitVec 4) (x y : Word) (w : Bool) : Bool :=
  let i := fun (z : Word) => if w then (z.setWidth 32).toInt else z.toInt
  let n := fun (z : Word) => if w then (z.setWidth 32).toNat else z.toNat
  if cond = 0 then decide (n x = n y) else if cond = 1 then decide (n x ≠ n y)
  else if cond = 2 then decide (i x < i y) else if cond = 3 then decide (i x ≥ i y)
  else if cond = 4 then decide (i x ≤ i y) else if cond = 5 then decide (i x > i y)
  else if cond = 6 then decide (n x < n y) else if cond = 7 then decide (n x ≥ n y)
  else if cond = 8 then decide (n x ≤ n y) else if cond = 9 then decide (n x > n y)
  else if cond = 10 then decide (n (x &&& y) ≠ 0) else decide (n (x &&& y) = 0)

/-- A stream has entered its handler from x to y by a trap at the bundle at (its address divided by 32): the saved
registers, HND, the handler's loops cleared, the handler's address, and its results in flight put into latches (R347,
R351, R353). -/
structure Entered (x y : Stream) (place : BitVec 59) (cause : BitVec 8) (tval : Word) (deferred waiting : Bool)
    (code : BitVec 14) : Prop where
  tpc : y.tpc = place ++ 0#5
  tstat : y.tstat = x.stat &&& 0x7FFF
  tcause : y.tcause = cause.setWidth 64 ||| (if deferred then 0x200 else 0) ||| (if waiting then 0x100 else 0) |||
    code.setWidth 64 <<< 10
  tval : y.tval = tval
  stat : y.stat = x.stat ||| 8
  loops : y.hloops = LoopSet.reset
  handler : y.pc = x.tvec.extractLsb' 5 59 ∧ y.tvec = x.tvec
  flight : y.inflight = []
  wait : y.wait = .none ∧ y.hold = .none ∧ y.idle = 2

/-- The issuing stream has taken an immediate trap precisely at its bundle, and no byte of memory has changed. -/
def TrapTaken (s t : State) (cause : BitVec 8) (tval : Word) : Prop :=
  t.issue.status = .trapped { cause := cause, tval := tval } ∧ Entered s.cur t.cur s.cur.pc cause tval false false 0 ∧
  SameMemory s t

/-- A stream takes traps: it is in no handler and ctl.tvec is valid (R353). -/
def Handles (x : Stream) : Prop := x.hnd = false ∧ x.tvec.getLsbD 0 = true

/-- A control transfer of the issuing stream to a bundle, with results put in flight (R181). -/
structure Transfers (s t : State) (target : BitVec 59) (links : List Landing) : Prop where
  pc : t.cur.pc = target
  idle : t.cur.idle = 2
  made : t.issue.transfer = true
  links : t.cur.inflight = s.cur.inflight ++ links
  loops : t.cur.loops = s.cur.loops ∧ t.cur.hloops = s.cur.hloops
  regs : SameRegs s.cur t.cur
  ctx : SameCtx s.curCtx t.curCtx
  memory : SameMemory s t

/-- The issuing stream is left frozen in a wait by a bundle that issues whole (R190). -/
def Freezes (i : Instr) (s : State) (w : Wait) : Prop := exec i s = .next (s.updCur (fun x => { x with wait := w }))

/-- A stream has woken with a scalar result that lands two stream cycles later (R189, R315, R341, R365, R390). -/
def Woken (x y : Stream) (d : BitVec 6) (v : Word) : Prop :=
  y.wait = .none ∧ y.inflight = x.inflight ++ [{ due := x.sc + 2, dest := .scalar d v }] ∧ SameRegs x y

/-- The window lookup of an access succeeds (R57). -/
def Translates (s : State) (ea : Word) (n : Nat) (k : AccessKind) (ia : Nat) (attr : BitVec 6) : Prop :=
  translate s.curCtx.win ea n k = some (ia, attr)

/-- Every share that a range touches is confirmed present: the core's residency cache holds it (R67). -/
def Confirmed (s : State) (shares : List (Nat × Word)) : Prop := ∀ p ∈ shares, s.curCore.holds p.1 = true

/-- An event is under way. -/
def UnderWay (s : State) (i : Instr) : Prop := ∃ n, (n, i) ∈ s.agenda ∧ s.now < n

end Sys2Proof.Claims

open Sys2Proof Sys2Proof.Machine Sys2Proof.Claims

/-! ### Encoding -/

/-- R20 to R36: every well-formed encoded instruction has a word, and decoding it in its slot class gives the
instruction back, with every operand at every value that its encoding admits; the zero word is NOP in every slot. -/
def Obligations.DecodeEncodeRoundTrip : Prop :=
  (∀ (i : Instr) (c : SlotClass), i.slot = some c → i.wf = true → ∃ w, encode i = some w ∧ decode c w = .ok i) ∧
  (∀ c, decode c 0 = .ok .nop)

/-- R21 to R23: what the decoder accepts is a well-formed instruction of that slot class whose encoding is the word
itself, so no bit of an accepted word is ignored and no two words of a class decode alike. -/
def Obligations.DecodedIsWellFormed : Prop :=
  (∀ (c : SlotClass) (w : SlotWord) (i : Instr), decode c w = .ok i →
    i.wf = true ∧ encode i = some w ∧ (i = .nop ∨ i.slot = some c)) ∧
  (∀ (c : SlotClass) (v w : SlotWord) (i : Instr), decode c v = .ok i → decode c w = .ok i → v = w)

/-- Words that the spec itself writes out (R59, R102, R192, R245, R265, R275, R291, R310, R312, R340 to R342, R355, R356
and the worked examples of the encoding), one or more for each slot class, decode to the instruction they stand for. -/
def Obligations.DecodesWrittenWords : Prop :=
  decode .K 0x1401C002#32 = .ok (.loop 0 7 2) ∧
  decode .K 0x28000000#32 = .ok (.halt 0) ∧
  decode .K 0x2C500003#32 = .ok (.phase 5 3) ∧
  decode .K 0x30000005#32 = .ok (.rel 5) ∧
  decode .K 0x3C328001#32 = .ok (.strtReg 3 10) ∧
  decode .K 0x44524003#32 = .ok (.domj 5 9 false 3) ∧
  decode .K 0x48000007#32 = .ok (.trap 0 7) ∧
  decode .K 0x54018001#32 = .ok (.wrctl 6 1) ∧
  decode .K 0x58524A03#32 = .ok (.range 5 9 10 false true true) ∧
  decode .S 0x5C5003E8#32 = .ok (.movi 5 1000) ∧
  decode .S 0x0C924040#32 = .ok (.addi 9 9 64) ∧
  decode .S 0x04618800#32 = .ok (.add 6 6 8 false false) ∧
  decode .L 0x08920600#32 = .ok (.st 9 8 0 3 0) ∧
  decode .L 0x28550107#32 = .ok (.atom 5 20 1 0 3 true) ∧
  decode .V 0x88887081#32 = .ok (.pack 8 67 66 0 1) ∧
  decode .M 0x05042045#32 = .ok (.mma 1 0 4 8 2 false true true) ∧
  decode .M 0x18630009#32 = .ok (.mdrn 6 12 0 false false false 1 1) ∧
  decode .M 0x24000400#32 = .ok (.rnsx true 0 0) ∧
  decode .C 0x04240000#32 = .ok (.cpy 2 16 false false false 0) ∧
  decode .K 0#32 = .ok .nop

/-! ### The machine as a whole -/

/-- R20, R25, R38, R40, R186: when the line at the program counter decodes to a bundle and its stream issues alone, a step
is the issue of that bundle. All slots act on the state of the issue; then the bundle that follows is chosen. A held or
trapped bundle leaves nothing but its hold or its trap. Where one slot alone is no NOP, the step runs exactly that
instruction. -/
def Sys2Proof.Claims.StepRunsDecodedBundle : Prop :=
  ∀ (s : State) (c : CoreId) (ia : Nat) (attr : BitVec 6) (ins : List Instr), Alone s c →
    let r := { s with issue := { s.issue with tagsNamed := 0 } }.fetchRead c false
    let u := issuing s c ins
    r.fetchPlace c false = .at_ ia attr → r.fetchLink c false ia = .here →
    r.firstPoison ((addrs ia 32).map (r.servedAt c (attrRep attr))) = none →
    decodeBundle (r.fetchBytes c false ia) = .ok ins →
    privilegeFault u.cur ins = none → (u.cur.inter && u.cur.stalled ins) = false →
    let bad := u.curCtx.parity false ins u.freeVal
    (∀ t, runSlots ins u = .next t → t.issue.status = .ok →
      step s = .next (((t.settleIssue ins bad).nextBundle u.cur ins).updCur Stream.settleCounters).passTurn) ∧
    (∀ t h, runSlots ins u = .next t → t.issue.status = .held h → step s = .next (u.recordHold h).passTurn) ∧
    (∀ t q, runSlots ins u = .next t → t.issue.status = .trapped q → step s = .next (u.raiseOver t q).passTurn) ∧
    (∀ i t, ins.filter (fun k => k ≠ .nop) = [i] → exec i u = .next t → runSlots ins u = .next t)

/-- The bundle of a TRAP, TRET or SWAP in its K slot, with no other instruction: the step runs the K slot on the state in
which its bundle has issued (R345, R355, R365). -/
def Sys2Proof.Claims.StepRunsLastSlotAlone : Prop :=
  ∀ (s : State) (c : CoreId) (ia : Nat) (attr : BitVec 6) (k : Instr) (t t' : State), Alone s c →
    let r := { s with issue := { s.issue with tagsNamed := 0 } }.fetchRead c false
    let ins := [k, .nop, .nop, .nop, .nop, .nop, .nop, .nop]
    let u := issuing s c ins
    r.fetchPlace c false = .at_ ia attr → r.fetchLink c false ia = .here → r.firstPoison ((addrs ia 32).map (r.servedAt c (attrRep attr))) = none →
    decodeBundle (r.fetchBytes c false ia) = .ok ins →
    privilegeFault u.cur ins = none → (u.cur.inter && u.cur.stalled ins) = false →
    exec k u = .next t → ((∃ q code, t.issue.status = .software q code) ∨ t.issue.status = .returning) →
    exec k (u.settleIssue ins (u.curCtx.parity false ins u.freeVal)) = .next t' →
    step s = .next t'.passTurn

/-- The machine stops nowhere but without power: every instruction and event answers a next state in every state, and so
does every step of a machine whose rails are up or that is being powered on (R402). -/
def Obligations.OnlyPowerStops : Prop :=
  (∀ (i : Instr) (s : State), ∃ t, exec i s = .next t) ∧
  (∀ s : State, s.powered = true → ∃ t, step s = .next t) ∧
  (∀ s : State, s.powered = false → step s = .fault .noPower)

/-- What reset leaves where the spec gives it: no device time, every core free with an EMPTY plane set, no push made and
every ring entry zero, no counter, tag, loop or wait in use, the tile origin at zero, the current balance full, and PWRSTAT
at the floor budget with FLR (R3, R157, R158, R161, R184, R187, R238, R252, R396, R399). That all 16 logical layers are
available and that the floor budget is 1,200 W are the model's choice of a configuration and sparing record (log 2). -/
def Obligations.ResetIsAsTheSpecSays : Prop :=
  State.reset.now = 0 ∧ State.reset.tasks = [] ∧
  (∀ c : CoreId, (State.reset.core c).live = false ∧ (State.reset.core c).bank = .empty ∧
    (State.reset.core c).ox = 0 ∧ (State.reset.core c).oy = 0 ∧ (State.reset.core c).balance = 131072 ∧
    (State.reset.core c).layers = 0xFFFF ∧ (State.reset.ctx c).plane.held = false ∧ (State.reset.ctx c).tags = 0 ∧
    (State.reset.ctx c).tagBusy = 0) ∧
  (∀ (c : CoreId) (sec : Bool), (State.reset.stream c sec).live = false ∧ (State.reset.stream c sec).pushes = 0 ∧
    (State.reset.stream c sec).ring = Vector.replicate 8 0 ∧ (State.reset.stream c sec).loops = LoopSet.reset ∧
    (State.reset.stream c sec).ld = 0 ∧ (State.reset.stream c sec).st = 0 ∧ (State.reset.stream c sec).cp = 0 ∧
    (State.reset.stream c sec).tl = 0 ∧ (State.reset.stream c sec).at_ = 0) ∧
  State.reset.hub.pwrstat = 0x1000 ||| 1200

/-- Memory after reset is in its canonical form (the model's own form). -/
def Obligations.ResetMemoryCanonical : Prop := State.reset.canonical

/-- Every step keeps memory in its canonical form: addresses strictly rising and no entry equal to what an unlisted
address reads as, so that equal memories are equal data. -/
def Obligations.StepKeepsMemoryCanonical : Prop := KeptByStep State.canonical

/-! ### Landing -/

/-- R40, R157, R165: a result that is due lands in issue order at the start of its stream cycle; landing a scalar writes
that register and no other, a write to s0 is discarded; landing predicates changes only those named; landing a vector
result changes only its enabled bits, and with a push the ring entry takes the whole new register; a mask result changes
only the bits named, and m0 still reads as ones; an STSET changes only the writable bits of its word. -/
def Obligations.ResultsLand : Prop :=
  (∀ (s : State) (c : CoreId) (sec : Bool), ∃ t, exec (.resultLanding c sec) s = .next t ∧
    (t.stream c sec).inflight = (s.stream c sec).inflight.filter (fun l => !(l.due ≤ (s.stream c sec).sc)) ∧
    (∀ l, (s.stream c sec).inflight.filter (fun l => l.due ≤ (s.stream c sec).sc) = [l] →
      t = s.updCtx c (fun x => (x.updStream sec (fun y =>
        { y with inflight := y.inflight.filter (fun l => !(l.due ≤ (s.stream c sec).sc)) })).land sec l.dest))) ∧
  (∀ (x : Ctx) (sec : Bool) (d : BitVec 6) (v : Word) (q : BitVec 6),
    ((x.land sec (.scalar d v)).stream sec).rs q = if q = d ∧ d ≠ 0 then v else (x.stream sec).rs q) ∧
  (∀ (x : Ctx) (sec : Bool) (mask val : BitVec 7) (n : BitVec 3),
    ((x.land sec (.pred mask val)).stream sec).rp n =
      if n = 7 then true else if mask.getLsbD n.toNat then val.getLsbD n.toNat else (x.stream sec).rp n) ∧
  (∀ (x : Ctx) (sec : Bool) (d q : BitVec 6) (mask val : BitVec 8192) (push : Option Nat) (i : Nat),
    ((x.land sec (.vec d mask val push)).rv q).getLsbD i =
      if q = d ∧ mask.getLsbD i then val.getLsbD i else (x.rv q).getLsbD i) ∧
  (∀ (x : Ctx) (sec : Bool) (d : BitVec 6) (mask val : BitVec 8192) (n : Nat) (h : n % 8 < 8),
    (x.stream sec).ringHeld[n % 8] < n + 1 →
      ((x.land sec (.vec d mask val (some n))).stream sec).ring[n % 8] = (x.land sec (.vec d mask val (some n))).rv d) ∧
  (∀ (x : Ctx) (sec : Bool) (d n : BitVec 3) (mask val : BitVec 512) (i : Nat), i < 512 →
    ((x.land sec (.mask d mask val)).rm n).getLsbD i =
      if n = 0 then true else if n = d ∧ mask.getLsbD i then val.getLsbD i else (x.rm n).getLsbD i) ∧
  (∀ (x : Ctx) (sec : Bool) (n q : BitVec 4) (w u : BitVec 3) (v : Word),
    (x.land sec (.streamWord n w v)).strWord q u =
      if q = n ∧ u = w then v &&& strWritable w.toNat else x.strWord q u) ∧
  (∀ (x : Ctx) (sec : Bool) (f : BitVec 7),
    ((x.land sec (.flags f)).stream sec).fflags = (x.stream sec).fflags ||| f.setWidth 64)

/-! ### Scalar arithmetic -/

/-- R167: ADD, SUB and MUL write the exact sum, difference or product of the operands, of bits 31:0 of each with W, clamped
with S, wrapped to 64 bits or to 32 bits sign-extended; MULH writes bits 127:64 of the exact product; no flag changes. -/
def Obligations.ScalarArithmetic : Prop :=
  ∀ (s : State) (d a b : BitVec 6) (w sat : Bool),
    let x := s.cur.rs a
    let y := s.cur.rs b
    Writes (.add d a b sat w) s 1 d (arithResult w sat (sintOf w x + sintOf w y)) ∧
    Writes (.sub d a b sat w) s 1 d (arithResult w sat (sintOf w x - sintOf w y)) ∧
    Writes (.mul d a b w) s 3 d (arithResult w false (sintOf w x * sintOf w y)) ∧
    Writes (.mulh d a b 0) s 3 d (BitVec.ofInt 64 (x.toInt * y.toInt / 2 ^ 64)) ∧
    Writes (.mulh d a b 1) s 3 d (BitVec.ofNat 64 (x.toNat * y.toNat / 2 ^ 64)) ∧
    Writes (.mulh d a b 2) s 3 d (BitVec.ofInt 64 (x.toInt * y.toNat / 2 ^ 64)) ∧
    (Instr.mulh d a b 3).wf = false

/-- R168: the logical operations bit by bit, and the lesser or greater of two registers, signed and unsigned. -/
def Sys2Proof.Claims.ScalarLogic : Prop :=
  ∀ (s : State) (d a b : BitVec 6),
    let x := s.cur.rs a
    let y := s.cur.rs b
    Writes (.and d a b) s 1 d (x &&& y) ∧ Writes (.or d a b) s 1 d (x ||| y) ∧ Writes (.xor d a b) s 1 d (x ^^^ y) ∧
    Writes (.andn d a b) s 1 d (x &&& ~~~y) ∧
    (∃ v, Writes (.min d a b) s 1 d v ∧ (v = x ∨ v = y) ∧ v.toInt = Min.min x.toInt y.toInt) ∧
    (∃ v, Writes (.max d a b) s 1 d v ∧ (v = x ∨ v = y) ∧ v.toInt = Max.max x.toInt y.toInt) ∧
    (∃ v, Writes (.minu d a b) s 1 d v ∧ (v = x ∨ v = y) ∧ v.toNat = Nat.min x.toNat y.toNat) ∧
    (∃ v, Writes (.maxu d a b) s 1 d v ∧ (v = x ∨ v = y) ∧ v.toNat = Nat.max x.toNat y.toNat)

/-- R168: SHL, SHR and SAR by s_b bits 5:0, or 4:0 with W, bit by bit; the .w forms shift bits 31:0 and sign-extend. -/
def Sys2Proof.Claims.ScalarShifts : Prop :=
  ∀ (s : State) (d a b : BitVec 6),
    let x := s.cur.rs a
    let n := (s.cur.rs b).toNat % 64
    let m := (s.cur.rs b).toNat % 32
    (∃ v, Writes (.shl d a b false) s 1 d v ∧ ∀ i < 64, v.getLsbD i = (decide (n ≤ i) && x.getLsbD (i - n))) ∧
    (∃ v, Writes (.shr d a b false) s 1 d v ∧ ∀ i < 64, v.getLsbD i = (decide (i + n < 64) && x.getLsbD (i + n))) ∧
    (∃ v, Writes (.sar d a b false) s 1 d v ∧ ∀ i < 64, v.getLsbD i = x.getLsbD (Nat.min 63 (i + n))) ∧
    (∃ v, Writes (.shl d a b true) s 1 d v ∧
      ∀ i < 64, v.getLsbD i = (decide (m ≤ Nat.min 31 i) && x.getLsbD (Nat.min 31 i - m))) ∧
    (∃ v, Writes (.shr d a b true) s 1 d v ∧
      ∀ i < 64, v.getLsbD i = (decide (Nat.min 31 i + m < 32) && x.getLsbD (Nat.min 31 i + m))) ∧
    (∃ v, Writes (.sar d a b true) s 1 d v ∧ ∀ i < 64, v.getLsbD i = x.getLsbD (Nat.min 31 (Nat.min 31 i + m)))

/-- R168: CLZ and POPC count leading zeros and one bits of 64 or of 32 bits. -/
def Sys2Proof.Claims.ScalarCounts : Prop :=
  ∀ (s : State) (d a : BitVec 6),
    let x := s.cur.rs a
    (∃ v, Writes (.clz d a false) s 1 d v ∧ v.toNat ≤ 64 ∧ (∀ i < 64, 64 - v.toNat ≤ i → x.getLsbD i = false) ∧
      (v.toNat < 64 → x.getLsbD (63 - v.toNat) = true)) ∧
    (∃ v, Writes (.clz d a true) s 1 d v ∧ v.toNat ≤ 32 ∧ (∀ i < 32, 32 - v.toNat ≤ i → x.getLsbD i = false) ∧
      (v.toNat < 32 → x.getLsbD (31 - v.toNat) = true)) ∧
    (∃ v, Writes (.popc d a false) s 1 d v ∧ v.toNat = (List.range 64).countP (fun i => x.getLsbD i)) ∧
    (∃ v, Writes (.popc d a true) s 1 d v ∧ v.toNat = (List.range 32).countP (fun i => x.getLsbD i))

/-- R169 to R171: SHI shifts or rotates by an immediate; ADDI, LEA and MOVI use their immediates; MOVHI replaces 16 bits of
s_d as read at issue. -/
def Sys2Proof.Claims.ScalarImmediates : Prop :=
  ∀ (s : State) (d a b : BitVec 6),
    let x := s.cur.rs a
    (∀ n : BitVec 6, Writes (.shi d a false 0 n) s 1 d (x <<< n.toNat) ∧ Writes (.shi d a false 1 n) s 1 d (x >>> n.toNat) ∧
      Writes (.shi d a false 2 n) s 1 d (x.sshiftRight n.toNat) ∧ Writes (.shi d a false 3 n) s 1 d (x.rotateRight n.toNat)) ∧
    (∀ n : BitVec 6, n.toNat < 32 →
      Writes (.shi d a true 0 n) s 1 d (((x.setWidth 32) <<< n.toNat).signExtend 64) ∧
      Writes (.shi d a true 1 n) s 1 d (((x.setWidth 32) >>> n.toNat).signExtend 64) ∧
      Writes (.shi d a true 2 n) s 1 d (((x.setWidth 32).sshiftRight n.toNat).signExtend 64) ∧
      Writes (.shi d a true 3 n) s 1 d (((x.setWidth 32).rotateRight n.toNat).signExtend 64)) ∧
    (∀ (k : BitVec 2) (n : BitVec 6), (Instr.shi d a true k n).wf = decide (n.toNat < 32)) ∧
    (∀ imm : BitVec 14, Writes (.addi d a imm) s 1 d (x + imm.signExtend 64)) ∧
    (∀ sh : BitVec 3, Writes (.lea d a b sh) s 1 d (x + s.cur.rs b <<< sh.toNat)) ∧
    (∀ imm : BitVec 20, Writes (.movi d imm) s 1 d (imm.signExtend 64)) ∧
    (∀ (q : BitVec 2) (chunk : BitVec 16), ∃ v, Writes (.movhi d q chunk) s 1 d v ∧
      v.extractLsb' (16 * q.toNat) 16 = chunk ∧
      ∀ i < 64, (i < 16 * q.toNat ∨ 16 * q.toNat + 16 ≤ i) → v.getLsbD i = (s.cur.rs d).getLsbD i)

/-- R172: BFX writes bits pos + width - 1 down to pos of s_a, zero- or sign-extended; BFI replaces those bits of s_d by the
low bits of s_a; a field that passes bit 63 is an illegal encoding. The w field is the width less one. -/
def Sys2Proof.Claims.BitFields : Prop :=
  ∀ (s : State) (d a w pos : BitVec 6), 
    let n := w.toNat + 1
    (pos.toNat + n ≤ 64 →
      (∃ v, Writes (.bfx d a false w pos) s 1 d v ∧
        ∀ i < 64, v.getLsbD i = (decide (i < n) && (s.cur.rs a).getLsbD (pos.toNat + i))) ∧
      (∃ v, Writes (.bfx d a true w pos) s 1 d v ∧
        ∀ i < 64, v.getLsbD i = (s.cur.rs a).getLsbD (pos.toNat + Nat.min i w.toNat)) ∧
      (∃ v, Writes (.bfi d a w pos) s 1 d v ∧
        ∀ i < 64, v.getLsbD i = if pos.toNat ≤ i ∧ i < pos.toNat + n then (s.cur.rs a).getLsbD (i - pos.toNat)
          else (s.cur.rs d).getLsbD i)) ∧
    (∀ sg, (Instr.bfx d a sg w pos).wf = decide (pos.toNat + n ≤ 64)) ∧
    (Instr.bfi d a w pos).wf = decide (pos.toNat + n ≤ 64)

/-- R173: CMP and CMPI write Compare(cond, x, y) to pd; conditions 12 to 15 are illegal encodings. -/
def Sys2Proof.Claims.ScalarCompare : Prop :=
  ∀ (s : State) (p : BitVec 3) (cond : BitVec 4) (a b : BitVec 6) (imm : BitVec 13) (w : Bool),
    (cond.toNat ≤ 11 →
      SetsPred (.cmp p cond a b w) s p (compares cond (s.cur.rs a) (s.cur.rs b) w) ∧
      SetsPred (.cmpi p cond a imm) s p (compares cond (s.cur.rs a) (imm.signExtend 64) false)) ∧
    (Instr.cmp p cond a b w).wf = decide (cond.toNat ≤ 11) ∧
    (Instr.cmpi p cond a imm).wf = decide (cond.toNat ≤ 11)

/-- R174: SEL writes s_d := (p_n XOR neg) ? s_a : s_b, with p_n read at issue. -/
def Obligations.ScalarSelect : Prop :=
  ∀ (s : State) (d a b : BitVec 6) (neg : Bool) (n : BitVec 3),
    Writes (.sSel d a b neg n) s 1 d (if (s.cur.rp n ^^ neg) then s.cur.rs a else s.cur.rs b)

/-- R175, R176: PLOG writes the AND, OR or XOR of two predicates, each negated where its field says; PMOV.set writes
s_a != 0, PMOV.pack p7 to p0 with p7 as bit 7, PMOV.unpk p0 to p6 from bits 6:0. -/
def Sys2Proof.Claims.PredicateMoves : Prop :=
  ∀ (s : State) (p a b : BitVec 3) (na nb : Bool) (r : BitVec 6),
    SetsPred (.plog p 0 na a nb b) s p ((s.cur.rp a ^^ na) && (s.cur.rp b ^^ nb)) ∧
    SetsPred (.plog p 1 na a nb b) s p ((s.cur.rp a ^^ na) || (s.cur.rp b ^^ nb)) ∧
    SetsPred (.plog p 2 na a nb b) s p ((s.cur.rp a ^^ na) ^^ (s.cur.rp b ^^ nb)) ∧
    (∀ op : BitVec 4, (Instr.plog p op na a nb b).wf = decide (op.toNat ≤ 2)) ∧
    SetsPred (.pmovSet p r) s p (decide (s.cur.rs r ≠ 0)) ∧
    (∃ v, Writes (.pmovPack r) s 1 r v ∧ v.toNat < 256 ∧ ∀ n : BitVec 3, v.getLsbD n.toNat = s.cur.rp n) ∧
    Lands (.pmovUnpk r) s 1 (.pred 127 ((s.cur.rs r).setWidth 7))

/-- R177: with DUP 0, or with equal registers, CHKS does nothing; with DUP 1 and different registers its bundle raises
cause 0x0A with ctl.tval s_a XOR s_b. -/
def Sys2Proof.Claims.DuplicationCheck : Prop :=
  ∀ (s : State) (a b : BitVec 6),
    ((s.cur.stat.getLsbD 6 = false ∨ s.cur.rs a = s.cur.rs b) → Nothing (.chks a b) s) ∧
    (s.cur.stat.getLsbD 6 = true → s.cur.rs a ≠ s.cur.rs b → Handles s.cur →
      ∃ t, exec (.chks a b) s = .next t ∧ TrapTaken s t 0x0A (s.cur.rs a ^^^ s.cur.rs b))

/-- R178: RDSYS writes the system value that its selector names, with latency 2; selectors above 10 are illegal. -/
def Sys2Proof.Claims.SystemValues : Prop :=
  ∀ (s : State) (d : BitVec 6),
    let loop := fun (l : LoopLevel) => if l.active then l.rem else 0
    Writes (.rdsys d 0) s 2 d (BitVec.ofNat 64 s.issue.core.val) ∧
    Writes (.rdsys d 1) s 2 d (if s.issue.sec then 1 else 0) ∧
    Writes (.rdsys d 2) s 2 d (s.hub.settings.podDevice.setWidth 64) ∧
    Writes (.rdsys d 3) s 2 d (s.hub.settings.pod.setWidth 64) ∧
    Writes (.rdsys d 4) s 2 d (s.curCtx.taskId.setWidth 64) ∧
    (s.curCtx.gang = 0 → Writes (.rdsys d 5) s 2 d (BitVec.ofNat 64 (4 + 2 ^ (8 + s.issue.core.val)))) ∧
    Writes (.rdsys d 6) s 2 d s.curCore.cyc ∧
    Writes (.rdsys d 7) s 2 d (s.curCore.layers.setWidth 64) ∧
    Writes (.rdsys d 8) s 2 d (loop s.cur.curLoops.l0) ∧
    Writes (.rdsys d 9) s 2 d (loop s.cur.curLoops.l1) ∧
    Writes (.rdsys d 10) s 2 d (s.hub.settings.revision.setWidth 64) ∧
    (∀ sel : BitVec 14, (∃ v, Writes (.rdsys d sel) s 2 d v)) ∧
    (∀ sel : BitVec 14, (Instr.rdsys d sel).wf = decide (sel.toNat ≤ 10))

/-- R179, R180: TFIRST writes the number of the lowest DONE tag that s_a names, or 64, with latency 2, and with .clr that
tag is cleared at the end of the cycle; STSET and STGET write and read a word of a stream register. -/
def Sys2Proof.Claims.TagsAndStreamWords : Prop :=
  ∀ (s : State) (d a : BitVec 6) (clr : Bool) (w : BitVec 3) (n : BitVec 4),
    (∃ t k, exec (.tfirst d a clr) s = .next t ∧ k ≤ 64 ∧
      (∀ i < k, (s.curCtx.tags &&& s.cur.rs a).getLsbD i = false) ∧
      (k < 64 → (s.curCtx.tags &&& s.cur.rs a).getLsbD k = true) ∧
      t.cur.inflight = s.cur.inflight ++ [{ due := s.cur.sc + 2, dest := .scalar d (BitVec.ofNat 64 k) }] ∧
      t.curCore.endWrites = s.curCore.endWrites ++
        (if clr then [.tagClear (if k < 64 then BitVec.ofNat 64 (2 ^ k) else 0)] else []) ∧
      SameMemory s t ∧ (∀ r, t.cur.rs r = s.cur.rs r) ∧ t.curCtx.tags = s.curCtx.tags) ∧
    Lands (.stset a w n) s 1 (.streamWord n w (s.cur.rs a)) ∧
    Writes (.stget d w n) s 2 d (s.curCtx.strWord n w)

/-- The scalar instructions' frame: a scalar, predicate, check or stream-word instruction that issues leaves every register,
control register and byte of memory as it was, until its result lands; TFIRST's clear waits for the end of the cycle. -/
def Sys2Proof.Claims.ScalarFrame : Prop :=
  ∀ (i : Instr) (s t : State), i.slot = some .S → exec i s = .next t → t.issue.status = .ok →
    SameRegs s.cur t.cur ∧ SameCtx s.curCtx t.curCtx ∧ SameMemory s t ∧ t.cur.pc = s.cur.pc ∧
    t.hub = s.hub ∧ t.homes = s.homes ∧ (∀ c, c ≠ s.issue.core → t.core c = s.core c)

/-! ### Control transfer and loops -/

/-- R22, R181 to R183: NOP does nothing. BR, CALL and RET transfer when the predicate, negated as the word says, is true,
and otherwise do nothing; CALL links pc + 32 in s62 with latency 1; JIND links in s_d with latency 2 and always transfers;
a target in a register that is not a multiple of 32 raises cause 0x05 with the target in ctl.tval. -/
def Obligations.Branches : Prop :=
  ∀ (s : State) (p : BitVec 3) (neg : Bool) (off : BitVec 22) (d a : BitVec 6),
    let link := (s.cur.pc + 1) ++ 0#5
    let target := s.cur.pc + off.signExtend 59
    Nothing .nop s ∧
    ((s.cur.rp p ^^ neg) = false → Nothing (.br p neg off) s ∧ Nothing (.call p neg off) s ∧ Nothing (.ret p neg) s) ∧
    ((s.cur.rp p ^^ neg) = true →
      (∃ t, exec (.br p neg off) s = .next t ∧ Transfers s t target []) ∧
      (∃ t, exec (.call p neg off) s = .next t ∧
        Transfers s t target [{ due := s.cur.sc + 1, dest := .scalar 62 link }]) ∧
      ((s.cur.rs 62).toNat % 32 = 0 →
        ∃ t, exec (.ret p neg) s = .next t ∧ Transfers s t ((s.cur.rs 62).extractLsb' 5 59) []) ∧
      ((s.cur.rs 62).toNat % 32 ≠ 0 → Handles s.cur →
        ∃ t, exec (.ret p neg) s = .next t ∧ TrapTaken s t 0x05 (s.cur.rs 62))) ∧
    ((s.cur.rs a).toNat % 32 = 0 →
      ∃ t, exec (.jind d a) s = .next t ∧
        Transfers s t ((s.cur.rs a).extractLsb' 5 59) [{ due := s.cur.sc + 2, dest := .scalar d link }]) ∧
    ((s.cur.rs a).toNat % 32 ≠ 0 → Handles s.cur →
      ∃ t, exec (.jind d a) s = .next t ∧ TrapTaken s t 0x05 (s.cur.rs a))

/-- R185: LOOP with a count of zero makes its level inactive and transfers past the body; otherwise it installs the level,
ACTIVE with START the next bundle, END imm14 bundles on and REM the count, and leaves the other level. -/
def Sys2Proof.Claims.LoopInstalls : Prop :=
  ∀ (s : State) (level : Bool) (a : BitVec 6) (dist : BitVec 14),
    let i := Instr.loop (if level then 1 else 0) a dist
    let last := s.cur.pc + dist.setWidth 59
    let other := fun (l : LoopSet) => if level then l.l0 else l.l1
    let mine := fun (l : LoopSet) => if level then l.l1 else l.l0
    (s.cur.rs a = 0 → ∃ t, exec i s = .next t ∧ t.cur.pc = last + 1 ∧ t.cur.idle = 2 ∧ t.issue.transfer = true ∧
      (mine t.cur.curLoops).active = false ∧ (mine t.cur.curLoops).rem = 0 ∧
      other t.cur.curLoops = other s.cur.curLoops ∧ SameRegs s.cur t.cur ∧ SameMemory s t) ∧
    (s.cur.rs a ≠ 0 → ∃ t, exec i s = .next t ∧
      mine t.cur.curLoops = { active := true, start := s.cur.pc + 1, stop := last, rem := s.cur.rs a } ∧
      other t.cur.curLoops = other s.cur.curLoops ∧ t.cur.pc = s.cur.pc ∧ SameRegs s.cur t.cur ∧ SameMemory s t) ∧
    (∀ l : BitVec 6, (Instr.loop l a dist).wf = (decide (l.toNat ≤ 1) && decide (dist ≠ 0)))

/-- R186: the bundle that follows one that makes no control transfer and does not halt: the inner level is tested first; a
level at its END with REM above 1 counts down and repeats from START; one that has run out becomes inactive; else pc + 32. -/
def Sys2Proof.Claims.LoopEnds : Prop :=
  ∀ (l : LoopSet) (pc : BitVec 59),
    let hit := fun (v : LoopLevel) => v.active = true ∧ pc = v.stop
    let down := fun (v : LoopLevel) => { v with rem := v.rem - 1 }
    let out := fun (v : LoopLevel) => { v with active := false, rem := 0 }
    (hit l.l1 → 1 < l.l1.rem.toNat → l.next pc = ({ l with l1 := down l.l1 }, l.l1.start)) ∧
    (hit l.l1 → l.l1.rem.toNat ≤ 1 → hit l.l0 → 1 < l.l0.rem.toNat →
      l.next pc = ({ l0 := down l.l0, l1 := out l.l1 }, l.l0.start)) ∧
    (hit l.l1 → l.l1.rem.toNat ≤ 1 → hit l.l0 → l.l0.rem.toNat ≤ 1 →
      l.next pc = ({ l0 := out l.l0, l1 := out l.l1 }, pc + 1)) ∧
    (hit l.l1 → l.l1.rem.toNat ≤ 1 → ¬hit l.l0 → l.next pc = ({ l with l1 := out l.l1 }, pc + 1)) ∧
    (¬hit l.l1 → hit l.l0 → 1 < l.l0.rem.toNat → l.next pc = ({ l with l0 := down l.l0 }, l.l0.start)) ∧
    (¬hit l.l1 → hit l.l0 → l.l0.rem.toNat ≤ 1 → l.next pc = ({ l with l0 := out l.l0 }, pc + 1)) ∧
    (¬hit l.l1 → ¬hit l.l0 → l.next pc = (l, pc + 1))

/-! ### Waits, mode and halt -/

/-- R188 to R192: WAITC with a field below 31 freezes the stream in its counters, and with all fields 31 does nothing; WAITT
and WAITANY freeze it on the tags of s_a with the timeout of s_b, 0 for none; at the timeout, and when the condition holds,
the stream wakes with the DONE tags named, and .clr clears them at the end of the cycle; PMODE drains; HALT stops the
stream and keeps its code. -/
def Sys2Proof.Claims.WaitsAndHalt : Prop :=
  ∀ (s : State) (ld st cp tl at_ : BitVec 5) (d a b : BitVec 6) (clr any inter : Bool) (code : BitVec 14),
    let left := if s.cur.rs b = 0 then none else some (s.cur.rs b).toNat
    (¬(ld = 31 ∧ st = 31 ∧ cp = 31 ∧ tl = 31 ∧ at_ = 31) → Freezes (.waitc ld st cp tl at_) s (.counters ld st cp tl at_)) ∧
    Nothing (.waitc 31 31 31 31 31) s ∧
    Freezes (.waitt d a b clr) s (.tags false clr d (s.cur.rs a) left) ∧
    Freezes (.waitany d a b clr) s (.tags true clr d (s.cur.rs a) left) ∧
    (∀ (c : CoreId) (sec : Bool) (mask : Word), (s.stream c sec).wait = .tags any clr d mask (some 0) →
      ∃ t, exec (.waitTimeout c sec) s = .next t ∧ Woken (s.stream c sec) (t.stream c sec) d ((s.ctx c).tags &&& mask) ∧
        (t.core c).endWrites = (s.core c).endWrites ++ (if clr then [.tagClear ((s.ctx c).tags &&& mask)] else [])) ∧
    Freezes (.pmode inter) s (.mode inter) ∧
    (∃ t, exec (.halt code) s = .next t ∧ t.cur.live = false ∧ t.cur.halted = true ∧ t.cur.haltCode = code ∧
      t.cur.pc = s.cur.pc ∧ t.cur.inflight = s.cur.inflight ∧ SameRegs s.cur t.cur ∧ SameCtx s.curCtx t.curCtx ∧ SameMemory s t)

/-- R188, R189, R191: when each freeze is over. A counter wait ends when every counter whose field is not 31 is at or below
it; a tag wait when no tag named is BUSY, or for WAITANY when one is DONE; PMODE when nothing is in flight, and then IMODE
takes the new value. -/
def Sys2Proof.Claims.WaitsEnd : Prop :=
  ∀ (s : State) (c : CoreId) (sec : Bool), (s.core c).pause = none → (s.stream c sec).live = true → (s.stream c sec).pending = [] →
    (s.stream c sec).idle = 0 →
    let x := s.stream c sec
    (∀ ld st cp tl at_ : BitVec 5, x.wait = .counters ld st cp tl at_ →
      (((ld = 31 ∨ x.ld ≤ ld.toNat) ∧ (st = 31 ∨ x.st ≤ st.toNat) ∧ (cp = 31 ∨ x.cp ≤ cp.toNat) ∧ (tl = 31 ∨ x.tl ≤ tl.toNat) ∧
        (at_ = 31 ∨ x.at_ ≤ at_.toNat)) ↔ ((s.settleWait c sec).stream c sec).wait = .none)) ∧
    (∀ (any clr : Bool) (d : BitVec 6) (mask : Word) (left : Option Nat), x.wait = .tags any clr d mask left →
      ((s.ctx c).tagBusy &&& mask = 0 ∨ (any = true ∧ (s.ctx c).tags &&& mask ≠ 0) →
        Woken x ((s.settleWait c sec).stream c sec) d ((s.ctx c).tags &&& mask)) ∧
      ((s.ctx c).tagBusy &&& mask ≠ 0 → (any = false ∨ (s.ctx c).tags &&& mask = 0) → s.settleWait c sec = s)) ∧
    (∀ inter : Bool, x.wait = .mode inter →
      (x.inflight = [] → ((s.settleWait c sec).stream c sec).wait = .none ∧ ((s.settleWait c sec).stream c sec).inter = inter) ∧
      (x.inflight ≠ [] → s.settleWait c sec = s))

/-! ### Traps -/

/-- R23, R345, R351 to R353, R355: TRAP is taken after its bundle with ctl.tpc at the bundle that follows, cause 0x0B, s_a
in ctl.tval and its code in TCODE; an illegal encoding traps precisely with cause 0x01 and the word and slot in ctl.tval; a
failed fetch traps at the bundle that cannot be fetched; a pending deferred trap is taken at the next bundle with DEF set,
and with WT set at a bundle that waits on counters. Each leaves memory as it was. -/
def Sys2Proof.Claims.TrapsAreTaken : Prop :=
  (∀ (s : State) (a : BitVec 6) (code : BitVec 14), Handles s.cur →
    ∃ t, exec (.trap a code) s = .next t ∧ t.issue.status = .software { cause := 0x0B, tval := s.cur.rs a } code ∧
      Entered s.cur t.cur (s.cur.curLoops.next s.cur.pc).2 0x0B (s.cur.rs a) false false code ∧ SameMemory s t) ∧
  (∀ (s : State) (slot : BitVec 3) (word : SlotWord), Handles s.cur →
    ∃ t, exec (.illegalEncoding slot word) s = .next t ∧ TrapTaken s t 0x01 (word ++ slot.setWidth 32)) ∧
  (∀ (s : State) (c : CoreId) (sec : Bool) (q : TrapReq), (s.stream c sec).live = true → Handles (s.stream c sec) →
    (s.fetchRead c sec).fetch c sec = .fault q →
    ∃ t, exec (.instructionFetchFault c sec) s = .next t ∧
      Entered (s.stream c sec) (t.stream c sec) (s.stream c sec).pc q.cause q.tval false false 0 ∧ SameMemory s t) ∧
  (∀ (s : State) (c : CoreId) (sec : Bool) (q : TrapReq) (r : List TrapReq), (s.stream c sec).live = true →
    Handles (s.stream c sec) → (s.stream c sec).pending = q :: r → (s.stream c sec).hold = .none → (s.stream c sec).idle = 0 →
    (s.stream c sec).asking = none →
    ((s.stream c sec).wait = .none → ∃ t, exec (.deferredTrapTake c sec) s = .next t ∧
      Entered (s.stream c sec) (t.stream c sec) (s.stream c sec).pc q.cause q.tval true false 0 ∧ SameMemory s t) ∧
    (∀ ld st cp tl at_, (s.stream c sec).wait = .counters ld st cp tl at_ →
      ∃ t, exec (.deferredTrapTake c sec) s = .next t ∧
        Entered (s.stream c sec) (t.stream c sec) (s.stream c sec).ipc q.cause q.tval true true 0 ∧
        (t.stream c sec).savedWait = (s.stream c sec).wait ∧ SameMemory s t))

/-- R354: a trap in a handler, or without a valid handler address, stops the stream: it no longer lives, it keeps the cause
and the bundle's address, its trap registers stay, and the firmware is told to end the task or to roll it back; a double trap raises vector 0. -/
def Sys2Proof.Claims.DoubleTrapStops : Prop :=
  ∀ (s : State) (slot : BitVec 3) (word : SlotWord), (s.cur.hnd = true ∨ s.cur.tvec.getLsbD 0 = false) →
    ∃ t, exec (.illegalEncoding slot word) s = .next t ∧ t.cur.live = false ∧
      t.cur.stopped = some { cause := 0x01, tval := word ++ slot.setWidth 32 } ∧
      t.cur.stopAt = s.cur.pcWord ∧
      t.cur.tpc = s.cur.tpc ∧ t.cur.tstat = s.cur.tstat ∧ t.cur.tcause = s.cur.tcause ∧ t.cur.tval = s.cur.tval ∧
      SameMemory s t ∧
      (UnderWay t (.rollback s.curCtx.task) ∨ UnderWay t (.taskEnd s.curCtx.task 1 s.issue.core s.issue.sec)) ∧
      (s.cur.hnd = true → tget 0 t.hub.msix 0 = tget 0 s.hub.msix 0 + 1)

/-- R355: TRET in a handler with nothing in flight returns to ctl.tpc: HND clears, PRIV can only fall, IMODE, RND and DUP are
those of ctl.tstat, every other bit of ctl.stat stays, and the latches go back in flight with what remained of their
latencies; outside a handler it raises cause 0x0D. -/
def Obligations.TrapReturn : Prop :=
  (∀ s : State, s.cur.hnd = true → s.cur.tstat.toNat < 2 ^ 15 → s.cur.inflight = [] →
    (s.cur.savedWait = .none ∨ s.cur.tcause.getLsbD 8 = false) →
    ∃ t, exec .tret s = .next t ∧ t.issue.status = .returning ∧ t.cur.pc = s.cur.tpc.extractLsb' 5 59 ∧ t.cur.hnd = false ∧
      t.cur.priv = (s.cur.priv && s.cur.tstat.getLsbD 0) ∧ t.cur.inter = s.cur.tstat.getLsbD 1 ∧
      t.cur.dup = s.cur.tstat.getLsbD 6 ∧ t.cur.rnd = getBits s.cur.tstat 4 2 ∧
      (∀ i, 7 ≤ i → t.cur.stat.getLsbD i = s.cur.stat.getLsbD i) ∧ t.cur.stat.getLsbD 2 = s.cur.stat.getLsbD 2 ∧
      t.cur.sc = s.cur.sc + 1 ∧ t.cur.latches = [] ∧
      t.cur.inflight = s.cur.latches.map (fun l => { l with due := l.due + (s.cur.sc + 4) }) ∧
      t.cur.loops = s.cur.loops ∧ (∀ r, t.cur.rs r = s.cur.rs r) ∧ SameCtx s.curCtx t.curCtx ∧ SameMemory s t) ∧
  (∀ s : State, s.cur.hnd = false → s.cur.tvec.getLsbD 0 = true →
    ∃ t, exec .tret s = .next t ∧ TrapTaken s t 0x0D 0)

/-! ### Control registers -/

/-- The control registers that R163 lists, with those of R410 and R412. -/
def Sys2Proof.Claims.listedCtl (n : BitVec 12) : Prop :=
  n.toNat ∈ [0x000, 0x001, 0x002, 0x003, 0x004, 0x005, 0x008, 0x009, 0x00A, 0x010, 0x020, 0x030, 0x040, 0x041, 0x042, 0x050, 0x0C0,
    0x0C1, 0x0C4, 0x0C5, 0x0C6, 0x0C7, 0x0D0, 0x0D1, 0x0D2] ∨ (0x100 ≤ n.toNat ∧ n.toNat ≤ 0x11F)

/-- R163, R356: RDCTL of every register listed, at any privilege, writes its value as at issue to s_d with latency 2; RDCTL
of ctl.tags observes the DONE tags as well (R190). A number that is not listed is an illegal encoding. -/
def Sys2Proof.Claims.ReadsControlRegisters : Prop :=
  ∀ (s : State) (d : BitVec 6),
    let x := s.cur
    let k := s.curCtx
    Writes (.rdctl d 0x000) s 2 d x.stat ∧ Writes (.rdctl d 0x001) s 2 d x.tpc ∧ Writes (.rdctl d 0x002) s 2 d x.tstat ∧
    Writes (.rdctl d 0x003) s 2 d x.tcause ∧ Writes (.rdctl d 0x004) s 2 d x.tval ∧ Writes (.rdctl d 0x005) s 2 d x.tvec ∧
    Writes (.rdctl d 0x008) s 2 d x.fflags ∧ Writes (.rdctl d 0x009) s 2 d x.seed ∧ Writes (.rdctl d 0x00A) s 2 d k.shbound ∧
    Writes (.rdctl d 0x010) s 2 d s.curCore.cyc ∧ Writes (.rdctl d 0x020) s 2 d k.domain ∧
    Writes (.rdctl d 0x030) s 2 d s.curCore.thr ∧ Writes (.rdctl d 0x040) s 2 d k.rns ∧ Writes (.rdctl d 0x041) s 2 d k.rnsstat ∧
    Writes (.rdctl d 0x042) s 2 d s.curCore.rinj ∧ Writes (.rdctl d 0x050) s 2 d k.chk ∧ Writes (.rdctl d 0x0C1) s 2 d k.cperr ∧
    Writes (.rdctl d 0x0D0) s 2 d s.curCore.spstat ∧ Writes (.rdctl d 0x0D1) s 2 d s.curCore.spaddr ∧
    Writes (.rdctl d 0x0D2) s 2 d s.curCore.spdiag ∧
    (∀ n : Fin 32, Writes (.rdctl d (BitVec.ofNat 12 (0x100 + n.val))) s 2 d k.win[n]) ∧
    (∀ q : Fin 4, ∃ v, Writes (.rdctl d (BitVec.ofNat 12 (0x0C4 + q.val))) s 2 d v ∧
      ∀ (j : Fin 16) (h : 16 * q.val + j.val < 64), v.extractLsb' (4 * j.val) 4 = k.tagStatus[16 * q.val + j.val]) ∧
    (∃ t, exec (.rdctl d 0x0C0) s = .next t ∧
      t.cur.inflight = x.inflight ++ [{ due := x.sc + 2, dest := .scalar d k.tags }] ∧ SameRegs x t.cur ∧
      SameCtx k t.curCtx ∧ SameMemory s t) ∧
    (∀ n : BitVec 12, (Instr.rdctl d n).wf = true ↔ listedCtl n)

/-- The registers whose WRCTL is privileged (R163, R372, R398, R410, R412). -/
def Sys2Proof.Claims.needsPriv (n : BitVec 12) : Prop :=
  n.toNat ∈ [0x005, 0x00A, 0x020, 0x030, 0x040, 0x042, 0x050, 0x0D0, 0x0D1, 0x0D2] ∨ (0x100 ≤ n.toNat ∧ n.toNat ≤ 0x11F)

/-- R24, R356: WRCTL of a register listed hands s_a to it at the end of the issue cycle, where its field rules apply, and
changes nothing before; of a privileged register with PRIV clear, its bundle raises cause 0x02 with the word and slot 0 in
ctl.tval. A number that is not listed is an illegal encoding. -/
def Sys2Proof.Claims.WritesControlRegisters : Prop :=
  ∀ (s : State) (a : BitVec 6) (n : BitVec 12),
    ((Instr.wrctl a n).wf = true ↔ listedCtl n) ∧
    (listedCtl n → (¬needsPriv n ∨ s.cur.priv = true) → ∃ t, exec (.wrctl a n) s = .next t ∧
      t.curCore.endWrites = s.curCore.endWrites ++
        [if n = 0x0C0 then .tagClear (s.cur.rs a) else .ctl s.issue.sec n (s.cur.rs a)] ∧
      t.cur.inflight = s.cur.inflight ∧ SameRegs s.cur t.cur ∧ SameCtx s.curCtx t.curCtx ∧ SameMemory s t) ∧
    (needsPriv n → s.cur.priv = false → Handles s.cur →
      ∃ t w, exec (.wrctl a n) s = .next t ∧ encode (.wrctl a n) = some w ∧ TrapTaken s t 0x02 (w ++ 0#32))

/-- R4, R55, R96, R125, R141, R162, R279, R287, R301, R351, R369, R372, R398, R410 to R412: what a write changes in each
writable control register, when it applies; ctl.cyc and ctl.spaddr, and the tag statuses ctl.cpst0 to ctl.cpst3, keep their
values. -/
def Obligations.RegisterWritesApply : Prop :=
  ∀ (s : State) (c : CoreId) (sec : Bool) (v : Word),
    let x := s.stream c sec
    (∃ t, exec (.seedWrite c sec v) s = .next t ∧ (t.stream c sec).seed = v ∧
      (∀ i : Fin 128, (t.stream c sec).gens[i] = reseedOne v i.val ∧ reseedOne v i.val ≠ 0) ∧ SameMemory s t) ∧
    (∃ t, exec (.tagsWrite c v) s = .next t ∧ (t.ctx c).tags = (s.ctx c).tags &&& ~~~v ∧ (t.ctx c).tagBusy = (s.ctx c).tagBusy ∧
      (∀ i : Fin 64, (t.ctx c).tagStatus[i] = if ((s.ctx c).tags &&& v).getLsbD i.val then 0 else (s.ctx c).tagStatus[i]) ∧
      SameMemory s t) ∧
    (∃ t, exec (.cperrClear c v) s = .next t ∧ (t.ctx c).cperr = (if v.getLsbD 63 then 0 else (s.ctx c).cperr) ∧ SameMemory s t) ∧
    (∃ t, exec (.rnsstatWrite c v) s = .next t ∧ getBits (t.ctx c).rnsstat 0 28 = getBits v 0 28 ∧
      (∀ i, 28 ≤ i → i < 35 → (t.ctx c).rnsstat.getLsbD i = ((s.ctx c).rnsstat.getLsbD i && !v.getLsbD i)) ∧
      (∀ i, 35 ≤ i → i < 64 → (t.ctx c).rnsstat.getLsbD i = ((s.ctx c).rnsstat.getLsbD i && !v.getLsbD 35)) ∧ SameMemory s t) ∧
    (∃ t, exec (.rnsModeWrite c v) s = .next t ∧ (t.ctx c).rns.getLsbD 0 = v.getLsbD 0 ∧
      (∀ i, 1 ≤ i → (t.ctx c).rns.getLsbD i = (s.ctx c).rns.getLsbD i) ∧ SameMemory s t) ∧
    (∀ n : Fin 8, ∃ t, exec (.windowWrite c (BitVec.ofNat 12 (0x100 + 4 * n.val)) v) s = .next t ∧
      winBase (t.ctx c).win n = getBits v 16 41 * 2 ^ 16 ∧ winSize (t.ctx c).win n = winSize (s.ctx c).win n ∧
      winOff (t.ctx c).win n = winOff (s.ctx c).win n ∧ winAttr (t.ctx c).win n = winAttr (s.ctx c).win n ∧ SameMemory s t) ∧
    (∀ n : Fin 8, ∃ t, exec (.windowWrite c (BitVec.ofNat 12 (0x101 + 4 * n.val)) v) s = .next t ∧
      winBase (t.ctx c).win n = winBase (s.ctx c).win n ∧ winSize (t.ctx c).win n = getBits v 0 41 * 2 ^ 16 ∧
      winOff (t.ctx c).win n = winOff (s.ctx c).win n ∧ winAttr (t.ctx c).win n = winAttr (s.ctx c).win n ∧ SameMemory s t) ∧
    (∀ n : Fin 8, ∃ t, exec (.windowWrite c (BitVec.ofNat 12 (0x102 + 4 * n.val)) v) s = .next t ∧
      winBase (t.ctx c).win n = winBase (s.ctx c).win n ∧ winSize (t.ctx c).win n = winSize (s.ctx c).win n ∧
      winOff (t.ctx c).win n = getBits v 16 36 * 2 ^ 16 ∧ winAttr (t.ctx c).win n = winAttr (s.ctx c).win n ∧ SameMemory s t) ∧
    (∀ n : Fin 8, ∃ t, exec (.windowWrite c (BitVec.ofNat 12 (0x103 + 4 * n.val)) v) s = .next t ∧
      winBase (t.ctx c).win n = winBase (s.ctx c).win n ∧ winSize (t.ctx c).win n = winSize (s.ctx c).win n ∧
      winOff (t.ctx c).win n = winOff (s.ctx c).win n ∧ winAttr (t.ctx c).win n = v.extractLsb' 0 6 ∧ SameMemory s t) ∧
    (∃ t, exec (.chkWrite c v) s = .next t ∧ (t.ctx c).chk.getLsbD 0 = v.getLsbD 0 ∧
      (t.ctx c).chk.getLsbD 2 = ((s.ctx c).chk.getLsbD 2 && !v.getLsbD 2) ∧
      (t.ctx c).chk.getLsbD 3 = ((s.ctx c).chk.getLsbD 3 && !v.getLsbD 3) ∧
      getBits (t.ctx c).chk 25 27 = getBits v 25 27 ∧ getBits (t.ctx c).chk 4 17 = getBits (s.ctx c).chk 4 17 ∧ SameMemory s t) ∧
    (∃ t, exec (.spdiagWrite c v) s = .next t ∧ (t.core c).spdiag = (s.core c).spdiag &&& ~~~0x1FFFFFFFF ||| v &&& 0x1FFFFFFFF ∧
      SameMemory s t) ∧
    (∃ t, exec (.rinjWrite c v) s = .next t ∧ (t.core c).rinj = (s.core c).rinj &&& ~~~0x1FFFFFFF ||| v &&& 0x1FFFFFFF ∧
      (t.core c).rinjSet = (s.core c).rinjSet + 1 ∧ (t.ctx c).tiles = (s.ctx c).tiles ∧ SameMemory s t) ∧
    (∃ t, exec (.statWrite c sec v) s = .next t ∧ (t.stream c sec).priv = (x.priv && v.getLsbD 0) ∧
      (t.stream c sec).rnd = getBits v 4 2 ∧ (t.stream c sec).dup = v.getLsbD 6 ∧ (t.stream c sec).hnd = x.hnd ∧
      (t.stream c sec).inter = x.inter ∧ SameMemory s t) ∧
    (∃ t, exec (.registerWrite (.ctl c sec 0x001) v) s = .next t ∧
      (∀ i, (t.stream c sec).tpc.getLsbD i = if i < 5 then x.tpc.getLsbD i else v.getLsbD i) ∧ SameMemory s t) ∧
    (∃ t, exec (.registerWrite (.ctl c sec 0x002) v) s = .next t ∧
      (∀ i, (t.stream c sec).tstat.getLsbD i = if i = 0 ∧ x.priv = false then x.tstat.getLsbD i else v.getLsbD i) ∧ SameMemory s t) ∧
    (∃ t, exec (.registerWrite (.ctl c sec 0x003) v) s = .next t ∧
      (∀ i, (t.stream c sec).tcause.getLsbD i = if i < 24 then v.getLsbD i else x.tcause.getLsbD i) ∧ SameMemory s t) ∧
    (∃ t, exec (.registerWrite (.ctl c sec 0x004) v) s = .next t ∧ (t.stream c sec).tval = v ∧ SameMemory s t) ∧
    (∃ t, exec (.registerWrite (.ctl c sec 0x005) v) s = .next t ∧
      (∀ i, (t.stream c sec).tvec.getLsbD i = if i = 0 ∨ 5 ≤ i then v.getLsbD i else x.tvec.getLsbD i) ∧ SameMemory s t) ∧
    (∃ t, exec (.registerWrite (.ctl c sec 0x00A) v) s = .next t ∧
      (∀ i, (t.ctx c).shbound.getLsbD i = if i < 4 then v.getLsbD i else (s.ctx c).shbound.getLsbD i) ∧ SameMemory s t) ∧
    (∃ t, exec (.registerWrite (.ctl c sec 0x020) v) s = .next t ∧
      (∀ i, (t.ctx c).domain.getLsbD i = if i < 42 then v.getLsbD i else (s.ctx c).domain.getLsbD i) ∧ SameMemory s t) ∧
    (∃ t, exec (.registerWrite (.ctl c sec 0x030) v) s = .next t ∧
      (∀ i, (t.core c).thr.getLsbD i = ((s.core c).thrFresh.getLsbD i ||
        if 12 ≤ i ∧ i < 20 then v.getLsbD i
        else if 4 ≤ i ∧ i < 9 then (s.core c).thr.getLsbD i && !v.getLsbD i else (s.core c).thr.getLsbD i)) ∧ SameMemory s t) ∧
    (∃ t, exec (.registerWrite (.ctl c sec 0x0D0) v) s = .next t ∧
      (∀ i, (t.core c).spstat.getLsbD i = ((s.core c).spstat.getLsbD i && !(decide (i = 48) && v.getLsbD i))) ∧ SameMemory s t) ∧
    (∀ n : BitVec 12, n.toNat ∈ [0x010, 0x0C4, 0x0C5, 0x0C6, 0x0C7, 0x0D1] →
      ∃ t, exec (.registerWrite (.ctl c sec n) v) s = .next t ∧ (t.core c).cyc = (s.core c).cyc ∧ (t.core c).spaddr = (s.core c).spaddr ∧
        (t.ctx c).tagStatus = (s.ctx c).tagStatus ∧ SameMemory s t) ∧
    (∃ t, exec (.registerWrite (.ctl c sec 0x008) v) s = .next t ∧
      (t.stream c sec).fflags = x.fflags &&& ~~~(v &&& 0x7F) ||| x.fresh.setWidth 64 ∧ SameMemory s t)

/-- R59: RANGE answers without faulting: with .t the IA, and otherwise its word with bit 63 set, when the range lies in the
window found, has the attributes asked for and one region; the whole word when no window holds the address is 0, and with .t
all ones. -/
def Sys2Proof.Claims.RangeProbes : Prop :=
  ∀ (s : State) (d a b : BitVec 6) (w r : Bool),
    let va := s.cur.rs a
    let n := Nat.max (s.cur.rs b).toNat 1
    let v := va.toNat % 2 ^ 57
    (∀ i : Fin 8, canonical va = true → winFind s.curCtx.win v = some i →
      let ia := v - winBase s.curCtx.win i + winOff s.curCtx.win i
      let at_ := winAttr s.curCtx.win i
      let ok := v + n ≤ winBase s.curCtx.win i + winSize s.curCtx.win i ∧ (r = true → at_.getLsbD 0 = true) ∧
        (w = true → at_.getLsbD 1 = true ∧ at_.getLsbD 3 = false) ∧ oneRegion ia n = true
      (ok → Writes (.range d a b w r true) s 2 d (BitVec.ofNat 64 ia)) ∧
      (¬ok → Writes (.range d a b w r true) s 2 d (BitVec.allOnes 64)) ∧
      (∃ z, Writes (.range d a b w r false) s 2 d z ∧ (z.getLsbD 63 = true ↔ ok) ∧ getBits z 0 3 = i.val ∧ z.getLsbD 3 = true ∧
        z.extractLsb' 16 6 = at_)) ∧
    ((canonical va = false ∨ winFind s.curCtx.win v = none) →
      Writes (.range d a b w r true) s 2 d (BitVec.allOnes 64) ∧ Writes (.range d a b w r false) s 2 d 0)

/-! ### Streams, domains and scheduling by the program -/

/-- R340: STRT on a secondary stream that does not live starts it at its target: its scalar registers and predicates, its
handler address, counts and snapshot point are the primary's, so are PRIV, DUP, RND, COV and PRIO of ctl.stat, with SEC 1, HND 0
and IMODE as the header says; its loops, flags and ring are empty, its generators are reseeded with 0, and s_d receives 0;
without a secondary entry STRT.hdr answers 2, and with the secondary live both answer 1; a misaligned target raises cause
0x05. R341: YIELD freezes the stream until its answer, at most 4,800 cycles on; without a task to take the core, or with F
above the task's own priority, it wakes with 0, and on a placement of several cores with 2. -/
def Sys2Proof.Claims.StartAndYield : Prop :=
  ∀ (s : State) (d a floor : BitVec 6),
    let started := fun (t : State) (target : Word) =>
      t.curCtx.sec.live = true ∧ t.curCtx.sec.pc = target.extractLsb' 5 59 ∧ (∀ r, t.curCtx.sec.rs r = s.curCtx.prim.rs r) ∧
      (∀ n, t.curCtx.sec.rp n = s.curCtx.prim.rp n) ∧ t.curCtx.sec.tvec = s.curCtx.prim.tvec ∧
      t.curCtx.sec.counts = s.curCtx.prim.counts ∧ t.curCtx.sec.snap = s.curCtx.prim.snap ∧
      (∀ i, t.curCtx.sec.stat.getLsbD i = if i = 1 then s.curCtx.hdrFlags.getLsbD 0 else if i = 2 then true
        else decide (i ≠ 3) && decide (i < 15) && s.curCtx.prim.stat.getLsbD i) ∧
      t.curCtx.sec.fflags = 0 ∧ t.curCtx.sec.loops = LoopSet.reset ∧ t.curCtx.sec.hloops = LoopSet.reset ∧
      t.curCtx.sec.ring = Vector.replicate 8 0 ∧
      (∀ i : Fin 128, t.curCtx.sec.gens[i] = reseedOne 0 i.val) ∧ t.curCtx.sec.ops = s.curCtx.sec.ops ∧ t.curCtx.sec.pushes = 0 ∧
      (s.issue.sec = false → t.cur.inflight = s.cur.inflight ++ [{ due := s.cur.sc + 2, dest := .scalar d 0 }]) ∧ SameMemory s t
    (s.curCtx.sec.live = false → s.curCtx.sec.stopped = none → (s.cur.rs a).toNat % 32 = 0 →
      ∃ t, exec (.strtReg d a) s = .next t ∧ started t (s.cur.rs a)) ∧
    (s.curCtx.sec.live = false → s.curCtx.sec.stopped = none → s.curCtx.hdrFlags.getLsbD 3 = true → s.curCtx.secEntry.toNat % 32 = 0 →
      ∃ t, exec (.strtHdr d) s = .next t ∧ started t s.curCtx.secEntry) ∧
    (s.curCtx.sec.live = false → s.curCtx.sec.stopped = none → s.curCtx.hdrFlags.getLsbD 3 = false → Writes (.strtHdr d) s 2 d 2) ∧
    (s.curCtx.sec.live = true ∨ s.curCtx.sec.stopped.isSome = true → Writes (.strtHdr d) s 2 d 1 ∧ Writes (.strtReg d a) s 2 d 1) ∧
    (s.curCtx.sec.live = false → s.curCtx.sec.stopped = none → (s.cur.rs a).toNat % 32 ≠ 0 → Handles s.cur →
      ∃ t, exec (.strtReg d a) s = .next t ∧ TrapTaken s t 0x05 (s.cur.rs a)) ∧
    (∃ t n, exec (.yieldCore d floor) s = .next t ∧ t.cur.wait = .yield d floor ∧
      (n, Instr.yieldAnswer s.issue.core s.issue.sec) ∈ t.agenda ∧ s.now < n ∧ n ≤ s.now + 4800 ∧ SameRegs s.cur t.cur ∧ SameMemory s t) ∧
    (∀ (c : CoreId) (sec : Bool), (s.stream c sec).wait = .yield d floor →
      (1 < (coresOf (s.ctx c).placed).length →
        ∃ t, exec (.yieldAnswer c sec) s = .next t ∧ Woken (s.stream c sec) (t.stream c sec) d 2) ∧
      ((coresOf (s.ctx c).placed).length ≤ 1 → (∀ q, s.taskOf c = some q → q.prio < floor ∨ s.yieldTo q c floor = none) →
        ∃ t, exec (.yieldAnswer c sec) s = .next t ∧ Woken (s.stream c sec) (t.stream c sec) d 0))

/-- R342: DOMJ joins or leaves a domain level: at levels 2 and 3 the membership bitmap becomes s_a, or the own core alone
with .off, when s_a names only cores of the placement; at levels 4 and 5 the group of s_a is entered when it is granted to
the task, or left with .off; the counts of that level become 0 in both streams and s_d receives 0; otherwise s_d receives 1
or 2 and nothing changes. -/
def Sys2Proof.Claims.DomainJoins : Prop :=
  ∀ (s : State) (d a : BitVec 6) (level : BitVec 3) (off : Bool), 2 ≤ level.toNat → level.toNat ≤ 5 →
    s.curCtx.prim.atPhase level = false → s.curCtx.sec.atPhase level = false →
    let own : BitVec 8 := 1#8 <<< s.issue.core.val
    let v := s.cur.rs a
    let cores := v.toNat < 256 ∧ (v.setWidth 8 ||| own) &&& ~~~s.curCtx.placed = 0
    let group := v.toNat < 4096 ∧ ∃ g ∈ s.hub.groups, g.number = v.toNat ∧ s.curCtx.taskId ∈ g.grants
    let joined := fun (t : State) =>
      (∀ x ∈ [t.curCtx.prim, t.curCtx.sec], x.count level.toNat = 0) ∧
      t.cur.inflight = s.cur.inflight ++ [{ due := s.cur.sc + 2, dest := .scalar d 0 }] ∧ SameMemory s t
    (level.toNat ≤ 3 → (off = true ∨ cores) → ∃ t, exec (.domj d a off level) s = .next t ∧ joined t ∧
      getBits t.curCtx.domain (if level = 2 then 0 else 8) 8 = (if off then own else v.setWidth 8).toNat) ∧
    (level.toNat ≤ 3 → off = false → ¬cores → Writes (.domj d a off level) s 2 d 1) ∧
    (4 ≤ level.toNat → (off = true ∨ group) → ∃ t, exec (.domj d a off level) s = .next t ∧ joined t ∧
      t.curCtx.domain.getLsbD (if level = 4 then 40 else 41) = !off ∧
      (off = false → getBits t.curCtx.domain (if level = 4 then 16 else 28) 12 = v.toNat)) ∧
    (4 ≤ level.toNat → off = false → ¬group → Writes (.domj d a off level) s 2 d 2)

/-! ### Phase boundaries, release, acquire -/

/-- R302, R303, R309 to R312, R373: PHASE and CHKPT hold their bundle until the boundary releases it; PHASE then writes the
boundary count and CHKPT its status; a drained stream arrives; at levels 4 and 5 the device, once its members have arrived,
asks the striker for the group's barrier; a complete boundary sets every member's snapshot point to this cycle and raises its
count, and at levels 4 and 5 the group's barrier is used up; a checkpoint's copy, of areas of which the host holds no line,
commits it, or at levels 4 and 5 waits for the barrier behind it; REL issues once ld, st and at are zero, the shadow checks have reported and, with .sys, the
host's flush is done; ACQ sets the snapshot point. -/
def Sys2Proof.Claims.PhaseReleaseAcquire : Prop :=
  (∀ (s : State) (d : BitVec 6) (level : BitVec 3) (arrived : Bool) (v : Word),
    (s.cur.hold = .phase level false arrived (some v) →
      Writes (.phase d level) s 2 d ((s.cur.count (effectiveLevel s.curCtx.domain level)).setWidth 64)) ∧
    (s.cur.hold = .phase level true arrived (some v) → Writes (.chkpt d level) s 2 d v) ∧
    (s.cur.hold = .none → s.cur.passed = none →
      (∃ t, exec (.phase d level) s = .next t ∧ t.issue.status = .held (.phase level false false none) ∧ SameRegs s.cur t.cur) ∧
      (∃ t, exec (.chkpt d level) s = .next t ∧ t.issue.status = .held (.phase level true false none) ∧ SameRegs s.cur t.cur))) ∧
  (∀ (s : State) (c : CoreId) (sec : Bool) (level : BitVec 3) (chk : Bool), s.mayArrive c sec = true →
    (s.stream c sec).hold = .phase level chk false none →
    ∃ t, exec (.phaseArrival c sec) s = .next t ∧ (t.stream c sec).hold = .phase level chk true none ∧ SameMemory s t) ∧
  (∀ (s : State) (c : CoreId) (sec : Bool) (level : BitVec 3) (chk : Bool) (g : Group),
    (s.stream c sec).hold = .phase level chk true none → s.mayJoin c sec = true →
    s.group ((s.ctx c).groupOf (effectiveLevel (s.ctx c).domain level)) = some g →
    ∃ t who, exec (.phaseArrival c sec) s = .next t ∧ (∃ q, t.group g.number = some q ∧ q.joined = g.barrier + 1) ∧
      UnderWay t (.strikeRequest g.number (barrierIndex g.barrier) who
        { op := 6, fmt := 0, red := 0, n := 0, root := 0, failed := g.closed }) ∧ SameMemory s t) ∧
  (∀ (s : State) (c : CoreId) (sec : Bool) (level : BitVec 3), (s.stream c sec).hold = .phase level false true none →
    let e := effectiveLevel (s.ctx c).domain level
    let n := (s.stream c sec).count e
    1 ≤ level.toNat → level.toNat ≤ 5 → s.boundaryReady c sec = 1 →
    (∀ m ∈ s.released c e n, ∀ l k a, (s.stream m.1 m.2).hold = .phase l k a none → k = false) →
    ∃ t, exec (.phaseBoundaryComplete c sec) s = .next t ∧
      (∀ m ∈ s.released c e n, (t.stream m.1 m.2).snap = s.now ∧ (t.stream m.1 m.2).count e = n + 1 ∧
        ∃ l, (t.stream m.1 m.2).hold = .phase l false true (some 0)) ∧
      (4 ≤ e → ∀ g, s.group ((s.ctx c).groupOf e) = some g → ∃ q, t.group g.number = some q ∧ q.barrier = g.barrier + 1) ∧
      SameMemory s t) ∧
  (∀ (s : State) (key : Nat) (c : CoreId) (sec : Bool), s.checkpointAt key = some (c, sec) → s.copyingOf c = 1 →
    (s.hub.hlstat.getLsbD 9 = false ∨ s.hub.hostMapped = false) →
    let e := effectiveLevel (s.ctx c).domain (((s.stream c sec).boundary.map (·.1)).getD 3)
    (4 ≤ e → ∃ t, exec (.checkpointCopyDone key) s = .next t ∧ t.copyingOf c = 2) ∧
    (e ≤ 3 → ∃ t, exec (.checkpointCopyDone key) s = .next t ∧
      (∀ m ∈ (s.ctx c).domainOf c e,
        getBits (t.ctx m).chk 4 17 = (getBits (s.ctx m).chk 4 17 + 1) % 2 ^ 17 ∧ (t.ctx m).chk.getLsbD 1 = true ∧
        (t.ctx m).chk.getLsbD 3 = false))) ∧
  (∀ (s : State) (scope : BitVec 3), s.cur.ld = 0 → s.cur.st = 0 → s.cur.at_ = 0 → s.cur.checks ≤ s.now →
    s.cur.reporting true = false → (scope ≠ 5 ∨ ∃ f, s.cur.hold = .rel f true) → Nothing (.rel scope) s) ∧
  (∀ (s : State) (scope : BitVec 3), (s.cur.ld ≠ 0 ∨ s.cur.st ≠ 0 ∨ s.cur.at_ ≠ 0) →
    ∃ t h, exec (.rel scope) s = .next t ∧ t.issue.status = .held h ∧ SameRegs s.cur t.cur ∧ SameMemory s t) ∧
  (∀ (s : State) (c : CoreId) (sec f : Bool), (s.stream c sec).hold = .rel true f →
    ∃ t, exec (.hostWindowFlushComplete c sec) s = .next t ∧ (t.stream c sec).hold = .rel true true ∧ SameMemory s t) ∧
  (∀ (s : State) (scope : BitVec 3), ∃ t, exec (.acq scope) s = .next t ∧ t.cur.snap = s.now ∧
    (∀ w ∈ t.cur.own, ∀ n, w.applied = some n → s.now < n) ∧ (∀ w ∈ s.cur.own, w.applied = none → w ∈ t.cur.own) ∧
    SameRegs s.cur t.cur ∧ SameCtx s.curCtx t.curCtx ∧ SameMemory s t)

/-! ### Waiting on a word -/

/-- R315: WADDR on an aligned, translated, confirmed address freezes the stream with the value of s_b and 2 to the n cycles
(n = 0: no timeout). It wakes with the word when a read finds it different, with zero and cause 0x11 when the read is poisoned,
with the word last read when a trap is pending and at the timeout; a read that finds it equal leaves the stream waiting. In a
window of the host or of a peer whose link is up a poll first goes out over the link (log 87). That a trap pending before the first
read gives s_b is the model's choice (log 43). -/
def Sys2Proof.Claims.WordWaits : Prop :=
  (∀ (s : State) (d a b n : BitVec 6) (ia : Nat) (attr : BitVec 6), (s.cur.rs a).toNat % 8 = 0 →
    Translates s (s.cur.rs a) 8 .read ia attr → Confirmed s (sharesFor ia 8 (s.cur.rs a)) →
    (∀ o ∈ s.cur.ops, o.kind.newest = true → s.place (ia / 64 * 64) ∉ o.kind.lines.map s.place) →
    Freezes (.waddr d a b n) s (.addr { d := d, va := s.cur.rs a, ia := ia, attr := attr, expect := s.cur.rs b
                                        left := if n = 0 then none else some (2 ^ n.toNat)
                                        last := s.cur.rs b, poll := 0, sent := none, pend := s.cur.pending.length })) ∧
  (∀ (s : State) (c : CoreId) (sec : Bool) (w : Watch), (s.stream c sec).wait = .addr w →
    let far := watched (regionOf w.ia) = false ∧ s.linkUp (regionOf w.ia) = true
    let u := (match w.sent with | some q => s.linkDone c q.1 | none => s).watchServe c w
    (w.pend < (s.stream c sec).pending.length →
      ∃ t, exec (.waddrWake c sec) s = .next t ∧ Woken (s.stream c sec) (t.stream c sec) w.d w.last ∧ SameMemory s t) ∧
    (far → w.sent = none → w.poll = 0 →
      ∃ t, exec (.waddrPoll c sec) s = .next t ∧ UnderWay t (.waddrPoll c sec) ∧
        (t.stream c sec).wait = .addr { w with poll := 1600, sent := some (s.nextId, s.now) } ∧ SameMemory s t) ∧
    (¬far ∨ w.sent ≠ none →
      (∀ v, u.watchRead c w = some v → v ≠ w.expect →
        ∃ t, exec (.waddrPoll c sec) s = .next t ∧ Woken (s.stream c sec) (t.stream c sec) w.d v ∧ SameMemory s t) ∧
      (u.watchRead c w = some w.expect → ∃ t, exec (.waddrPoll c sec) s = .next t ∧ SameMemory s t ∧
        (t.stream c sec).wait = .addr { w with last := w.expect, poll := if w.sent.isSome then w.poll else 1600, sent := none }) ∧
      (u.watchRead c w = none → (s.stream c sec).halted = false → (s.stream c sec).stopped = none →
        ∃ t, exec (.waddrPoll c sec) s = .next t ∧ Woken (s.stream c sec) (t.stream c sec) w.d 0 ∧
          (∃ q ∈ (t.stream c sec).pending, q.cause = 0x11) ∧ SameMemory s t)) ∧
    (w.left = some 0 →
      ∃ t, exec (.waddrTimeout c sec) s = .next t ∧ Woken (s.stream c sec) (t.stream c sec) w.d w.last ∧ SameMemory s t))

/-! ### Swaps by the program -/

/-- R24, R361, R365: SWPREP with PRIV, two 2 MiB areas in package memory and an EMPTY bank freezes the stream while it stages
and otherwise answers 1; with PRIV clear it raises cause 0x02; at the end of a valid staging the bank is STAGED and s_d
receives 0. SWAP on one core with a context so staged makes it live after its bundle, puts the old context into the bank to
spill, and issues nothing for 32 cycles; with the bank not STAGED it answers 1, on several cores 2; with PRIV clear it raises
cause 0x02. -/
def Sys2Proof.Claims.ProgramSwaps : Prop :=
  (∀ (s : State) (d a b : BitVec 6) (ia ib : Nat) (fa fb : BitVec 6), s.cur.priv = true →
    (s.cur.rs a).toNat % 2 ^ 21 = 0 → (s.cur.rs b).toNat % 2 ^ 21 = 0 →
    Translates s (s.cur.rs a) (2 ^ 21) .read ia fa → Translates s (s.cur.rs b) (2 ^ 21) .write ib fb →
    inPackage ia = true → inPackage ib = true →
    (s.curCore.bank = .empty → ∃ t, exec (.swprep d a b) s = .next t ∧ t.cur.wait = .staging d ia ib (s.cur.rs b) ∧
      UnderWay t (.swprepStagingEnd s.issue.core s.issue.sec) ∧ SameRegs s.cur t.cur ∧ SameMemory s t) ∧
    (s.curCore.bank ≠ .empty → Writes (.swprep d a b) s 2 d 1)) ∧
  (∀ (s : State) (d a b : BitVec 6), s.cur.priv = false → Handles s.cur →
    ∃ t w, exec (.swprep d a b) s = .next t ∧ encode (.swprep d a b) = some w ∧ TrapTaken s t 0x02 (w ++ 0#32)) ∧
  (∀ (s : State) (c : CoreId) (sec : Bool) (d : BitVec 6) (ia ib : Nat) (va : Word),
    (s.stream c sec).wait = .staging d ia ib va → (s.core c).bank = .empty →
    (∀ x, (s.stageImage c ia).2.2 = some x → ∃ t, exec (.swprepStagingEnd c sec) s = .next t ∧ (t.core c).bank = .staged ∧
      (t.core c).shadow = x ∧ (t.core c).saveArea = ib ∧ (t.stream c sec).wait = .none ∧
      { due := (s.stream c sec).sc + 2, dest := .scalar d 0 } ∈ (t.stream c sec).inflight ∧ SameMemory s t) ∧
    ((s.stageImage c ia).2.2 = none → ∃ t, exec (.swprepStagingEnd c sec) s = .next t ∧ (t.core c).bank = .empty ∧
      { due := (s.stream c sec).sc + 2, dest := .scalar d (s.stageImage c ia).2.1 } ∈ (t.stream c sec).inflight ∧ SameMemory s t)) ∧
  (∀ (s : State) (d : BitVec 6), s.cur.priv = false → Handles s.cur →
    ∃ t w, exec (.swap d) s = .next t ∧ encode (.swap d) = some w ∧ TrapTaken s t 0x02 (w ++ 0#32)) ∧
  (∀ (s : State) (d : BitVec 6), s.cur.priv = true →
    (s.curCore.bank = .staged → s.curCore.bankByTask = true → s.curCore.bankFor = none → (coresOf s.curCtx.placed).length ≤ 1 →
      s.curCore.live = true →
      ∃ t, exec (.swap d) s = .next t ∧ t.issue.status = .returning ∧ t.curCore.live = true ∧ SameCtx s.curCore.shadow t.curCtx ∧
        (∀ b, SameRegs (s.curCore.shadow.stream b) (t.curCtx.stream b) ∧ (t.curCtx.stream b).pc = (s.curCore.shadow.stream b).pc ∧
          (t.curCtx.stream b).live = (s.curCore.shadow.stream b).live) ∧
        t.curCore.bank = .spilling ∧ t.curCore.swapEnd = s.now + 32 ∧ t.curCore.saveArea = s.curCore.saveArea ∧
        (∀ r, t.curCore.shadow.prim.rs r = s.curCtx.prim.rs r) ∧ UnderWay t (.spillComplete s.issue.core) ∧ SameMemory s t) ∧
    (s.curCore.bank ≠ .staged → Writes (.swap d) s 2 d 1) ∧
    (s.curCore.bank = .staged → 1 < (coresOf s.curCtx.placed).length → Writes (.swap d) s 2 d 2))

/-! ### Loads, stores and atomics at issue -/

namespace Sys2Proof.Claims

/-- An access of n bytes at ea passes the checks of R195 and finds its IA. -/
structure Checked (s : State) (ea : Word) (n : Nat) (k : AccessKind) (ia : Nat) (attr : BitVec 6) : Prop where
  aligned : ea.toNat % n = 0
  found : Translates s ea n k ia attr
  present : Confirmed s (sharesFor ia n ea)

/-- A vector access whose enabled elements pass the checks of R195 and R200: they lie in one window, b is the access with
its place there. -/
structure VecReaches (s : State) (a b : VecAccess) (k : AccessKind) (attr : BitVec 6) : Prop where
  nonempty : a.elems ≠ []
  aligned : ∀ i ∈ a.elems, (a.va i).toNat % szBytes a.sz = 0
  found : ∃ ia, translate s.curCtx.win (BitVec.ofNat 64 a.low) (a.high + szBytes a.sz - a.low) k = some (ia, attr) ∧
    b = { a with shift := (ia : Int) - (a.low : Int) }

/-- An operation has been put outstanding at issue, and nothing else of the registers or memory changes. -/
structure Started (s t : State) (o : Op) : Prop where
  ops : t.cur.ops = s.cur.ops ++ [o]
  number : o.id = s.nextId
  snap : o.snap = s.cur.snap
  regs : SameRegs s.cur t.cur
  ctx : SameCtx s.curCtx t.curCtx
  memory : SameMemory s t
  flight : t.cur.inflight = s.cur.inflight

/-- The sub-banks that an own-slice access needs are free (R118, R120, R121). -/
def BanksFree (s : State) (ps : List SlicePlace) (two : Bool) : Prop := s.bankClash ps two = none ∧ s.agedAt ps two = false

end Sys2Proof.Claims

/-- R194 to R198: LD and LDG at an aligned, translated, confirmed address. Elsewhere than in the own slice a load is counted
in ld and its data are under way; from the own slice it lands in 6 stream cycles with the bytes zero-extended. A misaligned
address raises cause 0x05 and an untranslated one 0x0F, with the address in ctl.tval. -/
def Sys2Proof.Claims.ScalarLoadsIssue : Prop :=
  ∀ (s : State) (d base : BitVec 6) (cls : BitVec 3) (sz : BitVec 2) (off : BitVec 9) (newest : Bool) (ia : Nat) (attr : BitVec 6),
    let n := 2 ^ sz.toNat
    let ea := s.cur.rs base + off.signExtend 64 * BitVec.ofNat 64 n
    let i := if newest then Instr.ldg d base cls sz off else .ld d base cls sz off
    (Checked s ea n .read ia attr → s.orderHeld (linesOf (addrs ia n)) false newest cls = false →
      (regionOf ia ≠ .slice s.issue.core.val → s.cur.ld < 32 →
        ∃ t o, exec i s = .next t ∧ Started s t o ∧ o.kind = .load d ia n ea newest ∧ o.cls = cls ∧ t.cur.ld = s.cur.ld + 1 ∧
          UnderWay t (.loadDataReturn s.issue.core o.id)) ∧
      (regionOf ia = .slice s.issue.core.val → BanksFree s (s.placesAt (addrs ia n)) false →
        s.curCore.spdiag.getLsbD 2 = false → (s.noteReads (addrs ia n)).firstPoison (addrs ia n) = none →
        let v := BitVec.ofNat 64 (natOfBytes ((addrs ia n).map (Memory.get s.mem)))
        ∃ t, exec i s = .next t ∧ t.cur.inflight = s.cur.inflight ++ [{ due := s.cur.sc + 6, dest := .scalar d v }] ∧
          SameRegs s.cur t.cur ∧ SameCtx s.curCtx t.curCtx ∧ SameMemory s t)) ∧
    (ea.toNat % n ≠ 0 → Handles s.cur → ∃ t, exec i s = .next t ∧ TrapTaken s t 0x05 ea) ∧
    (ea.toNat % n = 0 → translate s.curCtx.win ea n .read = none → Handles s.cur →
      ∃ t, exec i s = .next t ∧ TrapTaken s t 0x0F ea)

/-- R194 to R197, R203, R304: ST, STG and STNT start a store of the low bytes of s_d, counted in st, that is applied later;
ST and STNT to logged memory enter the own-write set at once. No byte of memory changes at issue. -/
def Sys2Proof.Claims.ScalarStoresIssue : Prop :=
  ∀ (s : State) (d base : BitVec 6) (cls : BitVec 3) (sz : BitVec 2) (off : BitVec 9) (ia : Nat) (attr : BitVec 6),
    let n := 2 ^ sz.toNat
    let ea := s.cur.rs base + off.signExtend 64 * BitVec.ofNat 64 n
    let bytes := atAddr ia (bytesOfNat n (s.cur.rs d).toNat)
    let ps := s.placesAt (addrs ia n)
    Checked s ea n .write ia attr → s.cur.st < 32 →
    (regionOf ia = .slice s.issue.core.val → BanksFree s ps (partialWord (bytes.map (·.1)))) →
    (∀ nt : Bool, s.orderHeld (linesOf (bytes.map (·.1))) true false cls = false →
      ∃ t o, exec (if nt then .stnt d base cls sz off else .st d base cls sz off) s = .next t ∧ Started s t o ∧
        o.kind = .store bytes false (regionOf ia = .host) ∧ o.cls = cls ∧ (nt = true → o.nt = true) ∧ t.cur.st = s.cur.st + 1 ∧
        t.cur.own = (if logged (regionOf ia) then
          { id := o.id, bytes := bytes, cls := cls, job := false, applied := none } :: s.cur.own else s.cur.own) ∧
        UnderWay t (.storeApplied s.issue.core o.id)) ∧
    (s.orderHeld (linesOf (bytes.map (·.1))) true true cls = false →
      ∃ t o, exec (.stg d base cls sz off) s = .next t ∧ Started s t o ∧ o.kind = .store bytes true (regionOf ia = .host) ∧
        t.cur.st = s.cur.st + 1 ∧ t.cur.own = s.cur.own ∧ UnderWay t (.storeApplied s.issue.core o.id))

/-- R194, R199 to R201: LDV and LDVS start one load of the enabled elements, counted in ld, unless one pass of the own slice
serves it, which lands in 6 stream cycles; with no element enabled the mask alone is cleared. STV and STVS start one store of
the enabled elements, and with none enabled do nothing. -/
def Sys2Proof.Claims.VectorAccessesIssue : Prop :=
  ∀ (s : State) (d base : BitVec 6) (cls m : BitVec 3) (sz : BitVec 2) (off k : BitVec 6) (strided : Bool) (b : VecAccess)
    (attr : BitVec 6),
    let ea := s.cur.rs base + off.signExtend 64 * 1024
    let a := if strided then s.vecAccess (s.cur.rs base) (s.cur.rs k) m sz else s.vecAccess ea (BitVec.ofNat 64 (2 ^ sz.toNat)) m sz
    let load := if strided then Instr.ldvs d base cls m sz k else .ldv d base cls m sz off
    let store := if strided then Instr.stvs d base cls m sz k else .stv d base cls m sz off
    let ia := b.ia (b.elems.headD 0)
    let ps := s.placesAt b.bytes
    let bytes := vecBytes (s.curCtx.rv d).toNat b
    (a.elems = [] → (m ≠ 0 → Lands load s 6 (.mask m (BitVec.allOnes 512) 0)) ∧ Nothing store s) ∧
    (VecReaches s a b .read attr → (m = 0 → Confirmed s b.shares) →
      s.orderHeld (linesOf b.bytes) false false cls = false →
      ((regionOf ia = .slice s.issue.core.val → (firstPass ps).length ≠ ps.length ∧ BanksFree s (firstPass ps) false) → s.cur.ld < 32 →
        ∃ t o, exec load s = .next t ∧ Started s t o ∧ o.kind = .vload d b ∧ o.cls = cls ∧ t.cur.ld = s.cur.ld + 1 ∧
          UnderWay t (.loadDataReturn s.issue.core o.id)) ∧
      (regionOf ia = .slice s.issue.core.val → (firstPass ps).length = ps.length → BanksFree s (firstPass ps) false →
        let s1 := s.noteReads b.bytes
        let r := s1.vecLoad b s.cur.snap [] id
        ∃ t, exec load s = .next t ∧ t.cur.inflight = s.cur.inflight ++ (r.dests d m).map (fun x => { due := s.cur.sc + 6, dest := x }) ∧
          SameRegs s.cur t.cur ∧ SameCtx s.curCtx t.curCtx ∧ SameMemory s t)) ∧
    (VecReaches s a b .write attr → Confirmed s b.shares → s.cur.st < 32 →
      s.orderHeld (linesOf (bytes.map (·.1))) true false cls = false →
      (regionOf ia = .slice s.issue.core.val → BanksFree s (firstPass ps) (partialWord (bytes.map (·.1)))) →
      ∃ t o, exec store s = .next t ∧ Started s t o ∧ o.kind = .store bytes false (regionOf ia = .host) ∧ o.cls = cls ∧
        t.cur.st = s.cur.st + 1 ∧ UnderWay t (.storeApplied s.issue.core o.id))

/-- R194, R199: the bytes that a vector store writes are exactly those of its enabled elements: byte j of element i of the
register at the address of element i plus j, lowest byte first. -/
def Sys2Proof.Claims.VectorStoreBytes : Prop :=
  ∀ (v : BitVec 8192) (a : VecAccess) (x : Nat) (y : Byte),
    let n := szBytes a.sz
    (x, y) ∈ vecBytes v.toNat a ↔
      ∃ i j, i < 1024 / n ∧ enabled a.en (8 * n) i = true ∧ j < n ∧ x = a.ia i + j ∧ y = v.extractLsb' (8 * (n * i + j)) 8

/-- R204 to R208: ATOM and CAS at an aligned, translated, confirmed address start one atomic, counted in at, that a home or
bank performs later; PGREQ starts a page request, counted in at; with an attribute missing it raises cause 0x0F. -/
def Sys2Proof.Claims.AtomicsIssue : Prop :=
  (∀ (s : State) (d a b : BitVec 6) (f : BitVec 4) (scope : BitVec 3) (w isCas : Bool) (ia : Nat) (attr : BitVec 6),
    let n := if w then 8 else 4
    let i := if isCas then Instr.cas d a b scope w else .atom d a b f scope w
    Checked s (s.cur.rs a) n .rmw ia attr →
    (regionOf ia = .host → scope = 5 → isCas = true ∨ f = 0 ∨ f = 8) →
    s.orderHeld (linesOf (addrs ia n)) true true 0 = false → s.cur.at_ < 16 →
    (regionOf ia = .slice s.issue.core.val → BanksFree s (s.placesAt (addrs ia n)) true) →
    ∃ t o, exec i s = .next t ∧ Started s t o ∧ t.cur.at_ = s.cur.at_ + 1 ∧ UnderWay t (.atomicPerformed s.issue.core o.id) ∧
      o.kind = .atomic d ia (s.cur.rs a) (if isCas then .cas (s.cur.rs d) else .op f) w (s.cur.rs b) scope) ∧
  (∀ (s : State) (d a b : BitVec 6) (wr : Bool) (ia : Nat) (attr : BitVec 6),
    let len := Nat.max (s.cur.rs b).toNat 1
    (len ≤ 2 ^ 30 → Translates s (s.cur.rs a) len .probe ia attr →
    ((if wr then attr.getLsbD 1 && !attr.getLsbD 3 else attr.getLsbD 0) = true → s.cur.at_ < 16 →
      ∃ t o d', exec (.pgreq d a b wr) s = .next t ∧ Started s t o ∧ o.kind = .page d ia len ∧ t.cur.at_ = s.cur.at_ + 1 ∧
        UnderWay t (.pageRequestSettled s.issue.core o.id d')) ∧
    ((if wr then attr.getLsbD 1 && !attr.getLsbD 3 else attr.getLsbD 0) = false → Handles s.cur →
      ∃ t, exec (.pgreq d a b wr) s = .next t ∧ TrapTaken s t 0x0F (s.cur.rs a))) ∧
    (2 ^ 30 < len → s.cur.at_ < 16 →
      ∃ t o d', exec (.pgreq d a b wr) s = .next t ∧ Started s t o ∧ o.kind = .page d 0 len ∧ t.cur.at_ = s.cur.at_ + 1 ∧
        UnderWay t (.pageRequestSettled s.issue.core o.id d')))

/-! ### What the homes and banks do -/

/-- A counter of a stream once an operation has ended: it falls by one, unless the operation was left by what ran before the
stream was started again, which no counter counts (R187, R340). -/
def Sys2Proof.Claims.fell (x : Stream) (id n : Nat) : Nat := if x.opBase ≤ id then n - 1 else n

/-- R187, R196 to R199, R203 to R208: the data of a load land in its register and ld falls, in a live context and in one that a
shadow bank holds; LDG reads the newest bytes, LD those of the snapshot with the own-write set where no unrelated store of the
stream races with it; a write of s0 is discarded; poison gives zero and pends cause 0x11. A vector load with a mask field also
writes its mask. An operation that still waits for a grant of another core's sub-bank tries again in the next cycle. A settled
page request writes 0 when every share is resident and 1 otherwise, and 2 for a length above 2^30; a residency answer reaches
the held bundle. -/
def Obligations.LoadsReturn : Prop :=
  (∀ (s : State) (c : CoreId) (sh sec : Bool) (o : Op) (d q : BitVec 6) (ia len : Nat) (ea : Word) (newest : Bool),
    (s.core c).opBank o.id = some (sh, sec, o) → o.waits = [] → o.kind = .load d ia len ea newest →
    let mine := fun (t : State) => ((t.core c).bankCtx sh).stream sec
    let s1 := s.serveRead c o
    let poison := s1.firstPoison ((addrs ia len).map (s.servedAt c o.rep))
    ∃ t, exec (.loadDataReturn c o.id) s = .next t ∧ (mine t).ld = fell (mine s) o.id (mine s).ld ∧
      (∀ p ∈ (mine t).ops, p.id ≠ o.id) ∧ SameMemory s t ∧ (q ≠ d → (mine t).rs q = (mine s).rs q) ∧
      (poison = none →
        (∀ w ∈ (mine s).own, w.job = true ∨ w.related o.cls = true ∨
          ∀ p ∈ w.bytes, s.place p.1 ∉ (addrs ia len).map s.place) →
        (mine t).rs d = if d = 0 then 0 else BitVec.ofNat 64 (natOfBytes
          (if newest then (addrs ia len).map s1.byteNow else s1.plainBytes o.snap o.own ia len))) ∧
      (poison ≠ none → (mine t).rs d = 0 ∧
        ((mine s).stopped = none → (mine s).halted = false → ∃ p ∈ (mine t).pending, p.cause = 0x11))) ∧
  (∀ (s : State) (c : CoreId) (sh sec : Bool) (o : Op) (d : BitVec 6) (a : VecAccess), (s.core c).opBank o.id = some (sh, sec, o) →
    o.waits = [] → o.kind = .vload d a →
    let mine := fun (t : State) => ((t.core c).bankCtx sh).stream sec
    let s0 := if a.mask = 0 then s else a.shares.foldl (fun s p => (s.touchShare p.1 o.z).1) s
    let r := (s0.serveRead c o).vecLoad a o.snap (s.opView c sh sec o) (s0.servedAt c o.rep)
    ∃ t, exec (.loadDataReturn c o.id) s = .next t ∧ (mine t).ld = fell (mine s) o.id (mine s).ld ∧ SameMemory s0 t ∧
      (∀ i < 8192, (((t.core c).bankCtx sh).rv d).getLsbD i =
        if r.written.testBit i then r.img.testBit i else (((s.core c).bankCtx sh).rv d).getLsbD i) ∧
      (∀ n, n ≠ 0 → ((t.core c).bankCtx sh).rm n = if n = a.mask then BitVec.ofNat 512 r.ok else ((s.core c).bankCtx sh).rm n) ∧
      (r.bad ≠ none → (mine s).stopped = none → (mine s).halted = false → ∃ p ∈ (mine t).pending, p.cause = 0x11)) ∧
  (∀ (s : State) (c : CoreId) (sh sec : Bool) (o : Op), (s.core c).opBank o.id = some (sh, sec, o) → (∃ w ∈ o.waits, w.1 ≠ c) →
    ∀ i ∈ [Instr.loadDataReturn c o.id, .storeApplied c o.id, .atomicPerformed c o.id],
      ∃ t, exec i s = .next t ∧ (s.now + 1, i) ∈ t.agenda ∧ SameMemory s t ∧
        ∀ b, (∀ r, (t.stream c b).rs r = (s.stream c b).rs r) ∧ (t.stream c b).ops.map (·.id) = (s.stream c b).ops.map (·.id) ∧
          (t.stream c b).ld = (s.stream c b).ld ∧ (t.stream c b).st = (s.stream c b).st ∧ (t.stream c b).at_ = (s.stream c b).at_) ∧
  (∀ (s : State) (c : CoreId) (sh sec declined : Bool) (o : Op) (d : BitVec 6) (ia len : Nat),
    (s.core c).opBank o.id = some (sh, sec, o) → o.kind = .page d ia len →
    let mine := fun (t : State) => ((t.core c).bankCtx sh).stream sec
    ∃ t, exec (.pageRequestSettled c o.id declined) s = .next t ∧ (mine t).at_ = fell (mine s) o.id (mine s).at_ ∧
      (2 ^ 30 < len → (mine t).rs d = (if d = 0 then 0 else 2) ∧ SameMemory s t) ∧
      (len ≤ 2 ^ 30 → ((mine t).rs d = 0 ∨ (mine t).rs d = 1) ∧
        (logged (regionOf ia) = false → (mine t).rs d = 0 ∧ SameMemory s t) ∧
        (d ≠ 0 → logged (regionOf ia) = true → ((mine t).rs d = 0 ↔ ∀ a ∈ sharesIn ia len, t.resident a = true)))) ∧
  (∀ (s : State) (c : CoreId) (sec z : Bool) (sh : Nat), (s.stream c sec).hold = .residency sh z →
    ∃ t, exec (.residencyAnswer c sec) s = .next t ∧ aget (t.stream c sec).answers sh = some (t.resident sh) ∧
      (t.resident sh = true → (t.core c).resCache.head? = some (t.confirmKey sh)))

/-- R63, R64, R69, R79, R84, R85, R187, R203, R308: a store whose copies and host have answered is applied at its home: every
byte that it names takes its value where it lies, st falls, and every other byte of memory reads as before. A request to a peer
that is sent on no port is dropped and counted; one whose port has left the up state keeps the store outstanding (the model's
choice, assumption 76). A store that must wait for copies or the host tries again in the next cycle. (A slice under raw
diagnosis, R411, is left out: there a partial write stores its whole word.) -/
def Obligations.StoresApply : Prop :=
  ∀ (s : State) (c : CoreId) (sh sec fresh host : Bool) (o : Op) (bytes : List (Nat × Byte)),
    (s.core c).opBank o.id = some (sh, sec, o) → o.waits = [] → o.kind = .store bytes fresh host →
    let mine := fun (t : State) => ((t.core c).bankCtx sh).stream sec
    let l := s.placed bytes
    let ended := fun (t : State) => (mine t).st = fell (mine s) o.id (mine s).st ∧ ∀ p ∈ (mine t).ops, p.id ≠ o.id
    ((s.writeReady (.storeApplied c o.id) (bytes.map (·.1))).2 = true →
      ((∀ q ∈ o.ports, ∃ i, q.2 = some i ∧ s.portUp i = true) → ∃ t, exec (.storeApplied c o.id) s = .next t ∧ ended t ∧
        ((∀ p ∈ l, (s.spdiagOf p.1).getLsbD 2 = false) →
          ∀ a, (∀ p ∈ l, p.1 ≠ a) → Memory.get t.mem a = Memory.get s.mem a) ∧
        (s.canonical → (∀ p ∈ bytes, s.linkUp (regionOf p.1) = true) →
          (∀ p ∈ l, s.spdiagOf p.1 = 0 ∧ unitOf p.1 ∉ s.poison ∧ unitOf p.1 ∉ s.fatals) →
          ∀ a b, aget l.reverse a = some b → Memory.get t.mem a = b)) ∧
      (∀ block, o.ports = [(block, none)] → (∀ p ∈ bytes, p.1 / 256 = block) → ∃ t, exec (.storeApplied c o.id) s = .next t ∧ ended t ∧
        getBits t.hub.ulunrt 0 32 = Nat.min (getBits s.hub.ulunrt 0 32 + 1) (2 ^ 32 - 1) ∧ SameMemory s t) ∧
      (∀ block i, o.ports = [(block, some i)] → s.portUp i = false → (∀ p ∈ bytes, p.1 / 256 = block) →
        ∃ t, exec (.storeApplied c o.id) s = .next t ∧ (∃ p ∈ (mine t).ops, p.id = o.id) ∧ (mine t).st = (mine s).st ∧ SameMemory s t)) ∧
    ((s.writeReady (.storeApplied c o.id) (bytes.map (·.1))).2 = false → ∃ t, exec (.storeApplied c o.id) s = .next t ∧
      (s.now + 1, Instr.storeApplied c o.id) ∈ t.agenda ∧ (mine t).ops = (mine s).ops ∧ (mine t).st = (mine s).st ∧ SameMemory s t)

/-- What an atomic's function code gives from the old value and the operand, both of w bits (R205): add, and, or, xor, the
signed and unsigned minimum and maximum, and swap. -/
def Sys2Proof.Claims.atomValue (f : Nat) (old b : BitVec w) : BitVec w :=
  if f = 0 then old + b else if f = 1 then old &&& b else if f = 2 then old ||| b else if f = 3 then old ^^^ b
  else if f = 4 then (if old.toInt ≤ b.toInt then old else b) else if f = 5 then (if old.toInt ≤ b.toInt then b else old)
  else if f = 6 then (if old.toNat ≤ b.toNat then old else b) else if f = 7 then (if old.toNat ≤ b.toNat then b else old) else b

/-- The bytes that an atomic leaves at its location, from the old value (R205, R206): the function of it, for .fadd the sum to
nearest even as FADD rounds it with subnormals kept (R213), and for a compare that fails the old value. -/
def Sys2Proof.Claims.AtomLeaves (k : AtomKind) (wide : Bool) (ia old : Nat) (b : Word) (t : State) : Prop :=
  let n := if wide then 8 else 4
  let now := natOfBytes ((addrs ia n).map (Memory.get t.mem))
  (∀ f : BitVec 4, k = .op f → f.toNat ≤ 8 →
    BitVec.ofNat (8 * n) now = atomValue f.toNat (BitVec.ofNat (8 * n) old) (b.setWidth (8 * n))) ∧
  (k = .op 9 → now = (fpBinary (if wide then fp64 else fp32) .rne false (addVal .rne) old (b.toNat % 2 ^ (8 * n))).1) ∧
  (∀ e : Word, k = .cas e → now = if old = e.toNat % 2 ^ (8 * n) then b.toNat % 2 ^ (8 * n) else old)

/-- R203 to R207: an atomic of 32 or 64 bits, on package or stack-local memory, a slice, the host window with .sys, or a peer,
that may be applied returns the old value in s_d (none in s0), writes the function of it, leaves every other byte as it was, and
at falls. On the host window with a narrower scope the hub reads first, with nothing written, and writes in a later cycle. -/
def Obligations.AtomicsPerform : Prop :=
  ∀ (s : State) (c : CoreId) (sh sec wide : Bool) (o : Op) (d : BitVec 6) (ia : Nat) (ea b : Word) (k : AtomKind) (scope : BitVec 3),
    let n := if wide then 8 else 4
    let mine := fun (t : State) => ((t.core c).bankCtx sh).stream sec
    (s.core c).opBank o.id = some (sh, sec, o) → o.waits = [] → o.kind = .atomic d ia ea k wide b scope → ia % n = 0 →
    s.canonical → s.hub.fwWrites = [] → (∀ a ∈ addrs ia n, s.place a = a) → s.linkUp (regionOf ia) = true →
    (s.writeReady (.atomicPerformed c o.id) (addrs ia n)).2 = true → s.spdiagOf ia = 0 →
    unitOf ia ∉ s.poison → (∀ w ∈ s.fatals, lineOf w ≠ lineOf ia) →
    let now := natOfBytes ((addrs ia n).map (Memory.get s.mem))
    let halves := regionOf ia = .host ∧ scope ≠ 5
    (∀ old, (¬halves ∧ old = now) ∨ (halves ∧ o.half = some old ∧ old < 2 ^ (8 * n)) →
      ∃ t, exec (.atomicPerformed c o.id) s = .next t ∧ (mine t).rs d = (if d = 0 then 0 else BitVec.ofNat 64 old) ∧
        (mine t).at_ = fell (mine s) o.id (mine s).at_ ∧ (∀ p ∈ (mine t).ops, p.id ≠ o.id) ∧
        (∀ e : Word, k = .cas e → old ≠ e.toNat % 2 ^ (8 * n) → SameMemory s t) ∧
        ((∀ e : Word, k = .cas e → old = e.toNat % 2 ^ (8 * n)) → AtomLeaves k wide ia old b t) ∧
        (∀ x, (x < ia ∨ ia + n ≤ x) → Memory.get t.mem x = Memory.get s.mem x)) ∧
    (halves → o.half = none → ∃ t, exec (.atomicPerformed c o.id) s = .next t ∧
      (∃ p ∈ (mine t).ops, p.id = o.id ∧ p.half = some now) ∧ UnderWay t (.atomicPerformed c o.id) ∧
      (mine t).at_ = (mine s).at_ ∧ SameMemory s t)

/-- R63, R65, R68 to R70, R79: a pool is refilled or its refill tried again; an unmapped share leaves every residency cache
and is no longer resident; placing copies of a 64 KiB page of a replicable window sets RMASK for those that their homes have room
for; the last acknowledgement of an invalidation clears RMASK and frees the held write; a fence marks its copy absent, sets
HESTAT bit 2, and is logged to the firmware with vector 0; a snoop response is recorded. No byte of memory changes but those of
a write of the firmware that waited for the response. -/
def Sys2Proof.Claims.HomesAnswer : Prop :=
  ∀ (s : State) (h copy : CoreId),
    (∃ t, exec (.poolRefill h) s = .next t ∧ SameMemory s t ∧
      ((256 ≤ (t.home h).pool8.length ∧ 256 ≤ (t.home h).pool64.length) ∨ UnderWay t (.poolRefill h))) ∧
    (∀ ia, s.canonical → homeOf ia = h → s.mayUnmap ia = true → s.shareInUse ia = false →
      ∃ t, exec (.shareUnmap h ia) s = .next t ∧ t.resident ia = false ∧ (∀ c, (t.core c).holds (shareOf ia) = false) ∧
        SameMemory s t) ∧
    (∀ page (copies : BitVec 8) k e, s.canonical → regionOf page = .stack k → homeOf page = h → s.leafOf page = some (4, e) →
      s.replicable page = true →
      ∃ t, exec (.replicaPlace h page copies) s = .next t ∧ SameMemory s t ∧
        ∀ c : CoreId, (t.rmask page).getLsbD c.val = (copies.getLsbD c.val && decide (c ≠ h) && t.copyLeaf c page)) ∧
    (∀ page (m : BitVec 8), s.canonical → aget (s.home h).invalidating page = some m → homeOf page = h →
      (m &&& ~~~(1#8 <<< copy.val) = 0 →
        ∃ t, exec (.replicaInvalidationAck h page copy) s = .next t ∧ aget (t.home h).invalidating page = none ∧ t.rmask page = 0 ∧
          SameMemory s t) ∧
      (m &&& ~~~(1#8 <<< copy.val) ≠ 0 →
        ∃ t, exec (.replicaInvalidationAck h page copy) s = .next t ∧
          aget (t.home h).invalidating page = some (m &&& ~~~(1#8 <<< copy.val)) ∧ SameMemory s t) ∧
      (m.getLsbD copy.val = true → copy ≠ h →
        ∃ t, exec (.replicaFence h page copy) s = .next t ∧ (t.home h).hestat.getLsbD 2 = true ∧
          tget 0 (t.home copy).pte (pteKey 4 page) = 0 ∧ .copyFenced h (s.pageOf page) (1#8 <<< copy.val) ∈ t.hub.reports ∧ tget 0 t.hub.msix 0 = tget 0 s.hub.msix 0 + 1 ∧ SameMemory s t)) ∧
    (∀ line v, aget (s.home (homeOf line)).snoops line = some v →
      (s.hub.fwWrites = [] → ∃ t, exec (.hostSnoopResponse line) s = .next t ∧
        aget (t.home (homeOf line)).snoops line = some true ∧ SameMemory s t) ∧
      (∀ bytes, s.hub.fwWrites = [(line, bytes, none)] → (∀ o ∈ s.allOps, o.half = none) → s.canonical → line % 64 = 0 → regionOf line = .pkg → bytes.length ≤ 64 →
        ∃ t, exec (.hostSnoopResponse line) s = .next t ∧ t.hub.fwWrites = [] ∧
          (∀ i (h : i < bytes.length), Memory.get t.mem (line + i) = bytes[i]) ∧
          ∀ a, (a < line ∨ line + bytes.length ≤ a) → Memory.get t.mem a = Memory.get s.mem a))

/-- R72 to R74, R121, R123 to R125: a patrol read corrects and counts the single-bit errors of a line, word by word, or poisons
the line for an uncorrectable one and sets HESTAT.UE; the counts of a scrub add up; the slice patrol counts a correctable word and queues its rewrite, which
clears the error; a remote request waits at its sub-bank and the oldest is granted. No byte of memory changes. -/
def Sys2Proof.Claims.PatrolsAndBanks : Prop :=
  ∀ (s : State) (c : CoreId) (n : Nat),
    (let u := n / 64 * 64
     let words := (List.range 8).map (fun i => u + 8 * i)
     pagedHere (regionOf u) = true → u ∉ s.poison →
      ((∃ w ∈ words, w ∈ s.fatals) → ∃ t, exec (.hbmPatrolRead n) s = .next t ∧ u ∈ t.poison ∧ (∀ w ∈ words, w ∉ t.fatals) ∧
        (t.home (homeOf u)).hestat.getLsbD 0 = true ∧ SameMemory s t) ∧
      ((∀ w ∈ words, w ∉ s.fatals) → ∃ t, exec (.hbmPatrolRead n) s = .next t ∧ (∀ w ∈ words, w ∉ t.flips) ∧
        getBits (t.home (homeOf u)).hecnt 0 32 =
          Nat.min (getBits (s.home (homeOf u)).hecnt 0 32 + (words.filter (fun w => decide (w ∈ s.flips))).length) (2 ^ 32 - 1) ∧
        SameMemory s t)) ∧
    (∃ t, exec (.hbmRefreshScrub c n) s = .next t ∧
      getBits (t.home c).hecnt 32 16 = Nat.min (getBits (s.home c).hecnt 32 16 + n) (2 ^ 16 - 1) ∧ SameMemory s t) ∧
    (8 * n < sliceBytes → (s.core c).spdiag = 0 → sliceBase c.val + 8 * n ∉ s.poison → sliceBase c.val + 8 * n ∉ s.fatals →
      sliceBase c.val + 8 * n ∈ s.flips → s.bankTaken c (slicePlace (8 * n)).index = false →
      ∃ t, exec (.slicePatrolRead c n) s = .next t ∧ (slicePlace (8 * n)).index ∈ (t.core c).granted ∧ sliceBase c.val + 8 * n ∈ (t.core c).writeback ∧
        getBits (t.core c).spstat 0 32 = Nat.min (getBits (s.core c).spstat 0 32 + 1) (2 ^ 32 - 1) ∧ SameMemory s t) ∧
    (sliceBase c.val + 8 * n ∈ (s.core c).writeback → (s.core c).raw = false → s.bankTaken c (slicePlace (8 * n)).index = false → ∃ t, exec (.sliceWordWriteback c n) s = .next t ∧
      sliceBase c.val + 8 * n ∉ t.flips ∧ sliceBase c.val + 8 * n ∉ (t.core c).writeback ∧ SameMemory s t) ∧
    (∀ requester, n < 256 → requester ≤ 8 → requester ≠ c.val →
      (∀ r ∈ (s.core c).remote, ¬(r.bank = n ∧ r.requester = requester)) →
      ∃ t, exec (.remoteSliceRequest c n requester) s = .next t ∧
        (t.core c).remote = (s.core c).remote ++ [{ bank := n, requester := requester, arrived := s.now }] ∧ SameMemory s t) ∧
    (s.mayGrant c n = true → ∃ t r, exec (.remoteRequestGrant c n) s = .next t ∧ r ∈ (s.core c).remote ∧ r.bank = n ∧
      (∀ q ∈ (s.core c).remote, q.bank = n → r.arrived ≤ q.arrived) ∧ (t.core c).remote = (s.core c).remote.erase r ∧
      n ∈ (t.core c).granted ∧ SameMemory s t)

/-! ### Vector operands and results -/

namespace Sys2Proof.Claims

/-- A number of w bits as a two's complement integer. -/
def sgn (w x : Nat) : Int := if x < 2 ^ (w - 1) then (x : Int) else (x : Int) - 2 ^ w

/-- An integer as w bits of two's complement. -/
def enc (w : Nat) (x : Int) : Nat := (x % 2 ^ w).toNat

/-- An integer held within the signed range of w bits. -/
def held (w : Nat) (x : Int) : Int := if x < -(2 ^ (w - 1)) then -(2 ^ (w - 1)) else if 2 ^ (w - 1) - 1 < x then 2 ^ (w - 1) - 1 else x

/-- The enabled elements before element e in its lane. -/
def before (w : Nat) (on : Nat → Bool) (e : Nat) : Nat := ((List.range e).filter (fun k => on k && decide (w * k / 64 = w * e / 64))).length

/-- The generator of an element's lane (R140). -/
def genOf (x : Stream) (w e : Nat) : Word := x.gens.toList.getD (w * e / 64) 0

/-- The 16-bit word of the n-th draw of a generator (R140). -/
def drawn (g : Word) (n : Nat) : Nat := (nextGen^[n + 1] g).toNat / 2 ^ 48

/-- The registers of a stream that a vector instruction leaves at issue: all but its generators and its count of pushes. -/
structure SameScalars (x y : Stream) : Prop where
  scalars : ∀ r, y.rs r = x.rs r
  preds : ∀ n, y.rp n = x.rp n
  ring : y.ring = x.ring
  stat : y.stat = x.stat
  fflags : y.fflags = x.fflags
  seed : y.seed = x.seed
  traps : y.tpc = x.tpc ∧ y.tstat = x.tstat ∧ y.tcause = x.tcause ∧ y.tval = x.tval ∧ y.tvec = x.tvec
  counts : y.counts = x.counts
  pc : y.pc = x.pc

/-- The instruction completes at issue with results ds in flight, each due lat stream cycles later, behind the push that a
vector instruction makes unless a handler runs (R157, R348); generators aside, nothing else changes. -/
structure Issues (i : Instr) (s t : State) (lat : Nat) (ds : List Dest) : Prop where
  next : exec i s = .next t
  flight : t.cur.inflight = s.cur.inflight ++ ds.map (fun x => { due := s.cur.sc + lat, dest := x })
  pushes : t.cur.pushes = s.cur.pushes + (if s.cur.hnd then 0 else 1)
  regs : SameScalars s.cur t.cur
  ctx : SameCtx s.curCtx t.curCtx
  memory : SameMemory s t

/-- The number of the push that an instruction makes now (R157, R348). -/
def pushOf (s : State) : Option Nat := if s.cur.hnd then none else some s.cur.pushes

/-- The vector instruction completes with elements of w bits (R153, R209): element e of v_d becomes the value that f gives it
where on holds, and stays elsewhere. With draw each enabled element takes one word of its lane's generator, in ascending
order; else the generators stay. With flagged the flags of the enabled elements are ORed into ctl.fflags (R151). -/
def VecWrites (i : Instr) (s : State) (lat w : Nat) (d : BitVec 6) (on : Nat → Bool) (draw : Bool) (flagged : Bool)
    (f : Nat → Nat → Nat × BitVec 7) : Prop :=
  let word := fun e => if draw then drawn (genOf s.cur w e) (before w on e) else 0
  ∃ t mask img fl, Issues i s t lat (.vec d mask img (pushOf s) :: (if flagged then [.flags fl] else [])) ∧
    (∀ e j, e < 8192 / w → j < w → mask.getLsbD (w * e + j) = on e ∧
      (on e = true → img.getLsbD (w * e + j) = (f (word e) e).1.testBit j)) ∧
    (∀ b, fl.getLsbD b = true ↔ ∃ e < 8192 / w, on e = true ∧ (f (word e) e).2.getLsbD b = true) ∧
    (∀ g : Fin 128, t.cur.gens[g] =
      nextGen^[if draw then ((List.range (8192 / w)).filter (fun e => on e && decide (w * e / 64 = g.val))).length else 0] s.cur.gens[g])

/-- The instruction completes with a mask (R154, R210): bit b of m_k becomes what f gives it where on holds, and stays
elsewhere; it pushes an entry of zeros. -/
def MaskWrites (i : Instr) (s : State) (lat : Nat) (k : BitVec 3) (on f : Nat → Bool) (flags : List Dest) : Prop :=
  ∃ t mask val, Issues i s t lat ((match pushOf s with | some n => [.ringZero n] | none => []) ++ .mask k mask val :: flags) ∧
    t.cur.gens = s.cur.gens ∧
    (∀ b < 512, mask.getLsbD b = on b ∧ (on b = true → val.getLsbD b = f b))

end Sys2Proof.Claims

/-- R30, R31, R153, R158: an operand code below 64 delivers the elements of its vector register; tap qk those of the ring
entry pushed k + 1 pushes before the bundle, or, where the stream has made fewer, that entry as its start left it; code 77 all
ones; codes 72 to 76 the constants 0, 1, −1, 0.5 and 2 (to an integer read 0.5 is 0), as integers, as FP32 and FP64, and but for
0.5 in each narrow format; codes 78 and 79 the lane and the cluster of the element, as integers, FP32 and FP64. -/
def Obligations.VectorOperands : Prop :=
  (∀ (s : State) (rd : ReadAs) (w e : Nat), 0 < w → w * (e + 1) ≤ 8192 →
    (∀ code : BitVec 7, code.toNat < 64 → ∀ j < w,
      (s.vsrc code rd w e).testBit j = (s.curCtx.rv (code.setWidth 6)).getLsbD (w * e + j)) ∧
    (∀ k : Nat, k < 8 → s.issue.pushed = 0 → ∀ j < w,
      (s.vsrc (BitVec.ofNat 7 (64 + k)) rd w e).testBit j =
        (s.cur.ring[(s.cur.pushes + 7 - k) % 8]'(Nat.mod_lt _ (by decide))).getLsbD (w * e + j)) ∧
    s.vsrc 77 rd w e = 2 ^ w - 1 ∧
    s.vsrc 72 .int w e = 0 ∧ s.vsrc 73 .int w e = 1 ∧ s.vsrc 74 .int w e = 2 ^ w - 1 ∧ s.vsrc 75 .int w e = 0 ∧
    (2 ≤ w → s.vsrc 76 .int w e = 2) ∧
    (5 ≤ w → s.vsrc 78 .int w e = w * e / 64 % 16 ∧ s.vsrc 79 .int w e = w * e / 1024)) ∧
  (∀ (s : State) (e : Nat),
    (s.vsrc 72 .flt 32 e = 0 ∧ s.vsrc 73 .flt 32 e = 0x3F800000 ∧ s.vsrc 74 .flt 32 e = 0xBF800000 ∧
      s.vsrc 75 .flt 32 e = 0x3F000000 ∧ s.vsrc 76 .flt 32 e = 0x40000000) ∧
    (s.vsrc 72 .flt 64 e = 0 ∧ s.vsrc 73 .flt 64 e = 0x3FF0000000000000 ∧ s.vsrc 74 .flt 64 e = 0xBFF0000000000000 ∧
      s.vsrc 75 .flt 64 e = 0x3FE0000000000000 ∧ s.vsrc 76 .flt 64 e = 0x4000000000000000) ∧
    (∀ fm ∈ [bf16, fp16, e5m2, e4m3, e2m1], ∀ w,
      s.vsrc 72 (.narrow fm) w e = 0 ∧ fm.decode (s.vsrc 73 (.narrow fm) w e) = .fin false (2 ^ fm.f) (-fm.f) ∧
      fm.decode (s.vsrc 74 (.narrow fm) w e) = .fin true (2 ^ fm.f) (-fm.f) ∧
      fm.decode (s.vsrc 76 (.narrow fm) w e) = .fin false (2 ^ fm.f) (1 - fm.f))) ∧
  (∀ (s : State) (e lane cluster : Nat), lane < 16 → cluster < 8 →
    (32 * e / 64 % 16 = lane → ∃ m q, fp32.decode (s.vsrc 78 .flt 32 e) = .fin false m q ∧ (m : ℚ) * 2 ^ q = lane) ∧
    (64 * e / 64 % 16 = lane → ∃ m q, fp64.decode (s.vsrc 78 .flt 64 e) = .fin false m q ∧ (m : ℚ) * 2 ^ q = lane) ∧
    (32 * e / 1024 = cluster → ∃ m q, fp32.decode (s.vsrc 79 .flt 32 e) = .fin false m q ∧ (m : ℚ) * 2 ^ q = cluster) ∧
    (64 * e / 1024 = cluster → ∃ m q, fp64.decode (s.vsrc 79 .flt 64 e) = .fin false m q ∧ (m : ℚ) * 2 ^ q = cluster))

/-! ### Exact values and their rounding -/

namespace Sys2Proof.Claims

/-- The rational number (−1)^n × m × 2^e. -/
def rat (n : Bool) (m : Nat) (e : Int) : ℚ := (if n then -1 else 1) * (m : ℚ) * 2 ^ e

/-- A rational magnitude rounded to a whole number in a mode (R138, R139): w is the random word of .rsr. -/
def wholeOf (mode : RMode) (neg : Bool) (w : Nat) (x : ℚ) : Int :=
  let lo := ⌊x⌋
  let f := x - lo
  let away := match mode with
    | .rne => decide (1 / 2 < f) || (decide (f = 1 / 2) && decide (lo % 2 = 1))
    | .rtz => false
    | .rup => decide (0 < f) && !neg
    | .rdn => decide (0 < f) && neg
    | .rsr => decide (65536 ≤ ⌊f * 65536⌋ + w)
  lo + if away then 1 else 0

/-- A positive magnitude rounded to the multiples of 2^q. -/
def onGrid (mode : RMode) (neg : Bool) (w : Nat) (q : Int) (x : ℚ) : ℚ := wholeOf mode neg w (x / 2 ^ q) * 2 ^ q

/-- The exponent of the quantum of a format at a positive magnitude, the subnormal grid included (R138). -/
def quantumAt (fm : Fmt) (x : ℚ) : Int := Max.max (Int.log 2 x) (1 - fm.bias) - fm.f

/-- The largest finite magnitude of a format (R129, R131, R132). -/
def maxFinite (fm : Fmt) : ℚ := if fm = e4m3 then 448 else if fm = e2m1 then 6 else (2 - 1 / 2 ^ fm.f) * 2 ^ fm.bias

/-- The formats that results are rounded into. -/
def targets : List Fmt := [fp64, fp32, bf16, fp16, e5m2, e4m3, e2m1]

/-- Data that are not NaN in order: the infinities about the finite values. -/
def extended : FVal → WithBot (WithTop ℚ)
  | .inf false => ((⊤ : WithTop ℚ) : WithBot (WithTop ℚ))
  | .fin n m e => ((rat n m e : WithTop ℚ) : WithBot (WithTop ℚ))
  | _ => ⊥

end Sys2Proof.Claims

/-- R138, R139, R142, R149: a nonzero value is rounded to the grid of its format and marked inexact, and underflowed below the
smallest normal, when a fraction is discarded; a rounded magnitude above the largest goes to the infinity, the largest or the
NaN that R142's table gives; where subnormals are flushed a value that rounds below the smallest normal becomes a zero of its
sign with FZ, UF and NX. -/
def Sys2Proof.Claims.RoundsIntoFormats : Prop :=
  ∀ fm ∈ targets, ∀ (mode : RMode) (ov : OvMode) (neg : Bool) (w m : Nat) (e : Int), 0 < m → w < 65536 →
    let x := rat false m e
    let g := onGrid mode neg w (quantumAt fm x) x
    let r := roundFin fm mode ov false w neg m e
    let toMax := match mode with | .rne => false | .rsr => false | .rtz => true | .rup => neg | .rdn => !neg
    let largest := (∃ k q, fm.decode r.1 = .fin neg k q ∧ rat false k q = maxFinite fm)
    (g ≤ maxFinite fm → (∃ k q, fm.decode r.1 = .fin neg k q ∧ rat false k q = g) ∧
      r.2 = (if x = g then 0 else fNX) ||| (if x ≠ g ∧ g < 2 ^ (1 - fm.bias) then fUF else 0)) ∧
    (maxFinite fm < g →
      (fm ≠ e4m3 → fm ≠ e2m1 → ov ≠ .sat → (if toMax then largest else fm.decode r.1 = .inf neg) ∧ r.2 = fOF ||| fNX) ∧
      (fm ≠ e2m1 → (ov = .sat ∨ fm = e4m3 ∧ ov = .dflt) → largest ∧ r.2 = fOF ||| fNX ||| (if toMax then 0 else fSAT)) ∧
      (fm = e4m3 → ov = .nan → (if toMax then largest else fm.decode r.1 = .nan neg true 0) ∧ r.2 = fOF ||| fNX) ∧
      (fm = e2m1 → largest ∧ r.2 = fOF ||| fNX ||| fSAT)) ∧
    ((fm = fp64 ∨ fm = fp32 ∨ fm = bf16) →
      let u := onGrid mode neg w (Int.log 2 x - fm.f) x
      (u < 2 ^ (1 - fm.bias) → fm.decode (roundFin fm mode ov true w neg m e).1 = .fin neg 0 (1 - fm.bias - fm.f) ∧
        (roundFin fm mode ov true w neg m e).2 = fFZ ||| fUF ||| fNX) ∧
      (2 ^ (1 - fm.bias) ≤ u → roundFin fm mode ov true w neg m e = r))

/-- R143: a finite value is converted to an integer by rounding it to a whole number, held to the range of the integer with NV
and SAT; an infinity goes to the end of the range, a NaN to 0 with NV. -/
def Sys2Proof.Claims.RoundsToIntegers : Prop :=
  ∀ (width : Nat) (signed : Bool) (mode : RMode) (w : Nat), 0 < width → w < 65536 →
    let lo : Int := if signed then -(2 ^ (width - 1)) else 0
    let hi : Int := if signed then 2 ^ (width - 1) - 1 else 2 ^ width - 1
    (∀ (neg : Bool) (m : Nat) (e : Int),
      let k := wholeOf mode neg w (rat false m e)
      let v := if neg then -k else k
      convertI width signed mode w (.fin neg m e) =
        if v < lo then (lo, fNV ||| fSAT) else if hi < v then (hi, fNV ||| fSAT) else (v, if rat false m e = k then 0 else fNX)) ∧
    convertI width signed mode w (.inf false) = (hi, fNV ||| fSAT) ∧ convertI width signed mode w (.inf true) = (lo, fNV ||| fSAT) ∧
    ∀ n q p, convertI width signed mode w (.nan n q p) = (0, fNV)

/-- R148, R212, R213, R214, R217: on finite operands FADD, FSUB, FMUL, FMA, FMS, FNMA and FSCL give the exact result rounded once;
an exact zero that two terms cancel to is positive but toward −∞. A product has the sign of its factors' signs. FMIN and FMAX
give the lesser and the greater value, exactly. -/
def Sys2Proof.Claims.ExactResults : Prop :=
  ∀ fm ∈ [fp32, fp64], ∀ (mode : RMode) (ex : Bool) (a b c : Nat) (n1 n2 n3 : Bool) (m1 m2 m3 : Nat) (e1 e2 e3 : Int),
    fm.operand ex a = (.fin n1 m1 e1, 0) → fm.operand ex b = (.fin n2 m2 e2, 0) → fm.operand ex c = (.fin n3 m3 e3, 0) →
    let gives := fun (r : Nat × BitVec 7) (v : ℚ) => ∃ n m e, rat n m e = v ∧ r = roundFin fm mode .dflt ex 0 n m e
    let p := rat n1 m1 e1 * rat n2 m2 e2
    gives (fpBinary fm mode ex (addVal mode) a b) (rat n1 m1 e1 + rat n2 m2 e2) ∧
    gives (fpBinary fm mode ex (subVal mode) a b) (rat n1 m1 e1 - rat n2 m2 e2) ∧
    gives (fpBinary fm mode ex mulVal a b) p ∧
    gives (fpFused fm mode ex false false a b c) (p + rat n3 m3 e3) ∧
    gives (fpFused fm mode ex false true a b c) (p - rat n3 m3 e3) ∧
    gives (fpFused fm mode ex true false a b c) (-p + rat n3 m3 e3) ∧
    (∀ k : Int, gives (fpScale fm mode ex a k) (rat n1 m1 e1 * 2 ^ k)) ∧
    (∀ max num : Bool, ∃ n m e, fm.decode (fpMinMax fm ex max num a b).1 = .fin n m e ∧ (fpMinMax fm ex max num a b).2 = 0 ∧
      rat n m e = if max then Max.max (rat n1 m1 e1) (rat n2 m2 e2) else Min.min (rat n1 m1 e1) (rat n2 m2 e2)) ∧
    (0 < m1 → rat n1 m1 e1 + rat n2 m2 e2 = 0 → 0 < m2 ∧
      fpBinary fm mode ex (addVal mode) a b = roundFin fm mode .dflt ex 0 (decide (mode = .rdn)) 0 0) ∧
    (p = 0 → fpBinary fm mode ex mulVal a b = roundFin fm mode .dflt ex 0 (n1 ^^ n2) 0 0)

/-- R212 to R217: the floating-point instructions complete with latency 4 on the elements their mask enables, or on all for
the fused ones, with the sum, difference, product, fused result, minimum, maximum or scaled value that the number rules give
each element, and the union of the elements' flags; FABS clears the sign bit, FNEG inverts it, FCLASS writes the class, and
none of those three raises a flag. -/
def Sys2Proof.Claims.VectorFloat : Prop :=
  ∀ (s : State) (d : BitVec 6) (a b : BitVec 7) (c : BitVec 5) (m : BitVec 3) (num t : Bool),
    let w := if t then 64 else 32
    let fm := if t then fp64 else fp32
    let x := s.vsrc a .flt w
    let y := s.vsrc b .flt w
    let z := s.vsrc (c.setWidth 7) .flt w
    let on := s.ven m w
    let two := fun (i : Instr) (f : Nat → Nat → Nat × BitVec 7) => VecWrites i s 4 w d on false true (fun _ e => f (x e) (y e))
    let three := fun (i : Instr) (p q : Bool) =>
      VecWrites i s 4 w d (fun _ => true) false true (fun _ e => fpFused fm s.rmode s.exposed p q (x e) (y e) (z e))
    let one := fun (i : Instr) (f : Nat → Nat) => VecWrites i s 4 w d on false false (fun _ e => (f (x e), 0))
    two (.fadd d a b m t) (fpBinary fm s.rmode s.exposed (addVal s.rmode)) ∧
    two (.fsub d a b m t) (fpBinary fm s.rmode s.exposed (subVal s.rmode)) ∧
    two (.fmul d a b m t) (fpBinary fm s.rmode s.exposed mulVal) ∧
    three (.fma d a b c t) false false ∧ three (.fms d a b c t) false true ∧ three (.fnma d a b c t) true false ∧
    two (.fmin d a b m num t) (fpMinMax fm s.exposed false num) ∧
    two (.fmax d a b m num t) (fpMinMax fm s.exposed true num) ∧
    one (.fabs d a t m) (fun v => v % 2 ^ (w - 1)) ∧ one (.fneg d a t m) (fun v => v ^^^ 2 ^ (w - 1)) ∧
    one (.fclass d a t m) (fpClass fm) ∧
    VecWrites (.fscl d a b m t) s 4 w d on false true (fun _ e => fpScale fm s.rmode s.exposed (x e)
      (Max.max (-(2 ^ 20)) (Min.min (sgn w (s.vsrc b .int w e)) (2 ^ 20))))

/-- R144, R147, R148, R214 to R216, on FP32 bits: an operation with a NaN gives the first NaN with its quiet bit set, and the
invalid flag when a NaN is signaling; infinity less infinity and zero times infinity give the canonical NaN and the invalid
flag; x - x is +0 to nearest; the minimum of the zeros is the negative one; the classes are one-hot by kind. -/
def Sys2Proof.Claims.FloatSpecialCases : Prop :=
  (∀ (mode : RMode) (ex : Bool) (a b : Nat), a < 2 ^ 32 → b < 2 ^ 32 → 0x7F800000 < a % 2 ^ 31 →
    (fpBinary fp32 mode ex (addVal mode) a b).1 = a ||| 0x400000 ∧ (fpBinary fp32 mode ex mulVal a b).1 = a ||| 0x400000 ∧
    (a.testBit 22 = false → (fpBinary fp32 mode ex mulVal a b).2.getLsbD 4 = true)) ∧
  (∀ (mode : RMode) (ex : Bool),
    fpBinary fp32 mode ex (subVal mode) 0x7F800000 0x7F800000 = (0x7FC00000, 16) ∧
    fpBinary fp32 mode ex mulVal 0 0xFF800000 = (0x7FC00000, 16)) ∧
  (∀ ex : Bool, fpBinary fp32 .rne ex (subVal .rne) 0x3F800000 0x3F800000 = (0, 0) ∧
    fpBinary fp32 .rne ex (addVal .rne) 0x3F800000 0x40000000 = (0x40400000, 0) ∧
    fpMinMax fp32 ex false false 0 0x80000000 = (0x80000000, 0) ∧ fpMinMax fp32 ex true false 0x80000000 0 = (0, 0) ∧
    fpMinMax fp32 ex false true 0x7FC00000 0x3F800000 = (0x3F800000, 0)) ∧
  (fpClass fp32 0xFF800000 = 1 ∧ fpClass fp32 0xBF800000 = 2 ∧ fpClass fp32 0x80000001 = 4 ∧ fpClass fp32 0x80000000 = 8 ∧
    fpClass fp32 0 = 16 ∧ fpClass fp32 1 = 32 ∧ fpClass fp32 0x3F800000 = 64 ∧ fpClass fp32 0x7F800000 = 128 ∧
    fpClass fp32 0x7F800001 = 256 ∧ fpClass fp32 0x7FC00000 = 512)

/-- R218, R219: the integer instructions complete with latency 2 on the elements that the mask enables, or on all for IMAD, at
every width, with the exact result wrapped or held to the signed range, and no flag. -/
def Obligations.VectorInteger : Prop :=
  ∀ (s : State) (d : BitVec 6) (a b : BitVec 7) (c : BitVec 5) (m : BitVec 3) (sat hi u t : Bool) (wc : BitVec 2),
    let w := 8 * 2 ^ wc.toNat
    let x := s.vsrc a .int w
    let y := s.vsrc b .int w
    let op := fun (i : Instr) (f : Nat → Nat → Nat) => VecWrites i s 2 w d (s.ven m w) false false (fun _ e => (f (x e) (y e), 0))
    let le := fun p q => if u then decide (p ≤ q) else decide (sgn w p ≤ sgn w q)
    op (.iadd d a b m sat wc) (fun p q => enc w (if sat then held w (sgn w p + sgn w q) else sgn w p + sgn w q)) ∧
    op (.isub d a b m sat wc) (fun p q => enc w (if sat then held w (sgn w p - sgn w q) else sgn w p - sgn w q)) ∧
    op (.imul d a b m hi wc) (fun p q => enc w (if hi then sgn w p * sgn w q / 2 ^ w else sgn w p * sgn w q)) ∧
    op (.iand d a b m wc) (fun p q => p &&& q) ∧ op (.ior d a b m wc) (fun p q => p ||| q) ∧
    op (.ixor d a b m wc) (fun p q => p ^^^ q) ∧
    op (.ishl d a b m wc) (fun p q => p * 2 ^ (q % w) % 2 ^ w) ∧ op (.ishr d a b m wc) (fun p q => p / 2 ^ (q % w)) ∧
    op (.isar d a b m wc) (fun p q => enc w (sgn w p / 2 ^ (q % w))) ∧
    op (.imin d a b m u wc) (fun p q => if le p q then p else q) ∧ op (.imax d a b m u wc) (fun p q => if le p q then q else p) ∧
    (let v := if t then 64 else 32
     VecWrites (.imad d a b c t) s 2 v d (fun _ => true) false false (fun _ e =>
       ((s.vsrc a .int v e * s.vsrc b .int v e + s.vsrc (c.setWidth 7) .int v e) % 2 ^ v, 0)))

/-- R154, R210, R216, R220, R223: FCMP and ICMP write to each mask bit that an enabled element covers whether the element
meets the condition (a pair of 8-bit elements only when both do), with FCMP's flags; FCMP's conditions are those of R216's
table, on the values in order and with NaN operands, and NV rises as it says; MSK writes all 512 bits from two masks, or from a
vector of 16-bit elements that are not zero. Each pushes an entry of zeros. -/
def Sys2Proof.Claims.VectorCompare : Prop :=
  (∀ (s : State) (cond k m f : BitVec 3) (a b : BitVec 7) (t : Bool) (wc : BitVec 2),
    (let w := if t then 64 else 32
     let r := fun e => fpCompare (if t then fp64 else fp32) s.exposed cond.toNat (s.vsrc a .flt w e) (s.vsrc b .flt w e)
     ∃ fl, MaskWrites (.fcmp cond k a b m t) s 4 k (fun j => s.ven m w (16 * j / w)) (fun j => (r (16 * j / w)).1) [.flags fl] ∧
       ∀ j, fl.getLsbD j = true ↔ ∃ e < 8192 / w, s.ven m w e = true ∧ (r e).2.getLsbD j = true) ∧
    (let w := 8 * 2 ^ wc.toNat
     let r := fun e =>
       let p := s.vsrc a .int w e
       let q := s.vsrc b .int w e
       if cond = 0 then decide (p = q) else if cond = 1 then decide (p ≠ q) else if cond = 2 then decide (sgn w p < sgn w q)
       else if cond = 3 then decide (sgn w p ≤ sgn w q) else if cond = 4 then decide (p < q) else if cond = 5 then decide (p ≤ q)
       else if cond = 6 then decide (p &&& q ≠ 0) else decide (p &&& q = 0)
     (wc ≠ 0 → MaskWrites (.icmp cond k a b m wc) s 2 k (fun j => s.ven m w (16 * j / w)) (fun j => r (16 * j / w)) []) ∧
     (wc = 0 → MaskWrites (.icmp cond k a b m wc) s 2 k (fun j => s.ven m w (2 * j)) (fun j => r (2 * j) && r (2 * j + 1)) [])) ∧
    (let x := s.curCtx.rm (a.setWidth 3)
     let y := s.curCtx.rm (b.setWidth 3)
     MaskWrites (.msk k a b f) s 2 k (fun _ => true) (fun j =>
       if f = 0 then x.getLsbD j && y.getLsbD j else if f = 1 then x.getLsbD j || y.getLsbD j
       else if f = 2 then x.getLsbD j ^^ y.getLsbD j else if f = 3 then x.getLsbD j && !y.getLsbD j
       else if f = 4 then !x.getLsbD j else decide (s.vsrc a .int 16 j ≠ 0)) [])) ∧
  (∀ fm ∈ [fp32, fp64], ∀ (ex : Bool) (cond a b : Nat), a < 2 ^ fm.width → b < 2 ^ fm.width → cond ≤ 5 →
    let x := fm.operand ex a
    let y := fm.operand ex b
    let nan := x.1.isNan = true ∨ y.1.isNan = true
    let r := fpCompare fm ex cond a b
    (nan → (r.1 = true ↔ cond = 1 ∨ cond = 4)) ∧
    (¬nan → (r.1 = true ↔ (cond = 0 ∧ extended x.1 = extended y.1) ∨ (cond = 1 ∧ extended x.1 ≠ extended y.1) ∨
      (cond = 2 ∧ extended x.1 < extended y.1) ∨ (cond = 3 ∧ extended x.1 ≤ extended y.1) ∨ cond = 5)) ∧
    (r.2.getLsbD 4 = true ↔ ((cond = 2 ∨ cond = 3) ∧ nan) ∨ x.1.isSnan = true ∨ y.1.isSnan = true) ∧
    (r.2.getLsbD 5 = true ↔ x.2 = fFZ ∨ y.2 = fFZ))

/-- R221, R222, R231, R232: V-slot SEL takes a where the mask bit is 1 and b elsewhere, MOV copies the enabled elements, BCAST
and VIMM fill every element with the low bits of s or of the sign-extended immediate, XCL copies whole clusters and PERM
permutes the elements within each cluster. -/
def Sys2Proof.Claims.VectorMoves : Prop :=
  ∀ (s : State) (d r : BitVec 6) (a b : BitVec 7) (m : BitVec 3) (f : BitVec 5) (wc : BitVec 2) (imm : BitVec 14) (x : BitVec 3)
    (y : BitVec 6),
    let w := 8 * 2 ^ wc.toNat
    let all := fun (_ : Nat) => true
    let el := fun (v n e : Nat) => v / 2 ^ (n * e) % 2 ^ n
    let img := (s.curCtx.rv r).toNat
    VecWrites (.vSel d a b m wc) s 2 w d all false false (fun _ e => (if s.ven m w e then s.vsrc a .int w e else s.vsrc b .int w e, 0)) ∧
    ((f.toNat ≤ 1 ∨ 8 ≤ f.toNat ∧ f.toNat ≤ 11) →
      VecWrites (.mov d a f m) s 2 (fmtWidth f.toNat) d (s.ven m (fmtWidth f.toNat)) false false
        (fun _ e => (s.vsrc a (if f.toNat ≤ 1 then .flt else .int) (fmtWidth f.toNat) e, 0))) ∧
    VecWrites (.bcast d r wc) s 2 w d all false false (fun _ _ => ((s.cur.rs r).toNat, 0)) ∧
    VecWrites (.vimm d wc imm) s 2 w d all false false (fun _ _ => ((imm.signExtend 64).toNat, 0)) ∧
    VecWrites (.xcl d r 0 x) s 8 64 d all false false (fun _ e => (el img 64 (16 * ((e / 16 + 8 - x.toNat) % 8) + e % 16), 0)) ∧
    VecWrites (.xcl d r 1 x) s 8 64 d all false false (fun _ e => (el img 64 (16 * (e / 16 ^^^ x.toNat) + e % 16), 0)) ∧
    VecWrites (.xcl d r 2 x) s 8 64 d all false false (fun _ e => (el img 64 (16 * x.toNat + e % 16), 0)) ∧
    (wc.toNat ≤ 2 →
      let v := 16 * 2 ^ wc.toNat
      let n := 1024 / v
      y.toNat < n →
      VecWrites (.perm d r 0 wc y) s 3 v d all false false (fun _ e => (el img v (n * (e / n) + (e % n + n - y.toNat) % n), 0)) ∧
      VecWrites (.perm d r 1 wc y) s 3 v d all false false (fun _ e => (el img v (n * (e / n) + (e % n ^^^ y.toNat)), 0)) ∧
      VecWrites (.perm d r 2 wc y) s 3 v d all false false (fun _ e => (el img v (n * (e / n) + y.toNat), 0)) ∧
      VecWrites (.perm d r 3 wc y) s 3 v d all false false (fun _ e => (el img v (n * (e / n) + (n - 1 - e % n)), 0)))

/-- R224 to R228: CVT, MXQ, XPND, PACK and UNPK complete with latency 3: CVT on every element and MXQ on the enabled ones with
flags, drawing under .rsr; XPND, PACK and UNPK without flags. The MXFP4 scale and codes of a cluster come from its enabled
elements. That PACK, UNPK and XPND read a constant code as raw bits of their container is the model's reading (assumption 52). -/
def Sys2Proof.Claims.VectorConvert : Prop :=
  ∀ (s : State) (d : BitVec 6) (a b : BitVec 7) (f : BitVec 5) (r m : BitVec 3) (x h : Bool) (dir g : BitVec 2),
    let all := fun (_ : Nat) => true
    (let w := if dir.toNat < 2 then 32 else 64
     let fm := if dir.toNat < 2 then fp32 else fp64
     let src := s.vsrc a (if dir.toNat % 2 = 1 then .flt else if fmtFloat f.toNat then .narrow (fmtOfCode f.toNat) else .int) w
     VecWrites (.cvt d a f r x dir) s 3 w d all (decide (s.rfield r = .rsr)) true (fun wd e =>
       if dir.toNat % 2 = 0 then cvtTo f.toNat fm (s.rfield r) s.exposed wd (src e)
       else cvtFrom f.toNat fm (s.rfield r) s.exposed x wd (src e))) ∧
    (let datum := fun e => fp32.operand s.exposed (s.vsrc a .flt 32 e)
     let scale := fun e => mxScale (((List.range 32).filter (fun j => s.ven m 32 (e / 32 * 32 + j))).map
       (fun j => (datum (e / 32 * 32 + j)).1))
     VecWrites (.mxqScale d a m) s 3 32 d (s.ven m 32) false true (fun _ e =>
       ((scale e).byte, (if scale e = .bad then fNV else 0) ||| (datum e).2)) ∧
     VecWrites (.mxqElem d a r m) s 3 32 d (s.ven m 32) (decide (s.rfield r = .rsr)) true (fun wd e =>
       ((mxElem (scale e) (s.rfield r) wd (datum e).1).1, (mxElem (scale e) (s.rfield r) wd (datum e).1).2 ||| (datum e).2))) ∧
    VecWrites (.xpnd d a f m h) s 3 8 d (s.ven m 8) false false (fun _ e => (xpndByte f.toNat h (s.vsrc a .int 64 (e / 8)) (e % 8), 0)) ∧
    (let ow := 32 / 2 ^ g.toNat
     let k := 32 / ow
     VecWrites (.pack d a b m g) s 3 ow d (if ow = 4 then all else s.ven m ow) false false (fun _ e =>
       (s.vsrc (if e % (2 * k) < k then a else b) .int (2 * ow) (e / (2 * k) * k + e % k) % 2 ^ ow, 0))) ∧
    ((unpkWidth f.toNat ≠ 0 →
      let nw := unpkWidth f.toNat
      let k := 64 / (2 * nw)
      VecWrites (.unpk d a f m h) s 3 (2 * nw) d (s.ven m (2 * nw)) false false (fun _ e =>
        let v := s.vsrc a .int nw (e / k * (2 * k) + (if h then k else 0) + e % k)
        (if fmtSigned f.toNat then enc (2 * nw) (sgn nw v) else v, 0))))

/-- R134, R142, R143, R146, R225, R227, R228: what CVT, MXQ and XPND give. A finite value is rounded into the target
(RoundsIntoFormats), or to an integer (RoundsToIntegers); an infinity becomes the target's, its largest value where it saturates
or the NaN of E4M3 that .ovnan asks for; a NaN keeps its sign and the top of its payload, quieted, with NV when it was
signaling; a narrow source widens exactly; an integer source is its integer. The scale of an MXFP4 block is that of its greatest
magnitude, held to 0 to 254, or the byte of its poison or zero rule; XPND gives the byte of the same value. -/
def Sys2Proof.Claims.ConvertedValues : Prop :=
  (∀ src ∈ [fp32, fp64], ∀ (c : Nat) (mode : RMode) (ex xbit : Bool) (w bits : Nat),
    let v := src.operand ex bits
    let r := cvtFrom c src mode ex xbit w bits
    (7 ≤ c → r = (enc (fmtWidth c) (convertI (fmtWidth c) (fmtSigned c) mode w v.1).1,
      (convertI (fmtWidth c) (fmtSigned c) mode w v.1).2 ||| v.2)) ∧
    (c ≤ 6 →
      let fm := fmtOfCode c
      let ov : OvMode := if !xbit then .dflt else if c = 4 then .nan else .sat
      (∀ n m e, v.1 = .fin n m e → r = ((roundFin fm mode ov (ex && decide (c ≤ 2)) w n m e).1,
        (roundFin fm mode ov (ex && decide (c ≤ 2)) w n m e).2 ||| v.2)) ∧
      (∀ n, v.1 = .inf n → c ≤ 5 →
        (c = 4 ∧ xbit = true → fm.decode r.1 = .nan n true 0 ∧ r.2 = 0) ∧
        (c ≠ 4 → xbit = false → fm.decode r.1 = .inf n ∧ r.2 = 0) ∧
        (c = 4 ∧ xbit = false ∨ c ≠ 4 ∧ xbit = true → ∃ k q, fm.decode r.1 = .fin n k q ∧ rat false k q = maxFinite fm ∧ r.2 = fSAT)) ∧
      (∀ n q p, v.1 = .nan n q p → c ≤ 5 → r.2 = (if q then 0 else fNV) ∧
        fm.decode r.1 = .nan n true (if c = 4 then 0 else if src.f ≤ fm.f then p * 2 ^ (fm.f - src.f) else p / 2 ^ (src.f - fm.f))))) ∧
  (∀ dst ∈ [fp32, fp64], ∀ (c : Nat) (mode : RMode) (ex : Bool) (w x : Nat), w < 65536 →
    let r := cvtTo c dst mode ex w x
    (2 ≤ c → c ≤ 6 →
      let fm := fmtOfCode c
      let v := fm.operand (ex && decide (c ≤ 2)) (x % 2 ^ fmtWidth c)
      (∀ n m e, v.1 = .fin n m e → (ex = false ∨ 3 ≤ c ∨ v.2 = 0) →
        ∃ m' e', dst.decode r.1 = .fin n m' e' ∧ rat n m' e' = rat n m e ∧ r.2 = 0) ∧
      (∀ n, v.1 = .inf n → dst.decode r.1 = .inf n ∧ r.2 = 0) ∧
      (∀ n q p, v.1 = .nan n q p → r.2 = (if q then 0 else fNV) ∧
        dst.decode r.1 = .nan n true (if c = 4 then 0 else p * 2 ^ (dst.f - fm.f)))) ∧
    (7 ≤ c →
      let y := x % 2 ^ fmtWidth c
      let i : Int := if fmtSigned c then sgn (fmtWidth c) y else y
      r = roundFin dst mode .dflt ex w (decide (i < 0)) i.natAbs 0)) ∧
  ((∀ xs : List FVal, (∃ x ∈ xs, x.isFin = false) → mxScale xs = .bad) ∧
    (∀ xs : List FVal, (∀ x ∈ xs, ∃ n e, x = .fin n 0 e) → mxScale xs = .zero) ∧
    (∀ (xs : List FVal) (n : Bool) (m : Nat) (e : Int), (∀ x ∈ xs, x.isFin = true) → .fin n m e ∈ xs → 0 < m →
      (∀ n' m' e', .fin n' m' e' ∈ xs → rat false m' e' ≤ rat false m e) →
      mxScale xs = .scale (Max.max 0 (Min.min (Int.log 2 (rat false m e) - 2 + 127) 254)).toNat) ∧
    MxScale.bad.byte = 0xFF ∧ MxScale.zero.byte = 0x7F ∧ (∀ v, (MxScale.scale v).byte = v) ∧
    (∀ (mode : RMode) (w : Nat) (x : FVal), mxElem .bad mode w x = (0, fNV)) ∧
    (∀ (mode : RMode) (w : Nat) (n : Bool) (e : Int), mxElem .zero mode w (.fin n 0 e) = (if n then 8 else 0, 0)) ∧
    (∀ (mode : RMode) (w v : Nat) (n : Bool) (m : Nat) (e : Int),
      mxElem (.scale v) mode w (.fin n m e) = roundFin e2m1 mode .dflt false w n m (e + 127 - v))) ∧
  (∀ (h : Bool) (lane o : Nat), o < 8 →
    (∃ n m e, e4m3.decode (xpndByte 16 h lane o) = .fin n m e ∧
      rat n m e = (sgn 4 (lane / 16 ^ (o + if h then 8 else 0) % 16) : Int)) ∧
    (let x := lane / 2 ^ (24 * (o / 4)) % 2 ^ 24 / 2 ^ (6 * (o % 4)) % 64
     (∃ n m e m' e', e3m2.decode x = .fin n m e ∧ e5m2.decode (xpndByte 17 h lane o) = .fin n m' e' ∧ rat n m' e' = rat n m e) ∧
     (∃ n m e m' e', e2m3.decode x = .fin n m e ∧ e4m3.decode (xpndByte 18 h lane o) = .fin n m' e' ∧ rat n m' e' = rat n m e)))

/-- R144, R229, R230: the special functions complete with latency 8 on the enabled elements; a NaN is propagated quieted, with
NV when it is signaling; the exact cases have exactly the values and flags of R229; elsewhere the result is marked inexact and,
unless it overflows or is flushed, lies within the bound of R230, in units in the last place, of the number that the model takes
for the exact value (assumption 5: within that bound it is a free value). For RCP and RSQ that number is the reciprocal or the
reciprocal square root to more than 256 bits; for the others some of its values are tied to each other. -/
def Sys2Proof.Claims.VectorSpecial : Prop :=
  (∀ (s : State) (d : BitVec 6) (a : BitVec 7) (t : Bool) (r m : BitVec 3),
    let w := if t then 64 else 32
    let fm := if t then fp64 else fp32
    let x := s.vsrc a .flt w
    let sp := fun (i : Instr) (k b32 b64 : Nat) (f : FVal → Special) =>
      VecWrites i s 8 w d (s.ven m w) false true (fun _ e => spElem k (if t then b64 else b32) fm s.exposed f (x e))
    sp (.rcp d a t r m) 36 1 1 spRcp ∧ sp (.rsq d a t r m) 37 1 1 spRsq ∧ sp (.exp2 d a t r m) 38 2 4 spExp2 ∧
    sp (.log2 d a t r m) 39 2 4 spLog2 ∧ sp (.sigm d a t r m) 40 2 4 spSigm ∧ sp (.tanh d a t r m) 41 2 4 spTanh) ∧
  (∀ fm ∈ [fp32, fp64], ∀ (ex n : Bool) (k bound bits : Nat) (f : FVal → Special) (y : Near), 0 < bound → 0 < y.1 →
    (fm.operand ex bits).1.isNan = false → (fm.operand ex bits).2 = 0 → f (fm.operand ex bits).1 = .near n y →
    let r := spElem k bound fm ex f bits
    r.2.getLsbD 0 = true ∧
    (r.2.getLsbD 2 = false → r.2.getLsbD 5 = false → ∃ m e, fm.decode r.1 = .fin n m e ∧
      |rat false m e - rat false y.1 y.2| ≤ bound * 2 ^ (quantumAt fm (rat false y.1 y.2)))) ∧
  (∀ (ex : Bool) (k bound a : Nat) (f : FVal → Special), a < 2 ^ 32 → 0x7F800000 < a % 2 ^ 31 →
    spElem k bound fp32 ex f a = (a ||| 0x400000, if a.testBit 22 then 0 else fNV)) ∧
  (∀ (n : Bool) (m : Nat) (e : Int), 0 < m → m < 2 ^ 53 →
    (∀ k y, spRcp (.fin n m e) = .near k y → k = n ∧ |rat false y.1 y.2 * rat false m e - 1| ≤ 1 / 2 ^ 256) ∧
    (∀ k y, spRsq (.fin n m e) = .near k y → n = false ∧ k = false ∧ |rat false y.1 y.2 ^ 2 * rat false m e - 1| ≤ 1 / 2 ^ 256) ∧
    (∀ v fl, spRcp (.fin n m e) = .exact v fl → ∃ m' e', v = .fin n m' e' ∧ rat false m' e' * rat false m e = 1 ∧ fl = 0) ∧
    (n = false → ∀ v fl, spRsq (.fin n m e) = .exact v fl →
      ∃ m' e', v = .fin false m' e' ∧ rat false m' e' ^ 2 * rat false m e = 1 ∧ fl = 0)) ∧
  (∃ root sig1 sig2 sigN th lg y1 y2 y3 y4 y5 y6,
    spExp2 (.fin false 1 (-1)) = .near false y1 ∧ root = rat false y1.1 y1.2 ∧ |root ^ 2 - 2| ≤ 1 / 2 ^ 200 ∧
    spSigm (.fin false 1 0) = .near false y2 ∧ sig1 = rat false y2.1 y2.2 ∧
    spSigm (.fin true 1 0) = .near false y3 ∧ sigN = rat false y3.1 y3.2 ∧ |sig1 + sigN - 1| ≤ 1 / 2 ^ 200 ∧
    spSigm (.fin false 1 1) = .near false y4 ∧ sig2 = rat false y4.1 y4.2 ∧
    spTanh (.fin false 1 0) = .near false y5 ∧ th = rat false y5.1 y5.2 ∧ |2 * sig2 - 1 - th| ≤ 1 / 2 ^ 200 ∧
    spLog2 (.fin false 3 0) = .near false y6 ∧ lg = rat false y6.1 y6.2 ∧ 1584962500721156181 / 10 ^ 18 < lg ∧
      lg < 1584962500721156182 / 10 ^ 18) ∧
  (∀ ex : Bool, spElem 36 1 fp32 ex spRcp 0 = (0x7F800000, 8) ∧ spElem 36 1 fp32 ex spRcp 0xC0000000 = (0xBF000000, 0) ∧
    spElem 37 1 fp32 ex spRsq 0xBF800000 = (0x7FC00000, 16) ∧ spElem 37 1 fp32 ex spRsq 0x40800000 = (0x3F000000, 0) ∧
    spElem 38 2 fp32 ex spExp2 0x40400000 = (0x41000000, 0) ∧ spElem 38 2 fp32 ex spExp2 0xFF800000 = (0, 0) ∧
    spElem 39 2 fp32 ex spLog2 0x41000000 = (0x40400000, 0) ∧ spElem 39 2 fp32 ex spLog2 0x80000000 = (0xFF800000, 8) ∧
    spElem 40 2 fp32 ex spSigm 0 = (0x3F000000, 0) ∧ spElem 41 2 fp32 ex spTanh 0x80000000 = (0x80000000, 0) ∧
    spElem 41 2 fp32 ex spTanh 0x7F800000 = (0x3F800000, 0))

/-- R233: RED writes to every element of a cluster the tree reduction of its enabled elements, or the identity when none is
enabled; the integer sum is the sum modulo the width, and the integer maximum and minimum the greatest and least. -/
def Sys2Proof.Claims.VectorReduce : Prop :=
  (∀ (s : State) (d : BitVec 6) (a : BitVec 7) (f : BitVec 5) (r m : BitVec 3) (g : BitVec 2), f.toNat ≤ 1 ∨ f.toNat = 10 ∨ f.toNat = 11 →
    let w := fmtWidth f.toNat
    let n := 1024 / w
    let x := s.vsrc a (if f.toNat ≤ 1 then .flt else .int) w
    let op := redOp f.toNat (s.rfield r) s.exposed g.toNat
    let tree := fun c => redTree op.1 (Nat.log2 n) ((List.range n).map (fun j => if s.ven m w (n * c + j) then some (x (n * c + j)) else none))
    ∃ fl, VecWrites (.red d a f r m g) s 5 w d (fun _ => true) false (decide (f.toNat ≤ 1)) (fun _ e => ((tree (e / n)).1.getD op.2, fl)) ∧
      ∀ b, fl.getLsbD b = true ↔ ∃ c < 8, (tree c).2.getLsbD b = true) ∧
  (∀ (mode : RMode) (ex : Bool) (k : Nat) (l : List (Option Nat)), l.length = 2 ^ k → l ≠ l.map (fun _ => none) → (∀ v ∈ l, ∀ n, v = some n → n < 2 ^ 32) →
    (redTree (redOp 10 mode ex 0).1 k l).1 = some ((l.map (fun v => v.getD 0)).foldl (· + ·) 0 % 2 ^ 32) ∧
    (∃ n, (redTree (redOp 10 mode ex 1).1 k l).1 = some n ∧ some n ∈ l ∧ ∀ v, some v ∈ l → sgn 32 v ≤ sgn 32 n) ∧
    (∃ n, (redTree (redOp 10 mode ex 2).1 k l).1 = some n ∧ some n ∈ l ∧ ∀ v, some v ∈ l → sgn 32 n ≤ sgn 32 v))

/-- R234 to R237: ACCRD reads a block of an accumulator image byte by byte with latency 6 once no earlier tile operation names
it, and in a block with a damaged element it reads zeros for that element and reports cause 0x11 as the result lands; ACCWR
writes one; VEXT extracts an element; RNGV fills the enabled elements with draws, lowest first, one for each 16 bits, and its
generators advance by as many; CHKV with equal
enabled elements, or with DUP clear, only pushes, and with DUP set traps with cause 0x0A and the XOR of the first pair. -/
def Sys2Proof.Claims.VectorBlocksAndChecks : Prop :=
  ∀ (s : State) (d r : BitVec 6) (off : BitVec 11) (n m : BitVec 3) (wc : BitVec 2) (idx : BitVec 10) (a b : BitVec 7),
    let zeros := match pushOf s with | some k => [Dest.ringZero k] | none => []
    let block := ((s.cur.rs r).toNat + off.toNat) % (if n = 4 then 480 else 96)
    let w := 8 * 2 ^ wc.toNat
    let differ := fun e => s.ven m w e && decide (s.vsrc a .int w e ≠ s.vsrc b .int w e)
    (n.toNat ≤ 4 → s.accBusy n = false → s.curCtx.badInBlock n block = [] →
      VecWrites (.accrd d r off n) s 6 8 d (fun _ => true) false false (fun _ e =>
        ((if n = 4 then accwByte s.curCtx.accw (1024 * block + e)
          else (tget 0 s.curCtx.acc (24576 * n.toNat + (1024 * block + e) / 4)).extractLsb' (8 * (e % 4)) 8).toNat, 0))) ∧
    (n.toNat ≤ 4 → s.accBusy n = false → s.curCtx.badInBlock n block ≠ [] →
      ∃ t mask img, Issues (.accrd d r off n) s t 6 [.vec d mask img (pushOf s), .report 0x11 s.freeVal] ∧ t.cur.gens = s.cur.gens ∧
        ∀ e j, e < 1024 → j < 8 → mask.getLsbD (8 * e + j) = true ∧
          img.getLsbD (8 * e + j) =
            (if (s.curCtx.badInBlock n block).contains ((1024 * block + e) / (if n = 4 then 20 else 4)) then 0
             else if n = 4 then accwByte s.curCtx.accw (1024 * block + e)
             else (tget 0 s.curCtx.acc (24576 * n.toNat + (1024 * block + e) / 4)).extractLsb' (8 * (e % 4)) 8).getLsbD j) ∧
    (s.accBusy n = false → ∃ t, Issues (.accwr d r off n) s t 6 (zeros ++ [.accBlock n block (s.curCtx.rv d)]) ∧ t.cur.gens = s.cur.gens) ∧
    (∃ t, Issues (.vext d r wc idx) s t 4 (zeros ++ [.scalar d (BitVec.ofNat 64 ((s.curCtx.rv r).toNat / 2 ^ (w * idx.toNat) % 2 ^ w))]) ∧
      t.cur.gens = s.cur.gens) ∧
    (∀ f : BitVec 5, (f = 13 ∨ f = 14 ∨ f = 15) →
      let v := fmtWidth f.toNat
      ∃ t mask img, Issues (.rngv d f m) s t 2 [.vec d mask img (pushOf s)] ∧
        (∀ e j, e < 8192 / v → j < v → mask.getLsbD (v * e + j) = s.ven m v e ∧
          (s.ven m v e = true → img.getLsbD (v * e + j) =
            (drawn (genOf s.cur v e) (v / 16 * before v (s.ven m v) e + j / 16)).testBit (j % 16))) ∧
        (∀ g : Fin 128, t.cur.gens[g] = nextGen^[v / 16 *
          ((List.range (8192 / v)).filter (fun e => s.ven m v e && decide (v * e / 64 = g.val))).length] s.cur.gens[g])) ∧
    ((∀ e < 8192 / w, differ e = false) ∨ s.cur.dup = false → ∃ t, Issues (.chkv a b m wc) s t 2 zeros ∧ t.cur.gens = s.cur.gens) ∧
    (∀ e < 8192 / w, differ e = true → (∀ k < e, differ k = false) → s.cur.dup = true → Handles s.cur →
      ∃ t, exec (.chkv a b m wc) s = .next t ∧
        TrapTaken s t 0x0A (BitVec.ofNat 64 (s.vsrc a .int w e ^^^ s.vsrc b .int w e)))

/-- R136, R283, R295, R299: MODMUL multiplies and adds modulo its channel, or writes 0x0200 for a container that is not
canonical; RESF forms the residues of an integer; RESX reconstructs and classifies and counts; SLC cuts the digit of a
fixed-point value. All complete at their latencies. -/
def Sys2Proof.Claims.VectorResidues : Prop :=
  ∀ (s : State) (d r v : BitVec 6) (a b : BitVec 7) (c f : BitVec 5) (m : BitVec 3) (h deg : Bool) (n : BitVec 2),
    let ch := fun e => e % 4 + if h then 4 else 0
    VecWrites (.modmul d a b c h) s 4 16 d (fun _ => true) false false (fun _ e =>
      let x := s.vsrc a .int 16 e
      let y := s.vsrc b .int 16 e
      let z := s.vsrc (c.setWidth 7) .int 16 e
      (if x < modulus (ch e) ∧ y < modulus (ch e) ∧ z < modulus (ch e) then (x * y + z) % modulus (ch e) else 0x0200, 0)) ∧
    (8 ≤ f.toNat → f.toNat ≤ 15 → VecWrites (.resf d a f m h) s 4 16 d (s.ven m 16) false false (fun _ e =>
      let v := s.vsrc a .int 64 (e / 4) % 2 ^ fmtWidth f.toNat
      (((if f.toNat < 12 then sgn (fmtWidth f.toNat) v else v) % (modulus (ch e) : Int)).toNat, 0))) ∧
    (let verdict := fun e => classify (fun k => if k < 4 then s.vsrc a .int 16 (4 * e + k) else s.vsrc (a + 1) .int 16 (4 * e + (k - 4)))
       (2 ^ 52) deg
     ∃ t mask img o l u, Issues (.resx d a m deg) s t 10 [.vec d mask img (pushOf s), .residueCounts o l u] ∧
       (∀ e j, e < 128 → j < 64 → mask.getLsbD (64 * e + j) = s.ven m 64 e ∧
         (s.ven m 64 e = true → img.getLsbD (64 * e + j) = (verdict e).word.testBit j)) ∧
       o = ((List.range 128).filter (fun e => s.ven m 64 e && (match verdict e with | .valid _ b => b | .located _ _ b => b | _ => false))).length ∧
       l = ((List.range 128).filter (fun e => s.ven m 64 e && (match verdict e with | .located .. => true | _ => false))).length ∧
       u = ((List.range 128).filter (fun e => s.ven m 64 e && decide (verdict e = .uncorrectable))).length) ∧
    VecWrites (.slc d r n v) s 4 64 d (fun _ => true) false true (fun _ e =>
      let e' := Max.max (-32768) (Min.min (s.cur.rs r).toInt 32767)
      let z := slcFixed e' (fp64.decode ((s.curCtx.rv v).toNat / 2 ^ (64 * e) % 2 ^ 64))
      (enc 64 (slcDigit n.toNat z.1), z.2)) ∧
    (∀ x : Int, slcDigit 0 x + 2 ^ 14 * slcDigit 1 x + 2 ^ 28 * slcDigit 2 x + 2 ^ 42 * slcDigit 3 x = x)

/-- The frame of the vector slots: a V-slot instruction that issues leaves every scalar, predicate, vector, mask, stream and
accumulator register, every control register and every byte of memory as it was, until its results land; only its stream's
generators and its count of pushes may change. -/
def Sys2Proof.Claims.VectorFrame : Prop :=
  ∀ (i : Instr) (s t : State), i.slot = some .V → exec i s = .next t → t.issue.status = .ok →
    SameScalars s.cur t.cur ∧ SameCtx s.curCtx t.curCtx ∧ SameMemory s t ∧ t.hub = s.hub ∧ t.homes = s.homes ∧
    (∀ c, c ≠ s.issue.core → t.core c = s.core c) ∧ t.curCtx.stream (!s.issue.sec) = s.curCtx.stream (!s.issue.sec)

/-! ### The cube -/

/-- R264: a stream register serves a tile operation of a format, a group, K values of k and n rows or columns. -/
def Sys2Proof.Claims.StreamPasses (d : BitVec 512) (fmt : Nat) (north : Bool) (k n : Nat) : Prop :=
  sdFmt d = fmt ∧ (sdDims d = 2 ∨ sdDims d = 3) ∧ k ≤ sdExt0 d ∧ n ≤ sdExt1 d ∧ (sdDims d = 3 → sdCur1 d < sdExt2 d) ∧
  sdNorth d = north ∧
  (fmtWidth fmt = 16 → sdBase d % 2 = 0 ∧ sdStr0 d % 2 = 0 ∧ sdStr1 d % 2 = 0 ∧ sdStr2 d % 2 = 0) ∧ (fmt = 6 → sdStr0 d = 1)

/-- The operand checks of a tile operation of one core in their order, each with its code (R260 to R264, R268, R269, R291,
R296). -/
def Sys2Proof.Claims.tileChecks (s : State) (r : TileReq) : List (Nat × Prop) :=
  let m := (s.cur.rs r.sg).toNat
  let n := (s.cur.rs (r.sg + 1)).toNat
  let k := (s.cur.rs (r.sg + 2)).toNat
  let layers := s.cur.rs (r.sg + 3)
  let fm := tileFmts r.kind r.fmt.toNat
  let x := s.curCtx
  let isXdot : Prop := ∃ sh, r.kind = .xdot sh
  let g0 := gmask x.rns 0
  let g1 := gmask x.rns 1
  [(1, 1 ≤ m ∧ m ≤ if r.kind = .mmz then 8 else 128),
   (2, 1 ≤ n ∧ n ≤ 192),
   (3, (¬isXdot → k ≤ 2 ^ 24) ∧ (isXdot → k ≤ 2 ^ 20)),
   (4, layers ≠ 0 ∧ layers.toNat < 2 ^ 16 ∧ (∀ l < 16, layers.getLsbD l = true → s.curCore.layers.getLsbD l = true) ∧
     (r.kind.plane = true → layers = g0 ∨ layers = g1 ∨ layers = g0 ||| g1)),
   (5, r.kind ≠ .mmz → StreamPasses (x.rstr r.a) fm.1 false k m),
   (6, r.hold = false → StreamPasses (x.rstr r.b) fm.2 true k n),
   (7, r.hold = true → ∃ b, x.slab = some b ∧ b.fmt = r.fmt ∧ b.n = n ∧ b.mask.setWidth 64 = layers ∧ b.g = r.g ∧
     (r.g = true → b.cfg = 0)),
   (3, r.kind = .mmz → k ≤ m * tileQ r.kind r.fmt.toNat (layers.setWidth 16)),
   (3, r.hold = true → ∀ b, x.slab = some b → k ≤ b.k),
   (10, r.kind.plane = true → x.plane.held = true →
     r.kind = .mmi ∧ (r.z = true ∨ x.plane.rows = m ∧ x.plane.cols = n ∧ x.plane.mask.setWidth 64 = layers))]

/-- A tile operation of one core passes every condition of issue: no gang, its operand checks, the running bound of a plane
set, the bank rules, the freezes, and the L slot of its bundle (R119, R120, R260 to R266, R281, R288). -/
structure Sys2Proof.Claims.TileMayIssue (s : State) (r : TileReq) : Prop where
  solo : r.g = false ∨ s.curCtx.gang = 0
  drained : r.kind.plane = true → s.planeDraining = false
  checks : ∀ q ∈ tileChecks s r, q.2
  bound : r.kind.plane = true → overBound (s.tileOf r).deg (s.newBound r (s.tileOf r)) = false
  banks : (s.tileOf r).conflict s.issue.core = none
  free : s.cubeFreeze r.acc true = none
  late : s.lateClash (s.tileOf r) = none

/-- A stream register with CUR1 one higher, modulo 2^32, and every other bit as it was (R265, R275). -/
def Sys2Proof.Claims.BumpsCur1 (d e : BitVec 512) : Prop :=
  sdCur1 e = (sdCur1 d + 1) % 2 ^ 32 ∧ ∀ i < 512, (i < 416 ∨ 448 ≤ i) → e.getLsbD i = d.getLsbD i

/-- Of the stream registers those of a list have advanced, but for one whose word 6 an STSET has written in this cycle, and no
other has changed (R156, R265). -/
def Sys2Proof.Claims.Advances (x y : Ctx) (ns : List (BitVec 4)) : Prop :=
  ∀ n : BitVec 4, if n ∈ ns ∧ x.strFresh.getLsbD n.toNat = false then BumpsCur1 (x.rstr n) (y.rstr n) else y.rstr n = x.rstr n

/-- The instruction completes at issue as the tile operation of the request: it enters the feed's order with its shape,
steps and streams, tl rises, with .adv the registers that it reads advance, and no other register, no accumulator and no byte of
memory changes (R246, R248, R265). -/
def Sys2Proof.Claims.TileIssues (s : State) (i : Instr) (r : TileReq) : Prop :=
  TileMayIssue s r → ∃ t o, exec i s = .next t ∧ t.curCtx.tiles = s.curCtx.tiles ++ [o] ∧ o.kind = r.kind ∧ o.acc = r.acc ∧
    o.astr = s.curCtx.rstr r.a ∧ o.bstr = s.curCtx.rstr r.b ∧ o.fmt = r.fmt ∧ o.z = r.z ∧ o.hold = r.hold ∧
    o.rows = (if r.kind = .mmz then 1 else (s.cur.rs r.sg).toNat) ∧ o.cols = (s.cur.rs (r.sg + 1)).toNat ∧
    o.k = (s.cur.rs (r.sg + 2)).toNat ∧ o.mask = (s.cur.rs (r.sg + 3)).setWidth 16 ∧
    o.steps = (if r.kind = .mmz then (s.cur.rs r.sg).toNat
      else (o.k + tileQ r.kind r.fmt.toNat o.mask - 1) / tileQ r.kind r.fmt.toNat o.mask) ∧
    o.done = 0 ∧ o.stage = .feed ∧ o.ready = s.now + 2 ∧ t.cur.tl = s.cur.tl + 1 ∧ t.issue.status = s.issue.status ∧
    (r.kind.plane = true → t.curCtx.plane.held = true) ∧
    Advances s.curCtx t.curCtx (if r.adv then (if r.kind = .mmz then [] else [r.a]) ++ (if r.hold then [] else [r.b]) else []) ∧
    t.curCtx.acc = s.curCtx.acc ∧ t.curCtx.accw = s.curCtx.accw ∧ (∀ q, t.curCtx.rv q = s.curCtx.rv q) ∧
    SameRegs s.cur t.cur ∧ SameMemory s t

/-- R246 to R249, R262 to R265, R268, R269, R281, R291, R296: MMA, MMA in hold mode, MMZ, MMI and XDOT each put one tile
operation into the feed. -/
def Sys2Proof.Claims.TileOperationsIssue : Prop :=
  ∀ (s : State) (acc : BitVec 2) (a b : BitVec 4) (sg : BitVec 6) (f : BitVec 5) (g adv z : Bool),
    let r := fun (k : TileKind) (n : BitVec 3) (x y : BitVec 4) (h : Bool) (z : Bool) (i : Instr) =>
      ({ kind := k, acc := n, a := x, b := y, sg := sg, fmt := f, g := g, adv := adv, z := z, hold := h, instr := i } : TileReq)
    let i1 := Instr.mma acc a b sg f g adv z
    let i2 := Instr.mmaHold acc a sg f g adv z
    let i3 := Instr.mmz b sg f g adv
    let i4 := Instr.mmi a b sg f g adv z
    let i5 := Instr.xdot a b sg f g adv z
    TileIssues s i1 (r .mma (acc.setWidth 3) a b false z i1) ∧ TileIssues s i2 (r .mma (acc.setWidth 3) a 0 true z i2) ∧
    TileIssues s i3 (r .mmz 5 0 b false false i3) ∧ TileIssues s i4 (r .mmi 5 a b false z i4) ∧
    TileIssues s i5 (r (.xdot (14 * (f.toNat % 4 + f.toNat / 4))) 4 a b false z i5)

/-- The instruction of a request raises, where its operand checks fail, cause 0x01 with the word, slot 5 and the code of the first
that fails in ctl.tval, and nothing else of the operation happens. Where they pass, a running bound at its limit raises cause
0x09; a step that breaks a bank rule cause 0x03 with the record of the first offence; a freeze of the cube holds the bundle; and
a place that the L slot of the bundle needs holds it, or raises cause 0x03 in exposed mode. -/
def Sys2Proof.Claims.TileRefused (s : State) (i : Instr) (r : TileReq) : Prop :=
  (r.g = false ∨ s.curCtx.gang = 0) → (r.kind.plane = true → s.planeDraining = false) →
  (∀ (w : SlotWord) (code : Nat) (p : Prop) (pre post : List (Nat × Prop)), encode i = some w → Handles s.cur →
    tileChecks s r = pre ++ (code, p) :: post → (∀ q ∈ pre, q.2) → ¬p →
    ∃ t, exec i s = .next t ∧ TrapTaken s t 0x01 (w ++ BitVec.ofNat 32 (5 + 256 * code)) ∧ t.curCtx.tiles = s.curCtx.tiles ∧
      t.cur.tl = s.cur.tl) ∧
  ((∀ q ∈ tileChecks s r, q.2) →
    let o := s.tileOf r
    let tooBig := r.kind.plane = true ∧ overBound o.deg (s.newBound r o) = true
    let held := fun (h : Hold) => ∃ t, exec i s = .next t ∧ t.issue.status = .held h ∧ t.curCtx.tiles = s.curCtx.tiles ∧
      t.cur.tl = s.cur.tl ∧ SameMemory s t
    (tooBig → Handles s.cur → ∃ t, exec i s = .next t ∧ TrapTaken s t 0x09 (BitVec.ofNat 64 (Nat.min (s.newBound r o) (2 ^ 63 - 1)))) ∧
    (¬tooBig → (∀ rec, o.conflict s.issue.core = some rec → Handles s.cur → ∃ t, exec i s = .next t ∧ TrapTaken s t 0x03 rec) ∧
      (o.conflict s.issue.core = none →
        (∀ own, s.cubeFreeze r.acc true = some own → held (if own then .accwr else .cube)) ∧
        (s.cubeFreeze r.acc true = none → ∀ p, s.lateClash o = some p →
          (s.cur.inter = true → held .bank) ∧
          (s.cur.inter = false → Handles s.cur → ∃ t, exec i s = .next t ∧ TrapTaken s t 0x03 (bankRecord p 4))))))

/-- R119, R120, R260 to R264, R266, R268, R269, R281, R291, R296: how MMA, MMA in hold mode, MMZ, MMI and XDOT of one core are
checked, and what stops them. -/
def Sys2Proof.Claims.TileOperandChecks : Prop :=
  ∀ (s : State) (acc : BitVec 2) (a b : BitVec 4) (sg : BitVec 6) (f : BitVec 5) (g adv z : Bool),
    let r := fun (k : TileKind) (n : BitVec 3) (x y : BitVec 4) (h : Bool) (z : Bool) (i : Instr) =>
      ({ kind := k, acc := n, a := x, b := y, sg := sg, fmt := f, g := g, adv := adv, z := z, hold := h, instr := i } : TileReq)
    let i1 := Instr.mma acc a b sg f g adv z
    let i2 := Instr.mmaHold acc a sg f g adv z
    let i3 := Instr.mmz b sg f g adv
    let i4 := Instr.mmi a b sg f g adv z
    let i5 := Instr.xdot a b sg f g adv z
    TileRefused s i1 (r .mma (acc.setWidth 3) a b false z i1) ∧ TileRefused s i2 (r .mma (acc.setWidth 3) a 0 true z i2) ∧
    TileRefused s i3 (r .mmz 5 0 b false false i3) ∧ TileRefused s i4 (r .mmi 5 a b false z i4) ∧
    TileRefused s i5 (r (.xdot (14 * (f.toNat % 4 + f.toNat / 4))) 4 a b false z i5)

/-- R243 to R245, R265: the chain of an element in one step. It starts at −0 and takes the products in order of k, one cell after
another, rounded after each; then the accumulator takes the chain. A sum of finite products is exact, and an addition of finite
values is rounded once to nearest even with its subnormal results flushed; a NaN stays. The worked example of the rule: with four
active layers the four products meet in one chain, and give +0; with two they meet in two, and give 2^−24. -/
def Sys2Proof.Claims.ChainOrder : Prop :=
  (∀ (w acc : Nat) (cells : List (List (Option FVal))) (last : List (Option FVal)), (∀ p ∈ cells, p.length = w) →
    0 < last.length → last.length ≤ w →
    (cubeElement w acc (cells.flatten ++ last)).1 = (cubeAdd acc (some (fp32.decode
      ((cells ++ [last]).foldl (fun c p => (cubeAdd c (exactSum p)).1) 0x80000000)))).1) ∧
  (∀ (l : List (Bool × Nat × Int)), l ≠ [] → ∃ n m e, exactSum (l.map (fun t => some (.fin t.1 t.2.1 t.2.2))) = some (.fin n m e) ∧
    rat n m e = (l.map (fun t => rat t.1 t.2.1 t.2.2)).sum) ∧
  (∀ (acc : Nat) (n n' : Bool) (m m' : Nat) (e e' : Int), fp32.decode acc = .fin n m e → rat n m e + rat n' m' e' ≠ 0 →
    ∃ k j q, rat k j q = rat n m e + rat n' m' e' ∧ (cubeAdd acc (some (.fin n' m' e'))).1 = (roundFin fp32 .rne .dflt true 0 k j q).1) ∧
  (∀ acc, (cubeAdd acc none).1 = 0x7FC00000) ∧ (∀ x, (cubeAdd 0x7FC00000 x).1 = 0x7FC00000) ∧
  (let p := fun (x : Nat) => some (fp32.decode x)
   (cubeElement 1 0x80000000 [p 0x3F800000, p 0x33800000, p 0x33800000, p 0xBF800000]).1 = 0 ∧
   (cubeElement 1 (cubeElement 1 0x80000000 [p 0x3F800000, p 0x33800000]).1 [p 0x33800000, p 0xBF800000]).1 = 0x33800000)

/-- R243, R247, R265, R267, R396: a step of MMA adds to each accumulator element of the tile the products of its values of k,
and to no other; a step charges its cost; a step that the feed must withhold takes nothing and pauses the core. -/
def Sys2Proof.Claims.CubeSteps : Prop :=
  ∀ (s : State) (c : CoreId) (o : TileOp), s.feedHead c = some o → o.cfg = 0 → o.ready ≤ s.now → s.layerLost c o = false →
    o.done < o.steps →
    (s.stepBlocked c o = true → ∃ t, exec (.feedStep c) s = .next t ∧ (t.core c).pause = some o.sec ∧
      (t.ctx c).tiles = (s.ctx c).tiles ∧ (t.ctx c).acc = (s.ctx c).acc ∧ (t.ctx c).plane = (s.ctx c).plane ∧ SameMemory s t) ∧
    (s.stepBlocked c o = false → o.kind = .mma → o.hold = false → o.cols ≤ 192 → twf 0 (s.ctx c).acc = true →
      let s0 := if o.done = 0 then s.updCtx c (fun x => x.beforeSteps o) else s
      let s1 := s0.noteReads ((o.stepBytes c o.done).map (fun b => sliceIa c b.1))
      let fm := tileFmts .mma o.fmt.toNat
      let av := (o.aOperands s1 o.done).map (fun l => l.map (fun e => e.value fm.1))
      let bv := (o.bOperands s1 (s1.ctx c) o.done).map (fun l => l.map (fun e => e.value fm.2))
      ∃ t p, exec (.feedStep c) s = .next t ∧ SameMemory s t ∧ (t.core c).fed = true ∧
        (t.core c).balance = (s.core c).balance - 16 * o.cost ∧
        p ∈ (t.ctx c).tiles ∧ p.id = o.id ∧ p.done = o.done + 1 ∧
        (∀ i j, i < o.rows → j < o.cols → tget 0 (t.ctx c).acc (accKey o.acc.toNat i j) =
          BitVec.ofNat 32 (cubeElement (tileW o.fmt.toNat) (tget 0 (s0.ctx c).acc (accKey o.acc.toNat i j)).toNat
            (List.zipWith prodOf (av.getD i []) (bv.getD j []))).1) ∧
        (∀ key, (∀ i j, i < o.rows → j < o.cols → key ≠ accKey o.acc.toNat i j) →
          tget 0 (t.ctx c).acc key = tget 0 (s0.ctx c).acc key))

/-- R256, R257, R278, R280: a step of MMI adds to each plane sum of each layer of its mask the products of the values of k
that the layer's group takes, modulo the layer's modulus. -/
def Sys2Proof.Claims.PlaneSteps : Prop :=
  ∀ (s : State) (c : CoreId) (o : TileOp), s.feedHead c = some o → o.kind = .mmi → o.cfg = 0 → o.inj = none → o.ready ≤ s.now →
    s.layerLost c o = false → o.done < o.steps → s.stepBlocked c o = false → o.rows ≤ 128 → o.cols ≤ 192 →
    twf 0 (s.ctx c).plane.sums = true →
    let s0 := if o.done = 0 then s.updCtx c (fun x => x.beforeSteps o) else s
    let s1 := s0.noteReads ((o.stepBytes c o.done).map (fun b => sliceIa c b.1))
    let fm := tileFmts .mmi o.fmt.toNat
    let av := s1.intOperands 0 fm.1 (o.aOperands s1 o.done)
    let bv := s1.intOperands (2 ^ 20) fm.2 (o.bOperands s1 (s1.ctx c) o.done)
    ∃ t, exec (.feedStep c) s = .next t ∧ SameMemory s t ∧ (t.ctx c).acc = (s.ctx c).acc ∧ (t.ctx c).accw = (s.ctx c).accw ∧
      (∀ layer i j ch, layer < 16 → i < o.rows → j < o.cols → o.mask.getLsbD layer = true →
        channelOf (s.ctx c).rns o.deg layer = some ch →
        let key := cellKey o.ox o.oy layer i j
        let p := groupSpan o.mask layer (av.getD i []).length
        (tget 0 (t.ctx c).plane.sums key).toNat =
          if p.1 < p.2 then (((tget 0 (s0.ctx c).plane.sums key).toNat + dot (span (av.getD i []) p) (span (bv.getD j []) p)) %
            (modulus ch : Int)).toNat
          else (tget 0 (s0.ctx c).plane.sums key).toNat)

/-- R249, R265, R276, R296, R369: a settled tile operation completes: tl falls, it is counted, and its events are recorded;
the plane part of XDOT is followed by the classification of N + 48 cycles, before its M rows are written; a divergence that a
check of MMA finds waits for its completion with a record that names the die of its layer, and a vector check reports four
stream cycles after its result lands. -/
def Sys2Proof.Claims.TileOperationsComplete : Prop :=
  ∀ (s : State) (c : CoreId) (o : TileOp), (s.core c).tileBank o.id = some (false, o) →
    (o.stage ≠ .feed → (o.kind = .mma ∨ o.kind = .mmz ∨ o.kind = .mmi) →
      ∃ t, exec (.tileOperationComplete c o.id) s = .next t ∧ (t.ctx c).tiles = (s.ctx c).tiles.filter (fun u => u.id ≠ o.id) ∧
        (t.stream c o.sec).tl = fell (s.stream c o.sec) o.id (s.stream c o.sec).tl ∧ (t.ctx c).tlDone = (s.ctx c).tlDone + 1 ∧
        (t.ctx c).cubeEvents = (s.ctx c).cubeEvents ||| o.events ∧ (t.ctx c).acc = (s.ctx c).acc ∧ SameMemory s t) ∧
    (o.stage = .settle → (∃ sh, o.kind = .xdot sh) → ∃ t, exec (.xdotDrainStart c o.id) s = .next t ∧
      (s.now + (o.cols + 48), .tileOperationComplete c o.id) ∈ t.agenda ∧
      (∃ p ∈ (t.ctx c).tiles, p = { o with stage := .drain }) ∧ SameMemory s t) ∧
    (∀ (sec : Bool) (v : Word),
      (v.getLsbD 24 = false → (s.ctx c).tiles.find? (fun t => t.sec == sec && t.kind = .mma && 0 < t.done) = some o → o.shadow = none →
        o.mask.getLsbD (getBits v 15 4) = true →
        ∃ t w, exec (.shadowReport c sec v) s = .next t ∧ (∃ p ∈ (t.ctx c).tiles, p = { o with shadow := some w }) ∧ SameMemory s t ∧
          getBits w 0 7 = getBits v 0 7 ∧ getBits w 7 8 = getBits v 7 8 ∧ getBits w 15 4 = getBits v 15 4 ∧
          getBits w 19 5 = ((s.core c).catalogue.toList.getD (getBits v 15 4) 0).toNat ∧ getBits w 26 3 = c.val ∧
          w.getLsbD 24 = false ∧ w.getLsbD 25 = v.getLsbD 25) ∧
      (v.getLsbD 24 = true → ∀ k, (s.stream c sec).checking.find? (fun k =>
          decide (s.now ≤ k.by_) && (if v.getLsbD 25 then k.sum else k.product)) = some k → (s.stream c sec).hold = .none →
        ∃ t, exec (.shadowReport c sec v) s = .next t ∧ (t.stream c sec).inflight =
          (s.stream c sec).inflight ++ [{ due := k.lands + 4, dest := .report 0x06 (vectorReport c v) }] ∧ SameMemory s t))

/-- R283, with the residues that an exact integer has: a value below M_I / 2 in magnitude whose eight residues are right is
classified V; where exactly one channel is wrong and the bound of the set lies below M_I / 2, the channel is located and the
true value is restored. -/
def Obligations.ResidueCorrection : Prop :=
  ∀ (x : Int) (bound : Nat),
    (2 * x.natAbs < modInfo → classify (fun c => (x % (modulus c : Int)).toNat) bound false = .valid x false) ∧
    (2 * bound < modInfo → x.natAbs ≤ bound → ∀ c v, c < 8 → v ≠ (x % (modulus c : Int)).toNat → v < 2 ^ 16 →
      classify (fun k => if k = c then v else (x % (modulus k : Int)).toNat) bound false = .located c x false)

/-- R282, R285, R286, R288, R292, R293, R363: an RNSX classifies every element of its tile once, before it writes any, and applies
Z then. Where none is in band E its rows follow, one a cycle (the model's pace, assumption 28): the values of a row, shifted for
accw, are added to their elements of accw or of an FP32 accumulator, and after the last row the plane set is empty. Where some is
in band E it takes 8 cycles more for each, and unless it may correct them writes no value, keeps the set, and reports cause 0x08,
or 0x07 where every one is located, with the record of the first element of band E (that a located one may come first is the
model's reading, assumption 41). RNSCHK writes nothing and keeps the set. -/
def Obligations.ResidueExtraction : Prop :=
  (∀ (s : State) (c : CoreId) (k : TileOp) (es : List ElemVerdict), (s.core c).tileBank k.id = some (false, k) → k.kind = .rnschk →
    k.stage = .write false es →
    ∃ t, exec (.tileOperationComplete c k.id) s = .next t ∧ (t.ctx c).plane = (s.ctx c).plane ∧ (t.ctx c).acc = (s.ctx c).acc ∧
      (t.ctx c).accw = (s.ctx c).accw ∧ (∀ u ∈ (t.ctx c).tiles, u.id ≠ k.id) ∧ SameMemory s t) ∧
  ∀ (s : State) (c : CoreId) (o : TileOp) (dst : BitVec 3) (sh : Nat), (s.core c).tileBank o.id = some (false, o) → o.kind = .rnsx dst sh →
    o.acc = dst → dst.toNat ≤ 4 → (s.ctx c).plane.magx = false →
    let x := s.ctx c
    let tl := fun (t : State) => (t.stream c o.sec).tl = fell (s.stream c o.sec) o.id (s.stream c o.sec).tl
    (o.stage = .settle → 0 < o.rows →
      let es := classifyAll x.rns x.plane
      let n := (es.filter (fun e => e.bandE)).length
      let ok := es.all (fun e => !e.unc) && (o.mode || es.all (fun e => !e.bandE))
      ∃ t, exec (.tileOperationComplete c o.id) s = .next t ∧ (t.ctx c).plane = x.plane ∧ SameMemory s t ∧
        (∃ p ∈ (t.ctx c).tiles, p = { o with stage := .write ok es, done := 0 }) ∧
        (s.now + (8 * n + if ok then 1 else o.rows), .tileOperationComplete c o.id) ∈ t.agenda ∧
        (o.z = false → (t.ctx c).acc = x.acc ∧ (t.ctx c).accw = x.accw) ∧
        (o.z = true → dst = 4 → twf 0 x.accw = true → ∀ i j, i < o.rows → j < o.cols → tget 0 (t.ctx c).accw (192 * i + j) = 0) ∧
        (o.z = true → dst ≠ 4 → twf 0 x.acc = true → ∀ i j, i < o.rows → j < o.cols →
          tget 0 (t.ctx c).acc (accKey dst.toNat i j) = 0x80000000)) ∧
    (∀ es, o.stage = .write true es → (∀ e ∈ es, e.bandE = false) → (es.filter (fun e => e.i = o.done)).map (·.j) = List.range o.cols →
      o.cols ≤ 192 → twf 0 x.accw = true → twf 0 x.acc = true →
      ∃ t, exec (.tileOperationComplete c o.id) s = .next t ∧ SameMemory s t ∧
        (dst = 4 → (t.ctx c).acc = x.acc ∧
          (∀ e ∈ es, e.i = o.done → tget 0 (t.ctx c).accw (192 * e.i + e.j) =
            BitVec.ofInt 160 ((tget 0 x.accw (192 * e.i + e.j)).toInt + e.x * 2 ^ sh)) ∧
          (∀ key, (∀ j < o.cols, key ≠ 192 * o.done + j) → tget 0 (t.ctx c).accw key = tget 0 x.accw key)) ∧
        (dst ≠ 4 → (t.ctx c).accw = x.accw ∧
          (∀ e ∈ es, e.i = o.done → tget 0 (t.ctx c).acc (accKey dst.toNat e.i e.j) = BitVec.ofNat 32
            (cubeAdd (tget 0 x.acc (accKey dst.toNat e.i e.j)).toNat (some (.fin (decide (e.x < 0)) e.x.natAbs 0))).1) ∧
          (∀ key, (∀ j < o.cols, key ≠ accKey dst.toNat o.done j) → tget 0 (t.ctx c).acc key = tget 0 x.acc key)) ∧
        (if o.done + 1 < o.rows then (s.now + 1, .tileOperationComplete c o.id) ∈ t.agenda ∧ (t.ctx c).plane = x.plane ∧
            ∃ p ∈ (t.ctx c).tiles, p.id = o.id ∧ p.stage = .write true es ∧ p.done = o.done + 1
          else (t.ctx c).plane = PlaneSet.reset ∧ tl t ∧ ∀ u ∈ (t.ctx c).tiles, u.id ≠ o.id)) ∧
    (∀ es e, o.stage = .write false es → es.find? (fun e => e.bandE) = some e →
      (es.any (fun e => e.unc) = true ∨ o.mode = false) →
      o.poison = none → o.shadow = none → (s.stream c o.sec).stopped = none → (s.stream c o.sec).halted = false →
      let cause : BitVec 8 := if es.any (fun e => e.unc) then 0x08 else 0x07
      (∀ q ∈ (s.stream c o.sec).pending, q.cause ≠ cause) →
      ∃ t, exec (.tileOperationComplete c o.id) s = .next t ∧ (t.ctx c).accw = x.accw ∧ (t.ctx c).acc = x.acc ∧
        (t.ctx c).plane = x.plane ∧ SameMemory s t ∧ tl t ∧ (t.stream c o.sec).pending =
          (s.stream c o.sec).pending ++ [{ cause := cause, tval := e.record (s.core c).catalogue }])

/-- R274, R290, R297: a destination register serves a drain of elements of a format and size. -/
def Sys2Proof.Claims.DestPasses (d : BitVec 512) (fmt size rows cols : Nat) : Prop :=
  sdFmt d = fmt ∧ (sdDims d = 2 ∨ sdDims d = 3) ∧ cols ≤ sdExt0 d ∧ rows ≤ sdExt1 d ∧ (sdDims d = 3 → sdCur1 d < sdExt2 d) ∧
  sdBase d % size = 0 ∧ sdStr0 d % (size : Int) = 0 ∧ sdStr1 d % (size : Int) = 0 ∧ sdStr2 d % (size : Int) = 0

/-- R127, R266, R274, R275, R279, R282, R288, R290, R292 to R294, R297: RNSX and RNSCHK drain a held plane set, and on an EMPTY one
raise cause 0x01 with code 10; RNSX of a set with MAGX raises cause 0x09; RNSDEG sets the DEG and XL of one group and empties the
set. MDRN and XFIN start the drain of a rectangle, and with .adv advance the destination's CUR1; a shape, a destination or
exponent arrays that do not pass raise cause 0x01 with code 9, 6 or 11, in that order, and a byte outside the group named cause
0x03; a freeze of the cube holds them. -/
def Obligations.DrainsIssue : Prop :=
  ∀ (s : State),
    (∀ (z : Bool) (sh : BitVec 7) (n : BitVec 3), s.planeDraining = false →
      let p := s.curCtx.plane
      let enters := fun (i : Instr) (k : TileKind) => ∃ t o, exec i s = .next t ∧ t.curCtx.tiles = s.curCtx.tiles ++ [o] ∧
        o.kind = k ∧ o.rows = p.rows ∧ o.cols = p.cols ∧ o.steps = 0 ∧ o.stage = .feed ∧ t.cur.tl = s.cur.tl + 1 ∧
        SameRegs s.cur t.cur ∧ SameCtx s.curCtx t.curCtx ∧ SameMemory s t
      (p.held = true → p.magx = false → s.cubeFreeze n true = none → enters (.rnsx z sh n) (.rnsx n sh.toNat)) ∧
      (p.held = true → s.cubeFreeze 5 true = none → enters .rnschk .rnschk) ∧
      (Handles s.cur → (p.held = false → ∀ i ∈ [Instr.rnsx z sh n, .rnschk], ∀ w, encode i = some w →
        ∃ t, exec i s = .next t ∧ TrapTaken s t 0x01 (w ++ BitVec.ofNat 32 (5 + 256 * 10))) ∧
        (p.held = true → p.magx = true → ∃ t, exec (.rnsx z sh n) s = .next t ∧ TrapTaken s t 0x09 (BitVec.ofNat 64 (2 ^ 63))))) ∧
    (∀ (p : BitVec 4) (g : Bool), p.toNat ≤ 8 →
      let lo := if g then 5 else 1
      (s.cur.priv = true → s.curCtx.tiles = [] → ∃ t, exec (.rnsdeg p g) s = .next t ∧
        getBits t.curCtx.rns lo 4 = (if p = 8 then 0 else 1 + 2 * p.toNat) ∧
        (∀ k < 64, k < lo ∨ lo + 4 ≤ k → t.curCtx.rns.getLsbD k = s.curCtx.rns.getLsbD k) ∧
        t.curCtx.plane = PlaneSet.reset ∧ SameRegs s.cur t.cur ∧ SameMemory s t) ∧
      (s.cur.priv = false → Handles s.cur → ∀ w, encode (.rnsdeg p g) = some w →
        ∃ t, exec (.rnsdeg p g) s = .next t ∧ TrapTaken s t 0x02 (w ++ 5#32))) ∧
    (∀ (d : BitVec 4) (a : BitVec 6) (r : BitVec 2) (ovx adv clr : Bool) (f n : BitVec 3),
      let shape := fun (rows cols : Nat) =>
        s.cur.rs a = BitVec.ofNat 64 (rows + 256 * cols) ∧ 1 ≤ rows ∧ rows ≤ 128 ∧ 1 ≤ cols ∧ cols ≤ 192
      let i1 := Instr.mdrn d a r ovx adv clr f n
      let i2 := Instr.xfin d a adv clr
      let st := s.curCtx.rstr d
      let eo := s.cur.rs (a + 1)
      let fo := s.cur.rs (a + 2)
      let inSlice := fun (o : Word) (k : Nat) => o.toNat % 2 = 0 ∧ o.toNat + 2 * k ≤ 0x6000000
      let fmt := storeFmt f.toNat
      let size := elemSize fmt
      let fails := fun (i : Instr) (code : Nat) => Handles s.cur → ∀ w, encode i = some w →
        ∃ t, exec i s = .next t ∧ TrapTaken s t 0x01 (w ++ BitVec.ofNat 32 (5 + 256 * code)) ∧ t.curCtx.tiles = s.curCtx.tiles
      let held := fun (i : Instr) (own : Bool) => ∃ t, exec i s = .next t ∧ t.issue.status = .held (if own then .accwr else .cube) ∧
        t.curCtx.tiles = s.curCtx.tiles ∧ SameMemory s t
      let starts := fun (i : Instr) (k : TileKind) (rows cols : Nat) => ∃ t o, exec i s = .next t ∧ t.curCtx.tiles = s.curCtx.tiles ++ [o] ∧
        o.kind = k ∧ o.rows = rows ∧ o.cols = cols ∧ o.astr = st ∧ o.stage = .drain ∧ t.cur.tl = s.cur.tl + 1 ∧
        UnderWay t (.drainComplete s.issue.core o.id) ∧ SameRegs s.cur t.cur ∧
        Advances s.curCtx t.curCtx (if adv then [d] else []) ∧ (∀ q, t.curCtx.rv q = s.curCtx.rv q) ∧ t.curCtx.acc = s.curCtx.acc ∧
        t.curCtx.accw = s.curCtx.accw ∧ t.curCtx.plane = s.curCtx.plane ∧ SameMemory s t
      let outside := fun (fm rows cols : Nat) (i : Instr) => ∀ rec, destConflict st fm rows cols = some rec → Handles s.cur →
        ∃ t, exec i s = .next t ∧ TrapTaken s t 0x03 rec ∧ t.curCtx.tiles = s.curCtx.tiles
      ((∀ rows cols, ¬shape rows cols) → fails i1 9 ∧ fails i2 9) ∧
      (∀ rows cols, shape rows cols →
        (¬DestPasses st fmt size rows cols → fails i1 6) ∧ (¬DestPasses st 1 8 rows cols → fails i2 6) ∧
        (DestPasses st fmt size rows cols → outside fmt rows cols i1 ∧
          (destConflict st fmt rows cols = none → (∀ own, s.cubeFreeze n false = some own → held i1 own) ∧
            (s.cubeFreeze n false = none → starts i1 (.mdrn f r ovx clr) rows cols))) ∧
        (DestPasses st 1 8 rows cols →
          (¬(inSlice eo rows ∧ inSlice fo cols) → fails i2 11) ∧
          (inSlice eo rows ∧ inSlice fo cols → outside 1 rows cols i2 ∧
            (destConflict st 1 rows cols = none → (∀ own, s.cubeFreeze 4 false = some own → held i2 own) ∧
              (s.cubeFreeze 4 false = none → starts i2 (.xfin clr eo.toNat fo.toNat) rows cols))))))

/-- The bytes that MDRN writes for one row, in write order: the converted elements of the accumulator, lowest byte first
(R275). -/
def Sys2Proof.Claims.rowBytes (c : CoreId) (o : TileOp) (f : BitVec 3) (r : BitVec 2) (ovx : Bool) (acc : Table (BitVec 32))
    (i : Nat) : List (Nat × Byte) :=
  (List.range o.cols).flatMap (fun j =>
    atAddr (sliceIa c (elemOff o.astr (storeFmt f.toNat) j i))
      (bytesOfNat (elemSize (storeFmt f.toNat)) (drainElem f r ovx (tget 0 acc (accKey o.acc.toNat i j)).toNat).1))

/-- A drain goes on at its next row, or has completed: its operation is gone and tl has fallen (R265, R275, R363). -/
def Sys2Proof.Claims.RowEnds (s t : State) (c : CoreId) (o : TileOp) : Prop :=
  if o.done + 1 < o.rows then UnderWay t (.drainComplete c o.id) ∧ ∃ p ∈ (t.ctx c).tiles, p.id = o.id ∧ p.done = o.done + 1
  else (t.stream c o.sec).tl = fell (s.stream c o.sec) o.id (s.stream c o.sec).tl ∧ ∀ u ∈ (t.ctx c).tiles, u.id ≠ o.id

/-- The bytes that XFIN writes for one row, in write order (R297): for W of accw and the exponents E of the row and F of the
column the FP64 value of W × 2^(E + F − 110), rounded to nearest even with subnormals kept, and +0 for W = 0. -/
def Sys2Proof.Claims.xfinBytes (c : CoreId) (o : TileOp) (accw : Table (BitVec 160)) (e : Int) (f : Nat → Int) (i : Nat) :
    List (Nat × Byte) :=
  (List.range o.cols).flatMap (fun j =>
    let w := (tget 0 accw (192 * i + j)).toInt
    atAddr (sliceIa c (elemOff o.astr 1 j i))
      (bytesOfNat 8 (if w = 0 then 0 else (roundFin fp64 .rne .dflt false 0 (decide (w < 0)) w.natAbs (e + f j - 110)).1)))

/-- R118, R121, R266, R275, R297, R363: MDRN and XFIN write the bytes of one row of their rectangle, in write order, and no others;
with CLR the row of the accumulator is then −0, or 0 in accw, and no other element of it changes; with the last row tl falls. A
drain waits for an earlier operation on its accumulator, and for the sub-banks of its row. That a row is one event is the model's
pace (assumption 28). -/
def Sys2Proof.Claims.DrainsComplete : Prop :=
  ∀ (s : State) (c : CoreId) (o : TileOp), (s.core c).tileBank o.id = some (false, o) →
    let banks := (s.takeBanks false (o.waits.getD (slicePlaces (o.rowAddrs c)))).2
    let free := (s.ctx c).tiles.any (fun u => u.acc = o.acc && u.id < o.id) = false
    let clean := fun (a : Nat) => regionOf a = .slice c.val ∧ unitOf a ∉ s.poison ∧ unitOf a ∉ s.fatals
    ((s.ctx c).tiles.any (fun u => u.acc = o.acc && u.id < o.id) = true →
      ∃ t, exec (.drainComplete c o.id) s = .next t ∧ (s.now + 1, .drainComplete c o.id) ∈ t.agenda ∧
        (t.ctx c).tiles = (s.ctx c).tiles ∧ SameMemory s t) ∧
    (free → banks ≠ [] → ∃ t, exec (.drainComplete c o.id) s = .next t ∧ (s.now + 1, .drainComplete c o.id) ∈ t.agenda ∧
      (∃ p ∈ (t.ctx c).tiles, p = { o with waits := some banks }) ∧ SameMemory s t) ∧
    (free → banks = [] → s.canonical → (s.core c).spdiag = 0 →
      (∀ f r ovx clr, o.kind = .mdrn f r ovx clr → (∀ j < o.cols, accKey o.acc.toNat o.done j ∉ (s.ctx c).accBad) →
        let out := rowBytes c o f r ovx (s.ctx c).acc o.done
        (∀ p ∈ out, clean p.1) →
        ∃ t, exec (.drainComplete c o.id) s = .next t ∧ RowEnds s t c o ∧
          (∀ a b, aget out.reverse a = some b → Memory.get t.mem a = b) ∧
          (∀ a, (∀ p ∈ out, p.1 ≠ a) → Memory.get t.mem a = Memory.get s.mem a) ∧
          (clr = false → (t.ctx c).acc = (s.ctx c).acc) ∧
          (clr = true → o.acc ≠ 4 → twf 0 (s.ctx c).acc = true → ∀ key, tget 0 (t.ctx c).acc key =
            if ∃ j < o.cols, key = accKey o.acc.toNat o.done j then 0x80000000 else tget 0 (s.ctx c).acc key)) ∧
      (∀ clr eo fo, o.kind = .xfin clr eo fo → o.acc = 4 → (∀ j < o.cols, 98304 + 192 * o.done + j ∉ (s.ctx c).accBad) →
        let int16 := fun (k : Nat) => sgn 16 (natOfBytes ((addrs (sliceBase c.val + k) 2).map (Memory.get s.mem)))
        let out := xfinBytes c o (s.ctx c).accw (int16 (eo + 2 * o.done)) (fun j => int16 (fo + 2 * j)) o.done
        (∀ p ∈ out, clean p.1) → (∀ k < 2, clean (sliceBase c.val + (eo + 2 * o.done + k))) →
        (∀ k < 2 * o.cols, clean (sliceBase c.val + (fo + k))) →
        ∃ t, exec (.drainComplete c o.id) s = .next t ∧ RowEnds s t c o ∧
          (∀ a b, aget out.reverse a = some b → Memory.get t.mem a = b) ∧
          (∀ a, (∀ p ∈ out, p.1 ≠ a) → Memory.get t.mem a = Memory.get s.mem a) ∧
          (clr = false → (t.ctx c).accw = (s.ctx c).accw) ∧
          (clr = true → twf 0 (s.ctx c).accw = true → ∀ key, tget 0 (t.ctx c).accw key =
            if ∃ j < o.cols, key = 192 * o.done + j then 0 else tget 0 (s.ctx c).accw key)))

/-- R253, R270 to R273, R276: MHOLD.rel drops the slab and MHOLD.chk reads it; MORG.adv advances the origin by (37, 53)
modulo (128, 192) and MORG.rd reads it; MGANG chooses an allowed configuration and writes rank and size, else raises cause
0x01 with code 8; MSTAT reads the status or the count, and .clr clears the sticky bits read; when every partner of a
rendezvous has come, every one gets the same verdict. -/
def Obligations.CubeManagement : Prop :=
  ∀ (s : State) (d : BitVec 6),
    (∃ t, exec .mholdRel s = .next t ∧ t.curCtx.slab = none ∧ SameRegs s.cur t.cur ∧ SameCtx s.curCtx t.curCtx ∧ SameMemory s t) ∧
    (∃ v, Writes (.mholdChk d) s 2 d v ∧ (s.curCtx.slab = none → v = 0) ∧
      (∀ b, s.curCtx.slab = some b → b.h < 16 → v.getLsbD 4 = true ∧ getBits v 0 4 = b.h)) ∧
    (∃ t, exec .morgAdv s = .next t ∧ t.curCore.ox = (s.curCore.ox + 37) % 128 ∧ t.curCore.oy = (s.curCore.oy + 53) % 192 ∧
      SameRegs s.cur t.cur ∧ SameCtx s.curCtx t.curCtx ∧ SameMemory s t) ∧
    Writes (.morgRd d) s 2 d (BitVec.ofNat 64 (s.curCore.ox + 65536 * s.curCore.oy)) ∧
    (∀ cfg : BitVec 2, s.curCtx.gangAllowed cfg = true →
      let ms := s.curCtx.gangMembers s.issue.core cfg
      ∃ t, exec (.mgang d cfg) s = .next t ∧ t.curCtx.gang = cfg ∧ SameRegs s.cur t.cur ∧ SameMemory s t ∧
        t.cur.inflight = s.cur.inflight ++
          [{ due := s.cur.sc + 2, dest := .scalar d (BitVec.ofNat 64 (ms.findIdx (fun k => k == s.issue.core) + 4 * ms.length)) }]) ∧
    (∀ cfg : BitVec 2, s.curCtx.gangAllowed cfg = false → Handles s.cur → ∀ w, encode (.mgang d cfg) = some w →
      ∃ t, exec (.mgang d cfg) s = .next t ∧ TrapTaken s t 0x01 (w ++ BitVec.ofNat 32 (5 + 256 * 8)) ∧ t.curCtx.gang = s.curCtx.gang) ∧
    Writes (.mstat d false false) s 2 d s.curCtx.cubeStatus ∧ (∀ clr, Writes (.mstat d clr true) s 2 d s.curCtx.tlDone) ∧
    (∃ t, exec (.mstat d true false) s = .next t ∧ t.curCtx.cubeEvents = s.curCtx.cubeFresh ∧ SameRegs s.cur t.cur ∧ SameMemory s t ∧
      t.cur.inflight = s.cur.inflight ++ [{ due := s.cur.sc + 2, dest := .scalar d s.curCtx.cubeStatus }]) ∧
    (∀ (c : CoreId) (sec : Bool) (ms : List (CoreId × Bool)), s.gangMeeting c sec = some ms →
      ∃ t n, exec (.gangRendezvous c sec) s = .next t ∧ SameMemory s t ∧
        (n = 1 ↔ ∃ m ∈ ms, s.gangValsAt m ≠ s.gangValsAt (c, sec)) ∧
        (n = 2 → ∃ m ∈ ms, s.gangOver ms m = true) ∧ ∀ m ∈ ms, t.gangVerdict m = some n)

/-! ### Copy engines -/

/-- Two regions share a 64-byte line, or are the same pseudo-region of a code table (R103, R104). -/
def Sys2Proof.Claims.Touch (x y : Region) : Prop :=
  match x.table, y.table with
  | some a, some b => a = b
  | none, none => ∃ p q, x.lo ≤ p ∧ p < x.hi ∧ y.lo ≤ q ∧ q < y.hi ∧ p / 64 = q / 64
  | _, _ => False

/-- The footprint of a job (R103): the ranges that it reads and writes, with the slot that CTAB writes and CPYD reads. -/
def Sys2Proof.Claims.Footprint (j : Job) : Prop :=
  let r := fun (e : Extent) => ({ lo := e.ia, hi := e.ia + e.len, wr := e.wr, table := none } : Region)
  let slot := fun (n : BitVec 4) (w : Bool) => ({ lo := 0, hi := 0, wr := w, table := some n } : Region)
  j.regions = match j.kind with
    | .copy a b _ _ _ _ _ _ z => if z then [r b] else [r a, r b]
    | .decode a b _ _ n => [r a, r b, slot n false]
    | .expand a m b _ _ => [r a, r m, r b]
    | .table a n => [r a, slot n true]
    | .gather _ l => l.map r
    | .collective _ _ _ _ _ a b _ _ _ _ => a.toList.map r ++ b.toList.map r
    | .settled .. => []

/-- The instruction enters one job on its tag, which becomes BUSY and whose DONE bit is cleared at the end of the cycle, and cp
rises. The job has its footprint, its class, and, unless it completes at once, its SPAN and NT bits; it has an edge from each
earlier job of its core that meets it where one of the two writes, marked where that job writes and this one reads. A tag in use
raises cause 0x10 with the tag in ctl.tval, and a scheduler without room for what the bundle has still to start holds the bundle
(R93, R94, R99, R103, R104). -/
def Sys2Proof.Claims.EntersJob (s : State) (i : Instr) (tag : BitVec 6) (cls : BitVec 3) (span nt : Bool) (kind : JobKind → Prop) : Prop :=
  let bit : Word := BitVec.ofNat 64 (2 ^ tag.toNat)
  let n := s.curCtx.jobs.length + Nat.max 1 s.issue.jobs
  ((s.curCtx.tagBusy ||| s.issue.tagsNamed) &&& bit = 0 → n ≤ 64 → s.cur.cp < 64 →
    ∃ t j, exec i s = .next t ∧ t.curCtx.jobs = s.curCtx.jobs ++ [j] ∧ j.tag = tag ∧ j.sec = s.issue.sec ∧ j.started = false ∧
      kind j.kind ∧ Footprint j ∧ j.cls = cls ∧ ((∀ st ad, j.kind ≠ .settled st ad) → j.span = span ∧ j.nt = nt) ∧
      (∀ e, e ∈ j.edges ↔ ∃ k ∈ s.curCtx.jobs, k.id = e.1 ∧
        (∃ x ∈ j.regions, ∃ y ∈ k.regions, Touch x y ∧ (x.wr = true ∨ y.wr = true)) ∧
        (e.2 = true ↔ ∃ x ∈ j.regions, ∃ y ∈ k.regions, Touch x y ∧ y.wr = true ∧ x.wr = false)) ∧
      t.curCtx.tagBusy = s.curCtx.tagBusy ||| bit ∧ t.curCtx.tags = s.curCtx.tags ∧
      t.curCore.endWrites = s.curCore.endWrites ++ [.tagClear bit] ∧ t.cur.cp = s.cur.cp + 1 ∧
      t.issue.status = s.issue.status ∧ (∀ st ad, j.kind = .settled st ad → UnderWay t (.jobComplete s.issue.core j.id)) ∧
      SameRegs s.cur t.cur ∧ SameMemory s t) ∧
  ((s.curCtx.tagBusy ||| s.issue.tagsNamed) &&& bit ≠ 0 → Handles s.cur →
    ∃ t, exec i s = .next t ∧ TrapTaken s t 0x10 (tag.setWidth 64)) ∧
  ((s.curCtx.tagBusy ||| s.issue.tagsNamed) &&& bit = 0 → 64 < n →
    ∃ t, exec i s = .next t ∧ t.issue.status = .held .scheduler ∧ t.curCtx.jobs = s.curCtx.jobs ∧ SameRegs s.cur t.cur ∧ SameMemory s t)

/-- R93, R94, R100, R101, R110, R111, R113: CPY, CPYD, CPYS, CTAB and EGO each enter a job. Its kind is the first that holds of:
one that completes at once with status 4 for a descriptor or engine register that is bad before translation; with status 0 for
nothing to move; with status 1 for a range that does not translate; with status 4 for ranges that overlap, and for a decoding
or expansion whose destination is outside the own slice; else the job that the descriptor asks for, with its translated
ranges. EWR writes its engine register at the end of the cycle. TCLR returns the DONE tags that it names and clears them at
the end of the cycle, with their statuses. -/
def Obligations.CopyJobsIssue : Prop :=
  ∀ (s : State) (tag sg : BitVec 6) (cls : BitVec 3) (span nt : Bool),
    let r := fun (n : BitVec 6) => s.cur.rs (sg + n)
    let lo := fun (x : Word) => getBits x 0 32
    let hi := fun (x : Word) => getBits x 32 32
    let win := s.curCtx.win
    (∀ z : Bool,
      let len := lo (r 2)
      let rows := hi (r 2)
      let ss := ((r 3).extractLsb' 0 32).toInt
      let ds := ((r 3).extractLsb' 32 32).toInt
      let bad := 2 ^ 40 < len * rows ∨ (1 < rows ∧ ds.natAbs < len)
      let a := hullOf rows len ss
      let b := hullOf rows len ds
      EntersJob s (.cpy tag sg z span nt cls) tag cls span nt (fun k =>
        (bad → k = .settled 4 (r 0)) ∧ (¬bad → (len = 0 ∨ rows = 0) → k = .settled 0 0) ∧
        (¬bad → 0 < len → 0 < rows → translate win (r 1 + BitVec.ofInt 64 b.1) b.2 .write = none → k = .settled 1 0) ∧
        (¬bad → 0 < len → 0 < rows → z = false → translate win (r 0 + BitVec.ofInt 64 a.1) a.2 .read = none → k = .settled 1 0) ∧
        (¬bad → 0 < len → 0 < rows → ∀ ib tb, translate win (r 1 + BitVec.ofInt 64 b.1) b.2 .write = some (ib, tb) →
          (z = true → ∃ x y, k = .copy x y (r 0) (r 1) len rows ss ds true ∧ y.ia = ib ∧ y.len = b.2) ∧
          (∀ ia ta, z = false → translate win (r 0 + BitVec.ofInt 64 a.1) a.2 .read = some (ia, ta) →
            (ia < ib + b.2 → ib < ia + a.2 → k = .settled 4 (r 0)) ∧
            ((ib + b.2 ≤ ia ∨ ia + a.2 ≤ ib) → ∃ x y, k = .copy x y (r 0) (r 1) len rows ss ds false ∧ x.ia = ia ∧ x.len = a.2 ∧
              y.ia = ib ∧ y.len = b.2))))) ∧
    (∀ va n wr, s.extent va n wr = if n = 0 then some { va := va, ia := 0, len := 0, wr := wr, attr := 0 }
      else (translate win va n (if wr then .write else .read)).map (fun p => { va := va, ia := p.1, len := n, wr := wr, attr := p.2 })) ∧
    (∀ slot : BitVec 4, EntersJob s (.cpyd tag sg slot span nt cls) tag cls span nt (fun k =>
      let len := lo (r 2)
      let a := s.extent (r 0) (hi (r 2)) false
      let b := s.extent (r 1) len true
      (r 3 ≠ 0 → k = .settled 4 (r 0)) ∧ (r 3 = 0 → len = 0 → k = .settled 0 0) ∧
      (r 3 = 0 → 0 < len → a = none ∨ b = none → k = .settled 1 0) ∧
      (∀ x y, r 3 = 0 → 0 < len → a = some x → b = some y →
        (x.meets y = true ∨ regionOf y.ia ≠ .slice s.issue.core.val → k = .settled 4 (r 0)) ∧
        (x.meets y = false → regionOf y.ia = .slice s.issue.core.val → k = .decode x y len (hi (r 2)) slot)))) ∧
    (∀ e : BitVec 2, EntersJob s (.cpys tag sg e span nt cls) tag cls span nt (fun k =>
      let n := 2 ^ e.toNat
      let g := lo (r 2)
      let bad := hi (r 2) ≠ 0 ∨ (r 0).toNat % n ≠ 0 ∨ (r 1).toNat % n ≠ 0
      let a := s.extent (r 0) (2 * g * n) false
      let m := s.extent (r 3) ((g + 1) / 2) false
      let b := s.extent (r 1) (4 * g * n) true
      (bad → k = .settled 4 (r 0)) ∧ (¬bad → g = 0 → k = .settled 0 0) ∧
      (¬bad → 0 < g → a = none ∨ m = none ∨ b = none → k = .settled 1 0) ∧
      (∀ x y z, ¬bad → 0 < g → a = some x → m = some y → b = some z →
        (x.meets z = true ∨ y.meets z = true ∨ regionOf z.ia ≠ .slice s.issue.core.val → k = .settled 4 (r 0)) ∧
        (x.meets z = false → y.meets z = false → regionOf z.ia = .slice s.issue.core.val → k = .expand x y z g n)))) ∧
    (∀ slot : BitVec 4, EntersJob s (.ctab tag sg slot cls) tag cls false false (fun k =>
      ((r 0).toNat % 64 ≠ 0 → k = .settled 4 (r 0)) ∧
      ((r 0).toNat % 64 = 0 → translate win (r 0) 128 .read = none → k = .settled 1 0) ∧
      (∀ ia ta, (r 0).toNat % 64 = 0 → translate win (r 0) 128 .read = some (ia, ta) → ∃ x, k = .table x slot ∧ x.ia = ia ∧ x.len = 128))) ∧
    EntersJob s (.ego tag) tag (s.curCtx.e[7].extractLsb' 6 3) (s.curCtx.e[7].getLsbD 5) (s.curCtx.e[7].getLsbD 4) (fun k =>
      let e := s.curCtx.e
      let l := (gatherRegions e).mapM (fun r => s.extent r.1 r.2.1 r.2.2)
      (gatherBad e = true → k = .settled 4 e[0]) ∧ (gatherBad e = false → lo e[3] = 0 → k = .settled 0 0) ∧
      (gatherBad e = false → 0 < lo e[3] → l = none → k = .settled 1 0) ∧
      (∀ x, gatherBad e = false → 0 < lo e[3] → l = some x →
        ((∃ a ∈ x, ∃ b ∈ x, a.wr = false ∧ b.wr = true ∧ a.meets b = true) → k = .settled 4 e[0]) ∧
        ((∀ a ∈ x, ∀ b ∈ x, a.wr = false → b.wr = true → a.meets b = false) → k = .gather e x))) ∧
    (∀ (e : BitVec 4) (a : BitVec 6) (imm : BitVec 14), ∃ t, exec (.ewr e a imm) s = .next t ∧
      t.curCore.endWrites = s.curCore.endWrites ++ [.engine s.issue.sec e (s.cur.rs a + imm.signExtend 64)] ∧
      SameRegs s.cur t.cur ∧ SameCtx s.curCtx t.curCtx ∧ SameMemory s t) ∧
    (∀ d a : BitVec 6, ∃ t, exec (.tclr d a) s = .next t ∧
      t.cur.inflight = s.cur.inflight ++ [{ due := s.cur.sc + 2, dest := .scalar d (s.curCtx.tags &&& s.cur.rs a) }] ∧
      t.curCore.endWrites = s.curCore.endWrites ++ [.tagClear (s.curCtx.tags &&& s.cur.rs a)] ∧ t.curCtx.tags = s.curCtx.tags ∧
      SameRegs s.cur t.cur ∧ SameMemory s t) ∧
    (∀ (c : CoreId) (m : Word), (s.core c).endWrites = [.tagClear m] →
      let t := s.landEndWrites c
      (t.ctx c).tags = (s.ctx c).tags &&& ~~~m ∧ (t.ctx c).tagBusy = (s.ctx c).tagBusy ∧ (t.core c).endWrites = [] ∧
      ∀ i : Fin 64, (t.ctx c).tagStatus[i] = if ((s.ctx c).tags &&& m).getLsbD i.val then 0 else (s.ctx c).tagStatus[i])

/-- R91, R104: a job of the running context without edges whose stores are applied starts on a free engine; one that reads after
a failed job completes with status 9. -/
def Sys2Proof.Claims.JobsStart : Prop :=
  ∀ (s : State) (c : CoreId) (j : Job), (s.ctx c).findJob j.id = some j → (s.core c).packetJob j.id = none →
    (s.core c).live = true → (s.core c).swapEnd ≤ s.now → (s.core c).sliceBusy = false →
    j.started = false → j.kind.needsEngine = true → j.edges = [] → (∀ o ∈ ((s.ctx c).stream j.sec).ops, o.id ∉ j.stores) →
    (j.depFailed = false → ∀ e, s.freeEngine c = some e → ∃ t, exec (.jobStart c j.id) s = .next t ∧ UnderWay t (.jobComplete c j.id) ∧
      (t.ctx c).findJob j.id = some { j with started := true, engine := some e, sentAt := s.now, waits := none } ∧ SameMemory s t) ∧
    (j.depFailed = true → ∃ t, exec (.jobStart c j.id) s = .next t ∧ (s.now + 1, .jobComplete c j.id) ∈ t.agenda ∧
      (t.ctx c).findJob j.id = some { j with started := true, kind := .settled 9 0 } ∧ SameMemory s t)

/-- R91, R93, R95, R98, R102, R104: a job that completes makes its tag DONE with its status, frees it, counts cp down and lifts
the edges from it; statuses 2 to 8 are recorded in ctl.cperr while that is free; a started plain copy of one row between
slices moves exactly the bytes of its next destination line, and completes with status 0 after the last. One line per event is
the model's choice (logs 28 and 29). -/
def Sys2Proof.Claims.JobsComplete : Prop :=
  ∀ (s : State) (c : CoreId) (j : Job), (s.ctx c).findJob j.id = some j →
    let bit : Word := BitVec.ofNat 64 (2 ^ j.tag.toNat)
    let ended := fun (t : State) (status : Nat) =>
      (t.ctx c).tags = (s.ctx c).tags ||| bit ∧ (t.ctx c).tagBusy = (s.ctx c).tagBusy &&& ~~~bit ∧
      (t.ctx c).tagStatus[j.tag.toNat] = BitVec.ofNat 4 status ∧ (t.stream c j.sec).cp = fell (s.stream c j.sec) j.id (s.stream c j.sec).cp ∧
      (∀ k ∈ (t.ctx c).jobs, k.id ≠ j.id ∧ ∀ e ∈ k.edges, e.1 ≠ j.id)
    (∀ status addr, j.kind = .settled status addr → status < 16 → ∃ t, exec (.jobComplete c j.id) s = .next t ∧ ended t status ∧ SameMemory s t ∧
      (t.ctx c).cperr = if 2 ≤ status ∧ status ≤ 8 ∧ (s.ctx c).cperr.getLsbD 63 = false then 1#1 ++ j.tag ++ addr.extractLsb' 0 57
        else (s.ctx c).cperr) ∧
    (∀ (a b : Extent) (ss ds : Int) (k l : Nat), j.kind = .copy a b a.va b.va a.len 1 ss ds false → b.len = a.len → a.len ≤ 2 ^ 28 →
      j.started = true → (s.core c).packetJob j.id = none → s.canonical →
      let d := j.cursor.done
      let n := Nat.min (a.len - d) (64 - (b.va + BitVec.ofNat 64 d).toNat % 64)
      let src := (addrs (a.ia + d) n)
      let dst := (addrs (b.ia + d) n)
      d < a.len →
      (∀ x ∈ src, regionOf x = .slice k ∧ s.spdiagOf x = 0 ∧ unitOf x ∉ s.poison ∧ unitOf x ∉ s.fatals) →
      (∀ x ∈ dst, regionOf x = .slice l ∧ s.spdiagOf x = 0 ∧ unitOf x ∉ s.poison ∧ unitOf x ∉ s.fatals) →
      let banks := s.jobTakes c j (src.reverse ++ dst.reverse)
      banks.2 = true → (banks.1.writeReady (.jobComplete c j.id) dst.reverse).2 = true →
      ∃ t, exec (.jobComplete c j.id) s = .next t ∧
        (∀ i < n, Memory.get t.mem (b.ia + d + i) = Memory.get s.mem (a.ia + d + i)) ∧
        (∀ x, x ∉ dst → Memory.get t.mem x = Memory.get s.mem x) ∧ (t.ctx c).cperr = (s.ctx c).cperr ∧
        (d + n = a.len → ended t 0) ∧
        (d + n < a.len → UnderWay t (.jobComplete c j.id) ∧
          ∃ q, (t.ctx c).findJob j.id = some q ∧ q.cursor.done = d + n ∧ q.started = true ∧ q.kind = j.kind))

/-! ### Ordered collectives -/

/-- A pair that its own striker, and no other, keeps. -/
def Sys2Proof.Claims.Keeps (s : State) (g : Group) (index : Nat) (p : Pair) : Prop :=
  s.pair g.number index = some p ∧ p ∈ (s.striker g.striker).pairs ∧
  ∀ e ∈ s.hub.strikers, e.1 ≠ g.striker → ∀ q ∈ e.2.pairs, q.group ≠ g.number

/-- The pair stands at its striker in a state. -/
def Sys2Proof.Claims.Stands (t : State) (g : Group) (index : Nat) (st : PairState) : Prop :=
  ∃ p ∈ (t.striker g.striker).pairs, p.group = g.number ∧ p.index = index ∧ p.state = st

/-- R380, R383, R385 to R387, R389, R390: COLJ counts on its group, enters a collective job and asks the striker for its number. On
a group that is not granted to the task, with a bad descriptor, or where source and destination overlap, its job completes with
status 4, where one does not translate with 1, and still asks, with the failure flag; on a closed group it completes with 10 and
asks nothing. CANJ of a tag without a collective writes 3; else the stream is frozen, beside any other freeze of its bundle, and
the answer is 0 for a pair voided, 1 for one aborted, 2 for one already final. -/
def Obligations.CollectivesIssue : Prop :=
  (∀ (s : State) (tag sg : BitVec 6) (span nt : Bool) (op cls : BitVec 3),
    let w := s.cur.rs (sg + 2)
    let v := s.cur.rs (sg + 3)
    let addr := s.cur.rs (sg + 0)
    let n := getBits w 0 32
    let group := getBits w 32 12
    let fmt := getBits v 0 5
    let red := getBits v 5 3
    let root := getBits v 8 24
    let k := s.nextIndex group s.issue.core
    let i := Instr.colj tag sg span nt op cls
    let bit : Word := BitVec.ofNat 64 (2 ^ tag.toNat)
    let clear := (s.curCtx.tagBusy ||| s.issue.tagsNamed) &&& bit = 0 ∧ s.curCtx.jobs.length + Nat.max 1 s.issue.jobs ≤ 64 ∧ s.cur.cp < 64
    let enters := EntersJob s i tag cls
    let asks := fun (rank : Nat) (f : Bool) => clear → ∃ t, exec i s = .next t ∧ t.nextIndex group s.issue.core = k + 1 ∧
      UnderWay t (.strikeRequest group k rank { op := op.toNat, fmt := fmt, red := red, n := n, root := root, failed := f })
    ((∀ g, s.group group = some g → g.grantedTo s.curCtx = true → s.rankOf g s.issue.core = none) →
      enters span nt (fun k => k = .settled 4 addr)) ∧
    (∀ g rank, s.group group = some g → g.formed = true → g.closed = false → g.grantedTo s.curCtx = false →
      s.rankOf g s.issue.core = some rank → asks rank true) ∧
    (∀ g rank, s.group group = some g → g.grantedTo s.curCtx = true → s.rankOf g s.issue.core = some rank →
      let bad := colBad op.toNat n fmt red root g.ranks.length (getBits w 44 20 ≠ 0 || getBits v 32 32 ≠ 0)
      let sz := colSizes op.toNat n g.ranks.length (rank = root)
      let src := s.extent addr (sz.1 * elemSize fmt) false
      let dst := s.extent (s.cur.rs (sg + 1)) (sz.2 * elemSize fmt) true
      (g.closed = true → enters span nt (fun k => k = .settled 10 0)) ∧
      (g.closed = false → bad = true → enters span nt (fun k => k = .settled 4 addr) ∧ asks rank true) ∧
      (g.closed = false → bad = false → src = none ∨ dst = none → enters span nt (fun k => k = .settled 1 addr) ∧ asks rank true) ∧
      (g.closed = false → bad = false → ∀ a b, src = some a → dst = some b →
        (a.meets b = true → enters span nt (fun k => k = .settled 4 addr) ∧ asks rank true) ∧
        (a.meets b = false → asks rank false ∧ enters span nt (fun q => q = .collective op group k rank g.ranks.length
          (if sz.1 = 0 then none else some a) (if sz.2 = 0 then none else some b) n fmt red root))))) ∧
  (∀ (s : State) (d tag : BitVec 6),
    (s.curCtx.collectiveOn tag = none → Writes (.canj d tag) s 2 d 3) ∧
    (∀ g i, s.curCtx.collectiveOn tag = some (g, i) → ∃ t n, exec (.canj d tag) s = .next t ∧
      t.cur.asking = some { d := d, tag := tag, group := g, index := i } ∧ t.cur.wait = s.cur.wait ∧ (n, .canjAnswer s.issue.core s.issue.sec) ∈ t.agenda ∧ s.now < n ∧ n ≤ s.now + 32000 ∧ SameRegs s.cur t.cur ∧ SameMemory s t)) ∧
  (∀ (s : State) (c : CoreId) (sec : Bool) (d tag : BitVec 6) (group index : Nat) (g : Group), s.group group = some g →
    (s.stream c sec).asking = some { d := d, tag := tag, group := group, index := index } →
    let answers := fun (v : Word) => ∃ t, exec (.canjAnswer c sec) s = .next t ∧ SameMemory s t ∧ (t.stream c sec).asking = none ∧
      SameRegs (s.stream c sec) (t.stream c sec) ∧ (t.stream c sec).wait = (s.stream c sec).wait ∧
      (t.stream c sec).inflight = (s.stream c sec).inflight ++ [{ due := (s.stream c sec).sc + 2, dest := .scalar d v }]
    (s.pair group index = none → answers 0) ∧
    (∀ p, s.pair group index = some p → (p.state = .active → answers 0) ∧ (p.state = .started → answers 1) ∧
      (p.state = .voided ∨ p.state = .aborted ∨ p.state = .completed → answers 2)))

/-- A job of the live context of a core has completed with a status: its tag is DONE (R95). -/
def Sys2Proof.Claims.JobDone (t : State) (c : CoreId) (j : Job) (status : Nat) : Prop :=
  (t.ctx c).findJob j.id = none ∧ (t.ctx c).tags.getLsbD j.tag.toNat = true ∧
  (t.ctx c).tagStatus[j.tag.toNat] = BitVec.ofNat 4 status

/-- A pair has ended in a state with a status, and so has the job of a rank of this device on it (R389). -/
def Sys2Proof.Claims.PairEnded (s t : State) (g : Group) (index : Nat) (st : PairState) (status : Nat) : Prop :=
  (∃ p ∈ (t.striker g.striker).pairs, p.group = g.number ∧ p.index = index ∧ p.state = st ∧ p.status = status) ∧
  (∀ c j, s.pairJobs g.number index = [(c, j.id)] → (s.ctx c).findJob j.id = some j → JobDone t c j status) ∧ SameMemory s t

/-- R381 to R384, R389: the first request numbers a pair with the striker's next number, and is entered once the standby has
acknowledged the number; one that no answer has reached does the same when it is repeated. Once acknowledged, the last agreeing
request sends go, and one that disagrees or carries the failure flag voids the pair, with status 4; go starts it. A cancel voids
a pair not started, and aborts a started one, with status 10; an abort, which a rank that cannot be reached causes as well,
closes the group. The standby continues from the last number that it has acknowledged, without the assignments and marks that it
has not. (When the standby acknowledges is a time that the spec does not promise, assumption 11.) -/
def Sys2Proof.Claims.StrikesNumberAndStart : Prop :=
  ∀ (s : State) (g : Group), s.group g.number = some g →
    let k := s.striker g.striker
    let fresh := fun (t : State) (index rank : Nat) (d : StrikeDesc) =>
      (t.striker g.striker).next = k.next + 1 ∧ (t.striker g.striker).acked = k.acked ∧ SameMemory s t ∧
      ∃ p ∈ (t.striker g.striker).pairs, p.group = g.number ∧ p.index = index ∧ p.strike = k.next ∧ p.state = .active ∧
        p.requests = [] ∧ s.now < p.ackAt ∧ (∀ q ∈ k.pairs, q.ackAt ≤ p.ackAt) ∧ (p.ackAt, .strikeRequest g.number index rank d) ∈ t.agenda
    (∀ index rank d, s.pair g.number index = none → k.outstanding < 2 ^ 30 →
      (rank < g.parties index → ∃ t, exec (.strikeRequest g.number index rank d) s = .next t ∧ fresh t index rank d) ∧
      (s.hub.asked.filter (fun a => a.1 = g.number && a.2.1 = index) = [(g.number, index, rank, d)] →
        ∃ t, exec (.strikeRequestRetry g.number index) s = .next t ∧ fresh t index rank d ∧
          (s.now + 32000, .strikeRequestRetry g.number index) ∈ t.agenda)) ∧
    (∀ index rank d p, Keeps s g index p → p.state = .active → rank < g.parties index →
      let i := Instr.strikeRequest g.number index rank d
      (s.now < p.ackAt → ∃ t, exec i s = .next t ∧ (p.ackAt, i) ∈ t.agenda ∧ t.striker g.striker = k ∧ SameMemory s t) ∧
      (p.ackAt ≤ s.now → (∀ r ∈ p.requests, r.1 ≠ rank) →
        ((∀ r ∈ p.requests, r.2 = d) → d.failed = false → p.requests.length + 1 = g.parties index →
          ∃ t, exec i s = .next t ∧ UnderWay t (.strikeGo g.number index) ∧ SameMemory s t) ∧
        ((∃ r ∈ p.requests, r.2 ≠ d) ∨ d.failed = true → ∃ t, exec i s = .next t ∧ PairEnded s t g index .voided 4))) ∧
    (∀ index p, Keeps s g index p → p.state = .active → p.agreed (g.parties index) = true →
      ∃ t, exec (.strikeGo g.number index) s = .next t ∧ Stands t g index .started ∧ SameMemory s t ∧
        (k.head = some p → ∃ n, (n, .collectiveStart g.striker) ∈ t.agenda)) ∧
    (∀ index, s.pair g.number index = none →
      ∃ t, exec (.strikeCancel g.number index) s = .next t ∧ PairEnded s t g index .voided 10) ∧
    (∀ index rank p, Keeps s g index p →
      let aborts := fun (i : Instr) => ∃ t, exec i s = .next t ∧ PairEnded s t g index .aborted 10 ∧
        (t.group g.number).map (fun q => q.closed) = some true
      (p.state = .active → ∃ t, exec (.strikeCancel g.number index) s = .next t ∧ PairEnded s t g index .voided 10) ∧
      (p.state = .started → aborts (.strikeCancel g.number index)) ∧
      (p.state = .active ∨ p.state = .started → rank < g.parties index → aborts (.rankUnreachable g.number index rank))) ∧
    (∃ t, exec (.strikerTakeover g.striker) s = .next t ∧ (t.striker g.striker).next = k.acked ∧
      (t.striker g.striker).standby = true ∧ SameMemory s t ∧ (∀ p ∈ k.pairs, p.ackAt ≤ s.now → p ∈ (t.striker g.striker).pairs) ∧
      (∀ p ∈ k.pairs, s.now < p.ackAt → p.state = .started → UnderWay t (.strikeGo p.group p.index)) ∧
      ∀ q ∈ (t.striker g.striker).pairs, q.ackAt ≤ s.now ∨ (q.state ≠ .active ∧ q.state ≠ .started))

/-- R311, R382, R386 to R388: the collective engine takes the lowest strike number that has not ended, and nothing while that has
not started, or the standby has not acknowledged that. A barrier completes, and a device whose members have all halted asks for
the next. A collective whose rank of this device is ready reads its source and writes, to each element of its destination, the
element that the operation gives; its job completes with status 0; no other byte of memory changes. (The source and the
destination lie in slices. The model's choices: the whole collective moves in one event, assumption 28, and what the other ranks
hold is free, assumption 32.) One that reads after a failed job aborts its pair, and keeps status 9. -/
def Sys2Proof.Claims.CollectivesRun : Prop :=
  ∀ (s : State) (g : Group) (p : Pair), s.group g.number = some g → (s.striker g.striker).head = some p → p.group = g.number →
    let i := Instr.collectiveStart g.striker
    (p.state ≠ .started → exec i s = .next s) ∧
    (p.state = .started → s.now < p.ackAt → ∃ t, exec i s = .next t ∧ t.striker g.striker = s.striker g.striker ∧ SameMemory s t ∧
      ∃ n, (n, i) ∈ t.agenda) ∧
    (p.state = .started → p.ackAt ≤ s.now → isBarrier p.index = true →
      ∃ t, exec i s = .next t ∧ Stands t g p.index .completed ∧ SameMemory s t ∧
        (g.gone = true → g.closed = false → (t.group g.number).map (fun q => q.barrier) = some (g.barrier + 1) ∧
          ∃ r, UnderWay t (.strikeRequest g.number (2 ^ 32 + (g.barrier + 1)) r
            { op := 6, fmt := 0, red := 0, n := 0, root := 0, failed := false }))) ∧
    (∀ m d a b x k l, p.state = .started → p.ackAt ≤ s.now → isBarrier p.index = false → s.pairJobs p.group p.index = [(m.core, m.id)] →
      s.localRanks p.group p.index = [m] → s.rankReady m = true →
      (s.ctx m.core).findJob m.id = some m.job → p.requests.head? = some (x, d) → m.src = some a → m.dst = some b →
      let e := elemSize d.fmt
      let from_ := addrs a.ia a.len
      let to_ := addrs b.ia b.len
      let len := if d.op = 1 ∨ d.op = 4 then d.n * g.ranks.length else d.n
      let srcs := colSources g [(m.rank, elementsOf (from_.map (Memory.get s.mem)) e)] s.free len (8 * e)
      b.len % e = 0 → s.canonical → (s.writeReady i to_).2 = true → onHost m.job.ends = false → onPeer m.job.ends = false →
      (∀ z ∈ from_, regionOf z = .slice k ∧ s.spdiagOf z = 0 ∧ unitOf z ∉ s.poison ∧ unitOf z ∉ s.fatals) →
      (∀ z ∈ to_, regionOf z = .slice l ∧ s.spdiagOf z = 0 ∧ unitOf z ∉ s.poison ∧ unitOf z ∉ s.fatals) →
      (m.job.depFailed = false → ∃ t, exec i s = .next t ∧ Stands t g p.index .completed ∧ JobDone t m.core m.job 0 ∧
        (∀ q < b.len / e, ∀ j < e, Memory.get t.mem (b.ia + e * q + j) =
          (bytesOfNat e (colElem d.op d.fmt d.red d.root d.n m.rank srcs q)).getD j 0) ∧
        (∀ z, z ∉ to_ → Memory.get t.mem z = Memory.get s.mem z)) ∧
      (m.job.depFailed = true → ∃ t, exec i s = .next t ∧ Stands t g p.index .aborted ∧ JobDone t m.core m.job 9 ∧ SameMemory s t))

/-- R376, R381, R392: when a group rolls back, its striker continues from the number recorded at the checkpoint and keeps only the
pairs that precede it, and the group's ranks and its barriers count from the indices recorded, past the two barriers of the
checkpoint itself (assumption 32); where a member cannot be reached, every task of this device that holds the group is to end.
While the firmware pair restarts, it waits. -/
def Sys2Proof.Claims.GroupsRollBack : Prop :=
  ∀ (s : State) (g : Group), s.group g.number = some g →
    let i := Instr.groupRollback g.number
    let mine := s.tasks.filter (fun t => g.grants.contains t.taskId && t.state ≠ .retired && t.ended.isNone && t.started)
    let back := (mine.filter (fun t => s.canReturn t g.older)).filterMap (fun t => (pick g.older t.checkpoints).map (fun q => (t.key, q.1)))
    (s.restarting = true → ∃ t, exec i s = .next t ∧ (s.now + 1600, i) ∈ t.agenda ∧ t.hub = s.hub ∧ SameMemory s t) ∧
    (∀ m, s.restarting = false → g.reached = true → (s.replayReady i back).2 = true →
      pick g.older (s.hub.marks.filter (fun m => m.group = g.number)) = some m →
      ∃ t, exec i s = .next t ∧ (t.striker g.striker).next = m.next ∧ (t.striker g.striker).acked = m.next ∧
        (∀ q, m.indices.filter (fun q => q.1 = g.number) = [q] →
          (t.group g.number).map (fun x => (x.counts, x.barrier)) = some (q.2.2, q.2.1 + 2)) ∧
        ∀ p ∈ (t.striker g.striker).pairs, serialAhead m.next p.strike = true) ∧
    (∀ q ∈ s.tasks, s.restarting = false → g.reached = false → q.taskId ∈ g.grants → q.state ≠ .retired → q.ended = none →
      q.started = true → ∃ t cause c sec, exec i s = .next t ∧ UnderWay t (.taskEnd q.key cause c sec) ∧ SameMemory s t)

/-- R388: a reduction combines neighbours level by level, an odd one passing up: the order of the additions is fixed by the
number of ranks alone; an integer sum wraps in its format; all-gather, broadcast and all-to-all place elements by rank. -/
def Sys2Proof.Claims.ReductionOrder : Prop :=
  ∀ (f red a b c d e : Nat) (l : List Nat) (srcs : List (List Nat)) (n rank i root : Nat),
    let p := combine f red
    reduceTree f red 25 [a] = a ∧ reduceTree f red 25 [a, b] = p a b ∧ reduceTree f red 25 [a, b, c] = p (p a b) c ∧
    reduceTree f red 25 [a, b, c, d] = p (p a b) (p c d) ∧ reduceTree f red 25 [a, b, c, d, e] = p (p (p a b) (p c d)) e ∧
    (8 ≤ f → f ≤ 15 → combine f 0 a b = (a + b) % 2 ^ fmtWidth f) ∧
    (8 ≤ f → f ≤ 15 → l ≠ [] → l.length ≤ 2 ^ 24 → (∀ x ∈ l, x < 2 ^ fmtWidth f) →
      reduceTree f 0 25 l = (l.foldl (fun x y => x + y) 0) % 2 ^ fmtWidth f) ∧
    colElem 2 f red root n rank srcs i = (srcs.getD (i / n) []).getD (i % n) 0 ∧
    colElem 3 f red root n rank srcs i = (srcs.getD root []).getD i 0 ∧
    colElem 4 f red root n rank srcs i = (srcs.getD (i / n) []).getD (rank * n + i % n) 0

/-! ### Tasks and swaps -/

/-- A context comes back from its save area as it was, but for what the archivist read there (R333, R362). -/
structure Sys2Proof.Claims.Returns (x y : Ctx) : Prop where
  prim : SameRegs x.prim y.prim ∧ y.prim.pc = x.prim.pc
  sec : SameRegs x.sec y.sec ∧ y.sec.pc = x.sec.pc
  masks : ∀ n, y.rm n = x.rm n
  streams : ∀ n, y.rstr n = x.rstr n
  win : y.win = x.win
  tags : y.tags = x.tags ∧ y.tagBusy = x.tagBusy
  work : y.jobs = x.jobs ∧ y.tiles = x.tiles

/-- R326, R332, R334 to R336, R338, R360, R361, R394: a READY task that nothing comes before is placed; then its contexts are staged
in the shadow banks of its cores, and idle ones on the other cores of the tasks that make way; a core above its temperature has it
placed again. With every bank staged the swap makes its contexts live in one cycle, moves those of the tasks that make way into
the banks, to be spilled, and starts the slice transfers; until then, and while a core is too hot, it is tried again. The primary
is held in a cycle once a secondary has waited fifteen times; a tick reads the reservations again, after a restart of the
firmware's pair. -/
def Obligations.TasksArePlaced : Prop :=
  (∀ (s : State) (q : Task) (cores : List CoreId), s.task q.key = some q → q.state = .ready → q.ended = none →
    s.restarting = false → s.hub.devstat.getLsbD 1 = false → s.agenda.any (fun e => e.2 = .contextStage q.key) = false →
    (∀ u ∈ s.tasks, u.state = .ready → u.before q = true → s.placement u = none) → s.placement q = some cores →
    ∃ t, exec (.taskPlace q.key) s = .next t ∧ t.task q.key = some { q with cores := cores } ∧ UnderWay t (.contextStage q.key) ∧
      SameMemory s t) ∧
  (∀ (s : State) (q : Task), s.task q.key = some q → q.state = .ready → q.ended = none → s.restarting = false → q.cores.Nodup →
    ((∃ c ∈ q.cores, (s.core c).tooHot = true) → ∃ t, exec (.contextStage q.key) s = .next t ∧ UnderWay t (.taskPlace q.key) ∧
      t.cores = s.cores ∧ SameMemory s t) ∧
    ((∀ c ∈ q.cores, (s.core c).tooHot = false) → (∀ c ∈ s.swapCores q, (s.core c).bank = .empty) →
    ∃ t, exec (.contextStage q.key) s = .next t ∧ UnderWay t (.schedulerSwap q.key) ∧ SameMemory s t ∧
      (t.task q.key).map (fun u => (u.state, u.cores, u.saved)) = some (.staged, q.cores, []) ∧
      ∀ c ∈ s.swapCores q, (t.core c).bank = .staged ∧ (t.core c).ctx = (s.core c).ctx ∧
        (c ∉ q.cores → (t.core c).shadow = Ctx.reset) ∧
        (c ∈ q.cores → q.started = false → (t.core c).shadow = (s.core c).startCtx q) ∧
        (∀ x, c ∈ q.cores → q.started = true → aget q.saved c.val = some x → Returns x (t.core c).shadow))) ∧
  (∀ (s : State) (q : Task), s.task q.key = some q → q.state = .staged → s.restarting = false → q.cores.Nodup →
    (∀ c ∈ q.cores, s.swappedIn q c = false) →
    ((∃ c ∈ s.swapCores q, (s.core c).bank ≠ .staged) ∨ (∃ c ∈ q.cores, (s.core c).tooHot = true) →
      ∃ t, exec (.schedulerSwap q.key) s = .next t ∧ (s.now + 16, .schedulerSwap q.key) ∈ t.agenda ∧ SameMemory s t) ∧
    ((∀ h ∈ s.victims q, s.draining h = false ∧ h.copying = 0) → (∀ c ∈ q.cores, (s.core c).tooHot = false) →
      (∀ c ∈ s.swapCores q, (s.core c).bank = .staged ∧ (s.core c).bankFor = some (q.key, decide (c ∉ q.cores))) →
      ∃ t, exec (.schedulerSwap q.key) s = .next t ∧ SameMemory s t ∧
        (t.task q.key).map (fun u => (u.state, u.started)) = some (.running, true) ∧
        (∀ h ∈ s.victims q, (t.task h.key).map (fun u => u.state) = some .ready) ∧
        (∀ c ∈ s.swapCores q, (t.core c).live = decide (c ∈ q.cores) ∧ (t.core c).swapEnd = s.now + 32 ∧ (t.core c).sliceBusy = true ∧
          (t.core c).bank = (if (s.core c).live then .spilling else .empty) ∧ UnderWay t (.sliceTransferEnd c) ∧
          (c ∈ q.cores → SameRegs (s.core c).shadow.prim (t.stream c false) ∧ (t.ctx c).win = (s.core c).shadow.win) ∧
          ((s.core c).live = true → (s.core c).endWrites = [] → UnderWay t (.spillComplete c) ∧
            SameRegs (s.stream c false) (t.core c).shadow.prim ∧ (t.core c).shadow.win = (s.ctx c).win)) ∧
        (q.started = false → ∀ c ∈ q.cores, (t.core c).ox = ((s.core c).ox + 37) % 128 ∧
          (t.core c).oy = ((s.core c).oy + 53) % 192))) ∧
  (∀ (s : State) (c : CoreId), (s.stream c true).waitCount = 15 →
    ∃ t, exec (.mergeWaitLimit c) s = .next t ∧ (t.core c).primHeld = true ∧ SameCtx (s.ctx c) (t.ctx c) ∧
      (∀ b, t.stream c b = s.stream c b) ∧ SameMemory s t) ∧
  (∀ s : State, s.restarting = true → ∃ t, exec .reservationTick s = .next t ∧ (s.now + 1600, .reservationTick) ∈ t.agenda ∧
    t.hub = s.hub ∧ SameMemory s t) ∧
  (∀ s : State, s.restarting = false → ∃ t, exec .reservationTick s = .next t ∧ SameMemory s t ∧ ∀ i : Fin 16, t.hub.reservations[i] =
    if i.val = 0 then 0 else BitVec.ofNat 512 (natOfBytes (Memory.bytes s.mem (0x10000 + 64 * i.val) 64)))

/-- R73, R79, R326, R335, R337, R362 to R364: a spill that is ready, and whose area the host does not hold, writes its image, the
header with COMPLETE last, keeps the context for its task, and frees the bank; a place of its area that is absent or poisoned stops
it, and the fault holds the bank, raises vector 0 and reports the line. Out of a restart of its pair, the firmware starts the
spill again from where it stopped, or swaps the held context in on its core. The drain of the cube ends. A slice transfer waits
for the spill; it goes part by part, saving and restoring exactly the bytes of a task's part of the slice (no word of it reading
otherwise than it is stored), and writing zeros; it ends after the last part, is stopped by an absent share in the same way, and
is started again. Before another queue's task runs, all that was written in the slice is restored over or zeroed. The model's
choices: where the save areas lie (assumptions 7, 18), that a poisoned line of an area stops a spill as an absent one does
(assumption 79), and that a held context that comes back waits for the tasks in its way to have nothing outstanding
(assumption 22). -/
def Obligations.SpillsAndSlices : Prop :=
  (∀ (s : State) (c : CoreId), (s.core c).bank = .spilling →
    let k := s.core c
    let area := k.saveArea
    let from_ := (k.spill.map (fun w => w.2)).getD imageStart
    let outside := fun (t : State) => s.canonical → ∀ a, (a < area ∨ area + 0x200000 ≤ a) → Memory.get t.mem a = Memory.get s.mem a
    (k.spillReady = false → ∃ t, exec (.spillComplete c) s = .next t ∧ (s.now + 1, .spillComplete c) ∈ t.agenda ∧
      t.cores = s.cores ∧ SameMemory s t) ∧
    (k.spillReady = true → (s.archiveReady (.spillComplete c) area 0x200000).2 = false →
      ∃ t, exec (.spillComplete c) s = .next t ∧ (s.now + 1, .spillComplete c) ∈ t.agenda ∧ t.cores = s.cores ∧ SameMemory s t) ∧
    (k.spillReady = true → (s.archiveReady (.spillComplete c) area 0x200000).2 = true → s.spillStop area from_ = none →
      ∃ t, exec (.spillComplete c) s = .next t ∧ (t.core c).bank = .empty ∧ outside t ∧
        (∀ q, k.bankByTask = false → s.task k.shadow.task = some q →
          (t.task q.key).bind (fun u => aget u.saved c.val) = some k.shadow) ∧
        (k.spill = none → s.canonical →
          natOfBytes (Memory.bytes t.mem area 4) = 0x58415653 ∧ natOfBytes (Memory.bytes t.mem (area + 6) 2) % 2 = 1)) ∧
    (∀ p, k.spillReady = true → (s.archiveReady (.spillComplete c) area 0x200000).2 = true → s.spillStop area from_ = some p →
      ∃ t, exec (.spillComplete c) s = .next t ∧ (t.core c).bank = .spilling ∧ outside t ∧
        UnderWay t (.saveAreaFault c (k.saveVa + BitVec.ofNat 64 (p % 0x200000)))) ∧
    (∀ va, ∃ t, exec (.saveAreaFault c va) s = .next t ∧ (t.core c).bank = .held ∧ .saveArea c va ∈ t.hub.reports ∧
      tget 0 t.hub.msix 0 = tget 0 s.hub.msix 0 + 1 ∧ (t.core c).ctx = k.ctx ∧ SameMemory s t)) ∧
  (∀ (s : State) (c : CoreId), s.restarting = true →
    ∃ t, exec (.spillRestart c) s = .next t ∧ (s.now + 1600, .spillRestart c) ∈ t.agenda ∧ t.cores = s.cores ∧ SameMemory s t) ∧
  (∀ (s : State) (c : CoreId) (p : XferPart) (r : List XferPart), (s.core c).bank ≠ .held → (s.core c).xferHeld = true →
    s.restarting = false → (s.core c).xfer = some (p :: r) → ∃ t, exec (.spillRestart c) s = .next t ∧ (t.core c).xferHeld = false ∧
      (t.core c).xfer = some (p :: r) ∧ (s.now + (p.hi - p.lo), .sliceTransferEnd c) ∈ t.agenda) ∧
  (∀ (s : State) (c : CoreId), (s.core c).bank = .held → s.restarting = false →
    (∃ t, exec (.spillRestart c) s = .next t ∧ (t.core c).bank = .spilling ∧ (t.core c).spill = (s.core c).spill ∧
      UnderWay t (.spillComplete c)) ∧
    (∀ q, s.task (s.core c).shadow.task = some q → (∀ m ∈ q.cores, (s.core m).tooHot = false) →
      (∀ m ∈ q.cores, (s.core m).bank = .spilling → (s.core m).shadow.task ≠ q.key) →
      ((s.inWay q).all s.settled = true → ∃ t, exec (.heldContextSwapIn c) s = .next t ∧ (t.core c).live = true ∧
        (t.core c).bank = .empty ∧ SameRegs (s.core c).shadow.prim (t.stream c false) ∧
        SameRegs (s.core c).shadow.sec (t.stream c true) ∧ (t.ctx c).win = (s.core c).shadow.win ∧
        (t.task q.key).map (fun u => u.state) = some .running) ∧
      ((s.inWay q).all s.settled = false → ∃ t, exec (.heldContextSwapIn c) s = .next t ∧
        (s.now + 1, .heldContextSwapIn c) ∈ t.agenda ∧ (t.core c).bank = .held ∧ SameMemory s t))) ∧
  (∀ (s : State) (c : CoreId), ∃ t, exec (.cubeSwapDrainEnd c) s = .next t ∧ (t.core c).cubeDrain = false ∧
    (t.core c).ctx = (s.core c).ctx ∧ SameMemory s t) ∧
  (∀ (s : State) (c : CoreId), (s.core c).sliceBusy = true → (s.core c).xferHeld = false →
    let i := Instr.sliceTransferEnd c
    let goes := fun (t : State) (r : List XferPart) =>
      (r = [] → (t.core c).sliceBusy = false) ∧
      (∀ p q, r = p :: q → (t.core c).xfer = some r ∧ (s.now + (p.hi - p.lo), i) ∈ t.agenda)
    ((s.core c).bank = .spilling ∨ (s.core c).bank = .held →
      ∃ t, exec i s = .next t ∧ (s.now + 1, i) ∈ t.agenda ∧ t.cores = s.cores ∧ SameMemory s t) ∧
    ((s.core c).bank ≠ .spilling → (s.core c).bank ≠ .held →
      ((s.core c).xfer = none → ∃ t, exec i s = .next t ∧ goes t (s.xferParts c) ∧ SameMemory s t) ∧
      ((s.core c).xfer = some [] → ∃ t, exec i s = .next t ∧ (t.core c).sliceBusy = false ∧ SameMemory s t ∧
        ∀ q, s.holder c = some q → (s.core c).sliceTask ≠ some q.key →
          (t.core c).sliceTask = some q.key ∧ (t.core c).lastQueue = q.queue) ∧
      (∀ p r, (s.core c).xfer = some (p :: r) →
        let slice := sliceBase c.val + 1024 * p.lo
        let area := sliceArea (s.placeOf p.task) c + 1024 * p.lo
        let n := 1024 * (p.hi - p.lo)
        let ends := fun (f : Nat → Byte) (lo : Nat) => ∃ t, exec i s = .next t ∧ goes t r ∧
          ∀ a, Memory.get t.mem a = if lo ≤ a ∧ a < lo + n then f (a - lo) else Memory.get s.mem a
        (∀ o, s.xferStop c p = some o → ∃ t, exec i s = .next t ∧
          UnderWay t (.saveAreaFault c (BitVec.ofNat 64 (sliceArea (s.placeOf p.task) c + 1024 * o)))) ∧
        (s.xferStop c p = none → s.canonical → p.lo ≤ p.hi →
          (p.kind = .save → s.oddWords slice (slice + n) = [] → ends (fun x => Memory.get s.mem (slice + x)) area) ∧
          (p.kind = .restore → ends (fun x => Memory.get s.mem (area + x)) slice) ∧
          (p.kind = .zero → ends (fun _ => 0) slice)))) ∧
    (∀ va, (s.core c).bank ≠ .spilling → (s.core c).xfer.isSome = true → ∃ t, exec (.saveAreaFault c va) s = .next t ∧
      (t.core c).xferHeld = true ∧ .saveArea c va ∈ t.hub.reports ∧ SameMemory s t)) ∧
  (∀ (s : State) (c : CoreId) (q : Task) (n : Nat), s.holder c = some q → (s.core c).sliceTask ≠ some q.key →
    (s.core c).lastQueue ≠ q.queue → n < Nat.max (q.need / 1024) (((s.core c).highWater + 1023) / 1024) →
    ∃ p ∈ s.xferParts c, (p.kind = .zero ∨ p.kind = .restore) ∧ p.task = q.key ∧ p.lo ≤ n ∧ n < p.hi)

/-- No write of the firmware waits for the host, the host holds no line of the device, and no atomic is between its read and its
write: what the firmware writes is applied at once (R79, R207). -/
def Sys2Proof.Claims.HostQuiet (s : State) : Prop :=
  s.hub.fwWrites = [] ∧ s.hub.hlstat.getLsbD 9 = false ∧ ∀ o ∈ s.allOps, o.half = none

/-- R326, R333, R337, R354, R371, R374 to R377: a task whose streams have halted drains, and one that has drained retires and
its packet is answered; a task that the firmware ends stops on every core and drains with its cause; a task that can is
rolled back, once its lines may be written: its contexts become those of its newest checkpoint, with RB set, the lines written
since have their logged contents again, the oldest entry of a line last, its slices hold zeros, and every other byte is
unchanged; or its group is asked; one that cannot is ended; while the firmware restarts a report is held; a retired die leaves
the catalogue, and fewer than 16 working dies leave 15 layers or none. -/
def Obligations.TasksEndAndRollBack : Prop :=
  (∀ (s : State) (q : Task), s.task q.key = some q →
    (s.taskHalted q = true → ∃ t, exec (.taskRetire q.key) s = .next t ∧ t.task q.key = some { q with state := .draining } ∧
      SameMemory s t) ∧
    (s.taskDone q = true → HostQuiet s → ∀ p, s.packet q.packet = some p → ∃ t, exec (.taskRetire q.key) s = .next t ∧
      (t.task q.key).map (fun u => u.state) = some .retired ∧ (t.packet q.packet).map (fun u => u.state) = some .completed ∧
      tget 0 t.hub.msix (16 + p.queue) = tget 0 s.hub.msix (16 + p.queue) + 1 ∧
      ∀ c ∈ q.cores, (s.core c).live = true → (s.ctx c).task = q.key → (t.core c).live = false) ∧
    (∀ cause core sec, q.state ≠ .retired → q.ended = none →
      (s.restarting = false → ∃ t, exec (.taskEnd q.key cause core sec) s = .next t ∧ SameMemory s t ∧
        (t.task q.key).map (fun u => (u.state, u.ended)) = some (.draining, some (cause, core, sec)) ∧
        ∀ c, (s.core c).live = true → (s.ctx c).task = q.key → (t.stream c false).live = false ∧ (t.stream c true).live = false) ∧
      (s.restarting = true → ∃ t, exec (.taskEnd q.key cause core sec) s = .next t ∧ SameMemory s t ∧
        t.hub.heldReports = s.hub.heldReports ++ [.taskEnd q.key cause core sec])) ∧
    (q.state ≠ .retired → q.ended = none →
      (s.restarting = true → ∃ t, exec (.rollback q.key) s = .next t ∧ t.hub.heldReports = s.hub.heldReports ++ [.rollback q.key] ∧
        SameMemory s t) ∧
      (s.restarting = false → s.canRollBack q = false → ∃ t cause core sec, exec (.rollback q.key) s = .next t ∧
        UnderWay t (.taskEnd q.key cause core sec) ∧ SameMemory s t) ∧
      (∀ g, s.restarting = false → s.canRollBack q = true → q.checkpointGroup = some g →
        (s.group g).all (fun p => p.rewind.isNone) = true →
        ∃ t, exec (.rollback q.key) s = .next t ∧ UnderWay t (.groupRollback g) ∧ SameMemory s t) ∧
      (∀ icnt xs r, s.restarting = false → s.canRollBack q = true → q.checkpointGroup = none → q.checkpoints = (icnt, xs) :: r →
        (s.replayReady (.rollback q.key) [(q.key, icnt)]).2 = false → ∃ t, exec (.rollback q.key) s = .next t ∧
          (s.now + 1, .rollback q.key) ∈ t.agenda ∧ SameMemory s t) ∧
      (∀ icnt xs r, s.restarting = false → s.canRollBack q = true → q.checkpointGroup = none → q.checkpoints = (icnt, xs) :: r →
        (s.replayReady (.rollback q.key) [(q.key, icnt)]).2 = true → s.canonical → q.saved = [] →
        (∀ c ∈ q.cores, (s.core c).live = true ∧ (s.ctx c).task = q.key) →
        (∀ e ∈ s.toReplay q.key icnt, e.old.length = 64 ∧ e.line % 64 = 0 ∧ regionOf e.line = .pkg) →
        ∃ t, exec (.rollback q.key) s = .next t ∧ ∀ a, Memory.get t.mem a =
          if ∃ c ∈ q.cores, sliceBase c.val ≤ a ∧ a < sliceBase c.val + sliceBytes then 0
          else match (s.toReplay q.key icnt).reverse.find? (fun e => e.line ≤ a && a < e.line + 64) with
            | some e => e.old.getD (a - e.line) 0
            | none => Memory.get s.mem a) ∧
      (∀ icnt xs r, s.restarting = false → s.canRollBack q = true → q.checkpointGroup = none → q.checkpoints = (icnt, xs) :: r →
        (s.replayReady (.rollback q.key) [(q.key, icnt)]).2 = true →
        ∃ t, exec (.rollback q.key) s = .next t ∧ ∀ c x, (s.core c).live = true → (s.ctx c).task = q.key →
          aget xs c.val = some x → getBits (t.ctx c).chk 4 17 = icnt % 2 ^ 17 ∧ (t.ctx c).chk.getLsbD 2 = true ∧
            (t.ctx c).chk.getLsbD 3 = false ∧ (∀ n, (t.stream c false).rs n = x.prim.rs n) ∧
            (t.stream c false).snap = s.now ∧ (t.stream c false).own = []))) ∧
  (∀ (s : State) (c : CoreId) (die : Nat) (works : Bool), s.restarting = true → ∃ t, exec (.dieRetire c die works) s = .next t ∧
    (s.now + 1600, .dieRetire c die works) ∈ t.agenda ∧ t.cores = s.cores ∧ SameMemory s t) ∧
  (∀ (s : State) (c : CoreId) (die : Nat) (works : Bool), die < 17 → s.restarting = false →
    (∀ q ∈ s.tasks, q.state = .running → q.copying = 0 ∧ ∀ m ∈ s.liveOn q.key, (s.core m).bank = .empty) →
    (s.replayReady (.dieRetire c die works) ((s.tasks.filter (fun t => t.cores.contains c && t.started && t.state ≠ .retired &&
      t.ended.isNone && s.canRollBack t && t.checkpointGroup.isNone)).filterMap (fun t =>
        t.checkpoints.head?.map (fun q => (t.key, q.1))))).2 = true →
    ∃ t, exec (.dieRetire c die works) s = .next t ∧
      let k := t.core c
      let left := (List.range 17).filter (fun d => !k.failedDies.getLsbD d)
      k.failedDies.getLsbD die = true ∧ (∀ d, (s.core c).failedDies.getLsbD d = true → k.failedDies.getLsbD d = true) ∧
      (works = true → ∀ d, d ≠ die → k.failedDies.getLsbD d = (s.core c).failedDies.getLsbD d) ∧
      k.layers = (if 16 ≤ left.length then 0xFFFF else if left.length = 15 then 0x7FFF else 0) ∧
      k.usable = decide (15 ≤ left.length) ∧
      ∀ i : Fin 16, i.val < left.length → k.catalogue[i] = BitVec.ofNat 5 (left.getD i.val 0))

/-! ### Queues and packets -/

/-- A packet may start, no access of it is under way, and none that may start comes before it (R323). -/
def Sys2Proof.Claims.Next (s : State) (p : Packet) : Prop :=
  s.packet p.key = some p ∧ p.state = .waiting ∧ p.access = none ∧ s.mayBegin p = true ∧ s.serving = true ∧
  s.firstReady.map (fun q => q.key) = some p.key

/-- A packet may begin and its common fields are right (R322 to R324). -/
def Sys2Proof.Claims.MayBegin (s : State) (p : Packet) (kind : Nat) : Prop :=
  Next s p ∧ p.kind = kind ∧ p.firstBad = none ∧ p.prio.toNat ≤ s.descField p.queue 0x12 1

/-- A packet is completed, and the vector of its queue raised where the host holds nothing (R79, R81, R324). -/
def Sys2Proof.Claims.Ended (s t : State) (p : Packet) : Prop :=
  (t.packet p.key).map (fun q => q.state) = some .completed ∧
  (HostQuiet s → tget 0 t.hub.msix (16 + p.queue) = tget 0 s.hub.msix (16 + p.queue) + 1)

/-- n bytes as the firmware reads them: the newest, and those that it has written and that still wait for the host (R79). -/
def Sys2Proof.Claims.firmwareSees (t : State) (a n : Nat) : Nat := natOfBytes ((addrs a n).map t.firmwareByte)

/-- The completion entry of a packet: its serial number, STATUS, TYPE, CODE and INFO stand at its place of the queue's
completion ring, and where the host holds nothing no other byte of memory has changed (R79, R324). -/
def Sys2Proof.Claims.Entry (s t : State) (p : Packet) (status : Nat) (code info : BitVec 32) : Prop :=
  let e := s.descField p.queue 0x08 8 + 16 * (p.serial.toNat % 2 ^ s.ringLog p.queue)
  s.canonical → e + 16 ≤ 2 ^ 48 →
    firmwareSees t e 4 = p.serial.toNat ∧ firmwareSees t (e + 4) 2 = status % 65536 ∧ firmwareSees t (e + 6) 2 = p.kind ∧
    firmwareSees t (e + 8) 4 = code.toNat ∧ firmwareSees t (e + 12) 4 = info.toNat ∧
    (HostQuiet s → ∀ a, (a < e ∨ e + 16 ≤ a) → Memory.get t.mem a = Memory.get s.mem a)

/-- The event ends the packet with a status, CODE and INFO. -/
def Sys2Proof.Claims.Answers (i : Instr) (s : State) (p : Packet) (status : Nat) (code info : BitVec 32) : Prop :=
  ∃ t, exec i s = .next t ∧ Ended s t p ∧ Entry s t p status code info

/-- R82, R83, R319 to R321, R323 to R326: a doorbell of 4 bytes at offset 0 that is serially ahead moves the latch; its descriptor
is read at once, and the queue consumed within 3 µs where it is valid, or ignored with vector 1 where it is not; a gated device
wakes within 40 µs, and then serves every valid queue that was rung or stands behind its latch. Any other doorbell does
nothing, nor does one in recovery mode. The packet at CONS, once published, is taken with its 64 bytes, and CONS moves on; an unpublished one is read again
10 µs later. A waiting packet of a device that does not serve queues tries again; of two that may start the more urgent is
taken first; the first that is taken ends with status 1 and the offset where a field is bad, and with 2 where its priority is
above the queue's. -/
def Obligations.QueuesAreConsumed : Prop :=
  (∀ (s : State) (q off size tail : Nat), twf 0 s.hub.latches = true →
    let i := Instr.doorbellWrite q off size tail
    let soon := fun (t : State) => (∀ e ∈ s.agenda, e.2 ≠ .packetConsume q) →
      ∃ n, (n, .packetConsume q) ∈ t.agenda ∧ s.now < n ∧ n ≤ s.now + 2400
    (s.hub.bootstat.getLsbD 5 = true → Nothing i s) ∧
    (s.hub.bootstat.getLsbD 5 = false → q < 1024 → off = 0 → size = 4 → serialAhead (BitVec.ofNat 32 tail) (tget 0 s.hub.latches q) = true →
      ∃ t n, exec i s = .next t ∧ tget 0 t.hub.latches q = BitVec.ofNat 32 tail ∧ (q, BitVec.ofNat 32 tail, n) ∈ t.hub.bells ∧
        SameMemory s t ∧
        (s.serving = true → s.descOk q = true → q ∉ t.hub.ignored ∧ soon t) ∧
        (s.serving = true → s.descOk q = false → q ∈ t.hub.ignored ∧ tget 0 t.hub.msix 1 = tget 0 s.hub.msix 1 + 1) ∧
        (s.serving = false → q ∈ t.hub.rung) ∧
        (s.hub.devstat.getLsbD 1 = true → (∀ e ∈ s.agenda, e.2 ≠ .wakeComplete) →
          ∃ n, (n, .wakeComplete) ∈ t.agenda ∧ s.now < n ∧ n ≤ s.now + 64000)) ∧
    (1024 ≤ q ∨ off ≠ 0 ∨ size ≠ 4 ∨ serialAhead (BitVec.ofNat 32 tail) (tget 0 s.hub.latches q) = false → Nothing i s)) ∧
  (∀ s : State, s.hub.devstat.getLsbD 1 = true → ∃ t, exec .wakeComplete s = .next t ∧ SameMemory s t ∧
    (∀ i < 64, t.hub.devstat.getLsbD i = (s.hub.devstat.getLsbD i && i != 1)) ∧
    (t.serving = true → ∀ q < 1024, s.descOk q = true → (q ∈ s.hub.rung ∨ q ∉ s.hub.ignored) →
      serialAhead (tget 0 s.hub.latches q) (s.cons q) = true → ∃ n, (n, .packetConsume q) ∈ t.agenda)) ∧
  (∀ (s : State) (q : Nat) (i : Instr), i = .packetConsume q ∨ i = .packetPoll q → q < 1024 → s.serving = true → q ∉ s.hub.ignored →
    s.descOk q = true → serialAhead (tget 0 s.hub.latches q) (s.cons q) = true →
    (s.published q = true → ∃ t p, exec i s = .next t ∧ t.hub.packets = s.hub.packets ++ [p] ∧ p.queue = q ∧ p.serial = s.cons q ∧
      p.state = .waiting ∧ p.bits = BitVec.ofNat 512 (firmwareSees s (s.packetAt q (s.cons q)) 64) ∧
      (s.canonical → t.cons q = s.cons q + 1) ∧
      (s.canonical → HostQuiet s → ∀ a, (a < 64 * q + 0x14 ∨ 64 * q + 0x18 ≤ a) → Memory.get t.mem a = Memory.get s.mem a) ∧
      (serialAhead (tget 0 s.hub.latches q) (s.cons q + 1) = true → ∃ n, (n, .packetConsume q) ∈ t.agenda)) ∧
    (s.published q = false → ∃ t, exec i s = .next t ∧ t.hub.packets = s.hub.packets ∧ SameMemory s t ∧
      ((∀ e ∈ s.agenda, e.2 ≠ .packetPoll q) → (s.now + 16000, .packetPoll q) ∈ t.agenda))) ∧
  (∀ (s : State) (p : Packet), s.packet p.key = some p → p.state = .waiting → p.access = none → s.mayBegin p = true →
    (s.serving = false → ∃ t, exec p.startEvent s = .next t ∧ (s.now + 1600, p.startEvent) ∈ t.agenda ∧ SameMemory s t) ∧
    (∀ e, s.serving = true → s.firstReady = some e → e.key ≠ p.key → ∃ t, exec p.startEvent s = .next t ∧
      (s.now, e.startEvent) ∈ t.agenda ∧ (s.now, p.startEvent) ∈ t.agenda ∧ t.hub.packets = s.hub.packets ∧ SameMemory s t) ∧
    (∀ o, Next s p → p.firstBad = some o → Answers p.startEvent s p 1 0 (BitVec.ofNat 32 o)) ∧
    (Next s p → p.firstBad = none → s.descField p.queue 0x12 1 < p.prio.toNat → Answers p.startEvent s p 2 0 0))

/-- R324, R327 to R332: an invoke of a loaded slot with its version and buffers makes one READY task that starts at the slot's
entry, privileged only when the slot asks for it, is signed, and the queue permits it, with the bases of its windows in s1 to
s8; else status 3 or 4. A load makes an EMPTY slot LOADING and ends, once its sections may be written, in LOADED, or EMPTY with
the failed check's status or for want of frames (assumption 72); an unload ends once no task of the slot is left. -/
def Sys2Proof.Claims.SlotPackets : Prop :=
  ∀ (s : State) (p : Packet),
    let g := s.slot p.slot
    (MayBegin s p 1 →
      let good := g.state = .loaded ∧ g.version.toNat = p.field 0x0A 2 ∧ g.bufMask = p.field 0x14 1
      (¬good → Answers (.invokePacket p.key) s p 3 0 (BitVec.ofNat 32 g.state.code)) ∧
      (∀ w, good → badBuffer (g.winOf p) = some w → Answers (.invokePacket p.key) s p 4 0 (BitVec.ofNat 32 w)) ∧
      (good → badBuffer (g.winOf p) = none → ∃ (t : State) (q : Task) (n : Nat), exec (.invokePacket p.key) s = .next t ∧ SameMemory s t ∧
        t.tasks = s.tasks ++ [q] ∧ q.state = .ready ∧ q.started = false ∧ q.taskId = BitVec.ofNat 32 (p.field 0x10 4) ∧
        q.prio = p.prio ∧ q.n = p.field 0x0C 1 % 16 ∧ q.shape = BitVec.ofNat 2 (p.field 0x0C 1 / 16) ∧ q.cores = [] ∧
        q.queue = some p.queue ∧ q.seq = p.serial ∧ q.scratch = g.scratch ∧ (n, .taskPlace q.key) ∈ t.agenda ∧
        (t.packet p.key).map (fun u => u.state) = some .started ∧ q.start.prim.pc = g.entry.extractLsb' 5 59 ∧
        q.start.prim.live = true ∧
        q.start.prim.priv = (g.privreq && g.signed && (s.descField p.queue 0x11 1).testBit 1) ∧
        (∀ (i : Nat) (w : SlotWindow), i < 8 → (g.winOf p)[i]? = some w → w.kind ≠ 0 →
          q.start.prim.rs (BitVec.ofNat 6 (i + 1)) = w.vbase <<< 16))) ∧
    (MayBegin s p 2 →
      (g.state ≠ .empty → Answers (.loadSlotPacket p.key) s p 10 0 (BitVec.ofNat 32 g.state.code)) ∧
      (g.state = .empty → ∃ t q, exec (.loadSlotPacket p.key) s = .next t ∧ (t.slot p.slot).state = .loading ∧
        UnderWay t (.loadSlotComplete p.key) ∧ t.packet p.key = some q ∧ q.state = .started ∧ SameMemory s t ∧
        (∀ o, s.imageBad (p.field 0x10 8) (p.field 0x18 8) = some o → o < 2 ^ 32 → q.last = BitVec.ofNat 64 (5 * 2 ^ 32 + o)))) ∧
    (s.packet p.key = some p → p.state = .started → p.kind = 2 → s.restarting = false →
      (p.last ≠ 0 → (∃ t, exec (.loadSlotComplete p.key) s = .next t ∧ (t.slot p.slot).state = .empty) ∧
        Answers (.loadSlotComplete p.key) s p (p.last >>> 32).toNat 0 (p.last.setWidth 32)) ∧
      let r := s.sectionsReady (.loadSlotComplete p.key) (s.placeImage (p.field 0x10 8)).2
      (p.last = 0 → r.2 = false → ∃ t, exec (.loadSlotComplete p.key) s = .next t ∧
        (s.now + 1, .loadSlotComplete p.key) ∈ t.agenda ∧ SameMemory s t) ∧
      (p.last = 0 → r.2 = true → ∃ t, exec (.loadSlotComplete p.key) s = .next t ∧ Ended s t p ∧
        (if framesHeld (r.1.placeImage (p.field 0x10 8)) = true then (t.slot p.slot).state = .loaded ∧
          (t.slot p.slot).version = BitVec.ofNat 16 (p.field 0x0A 2) ∧ (t.slot p.slot).windows.length = 8
        else (t.slot p.slot).state = .empty))) ∧
    (MayBegin s p 3 →
      (g.state ≠ .loaded ∨ g.version.toNat ≠ p.field 0x0A 2 → Answers (.unloadSlotPacket p.key) s p 3 0 (BitVec.ofNat 32 g.state.code)) ∧
      (g.state = .loaded → g.version.toNat = p.field 0x0A 2 → ∃ t, exec (.unloadSlotPacket p.key) s = .next t ∧
        (t.slot p.slot).state = .unloading ∧ (t.packet p.key).map (fun u => u.state) = some .started ∧
        (s.slotBusy p.slot = false → UnderWay t (.unloadSlotComplete p.key)) ∧ SameMemory s t)) ∧
    (s.packet p.key = some p → p.state = .started → p.kind = 3 → s.restarting = false → s.slotBusy p.slot = false →
      (∃ t, exec (.unloadSlotComplete p.key) s = .next t ∧ (t.slot p.slot).state = .empty) ∧
      Answers (.unloadSlotComplete p.key) s p 0 0 0)

/-- R91, R323, R324: a copy packet hands its bytes to the engines of a core as a job, which starts once an engine is free and
completes the packet with status 0, or with 8 and the status of a job that failed; a packet of no bytes ends at once, and one
whose ranges lie in no one region, or overlap, ends with status 1. A signal sets its word or adds to it, once the host has answered
and its sub-bank is granted; a wait ends with status 0 once its condition holds and with 9 and the low half of the word last read
at its timeout; an absent share, a poisoned word, or an access over a link that takes 50 ms ends either with 8. (That a word over a
link is asked for again after 1 µs, and is free until the first answer, is the model's choice: assumption 93.) -/
def Obligations.DataPackets : Prop :=
  ∀ (s : State) (p : Packet), s.canonical → p.queue < 1024 →
    let ia := p.field 0x08 8
    let dst := p.field 0x10 8
    let len := p.field 0x18 8
    let c := copyCore ia dst
    let e := s.descField p.queue 0x08 8 + 16 * (p.serial.toNat % 2 ^ s.ringLog p.queue)
    let stop := ((s.noteWalks [ia]).serveOutside (addrs ia 8)).wordStop ia
    (MayBegin s p 4 →
      (len = 0 → Answers (.copyPacket p.key) s p 0 0 0) ∧
      (0 < len → oneRegion ia len = false → Answers (.copyPacket p.key) s p 1 0 0x08) ∧
      (0 < len → oneRegion ia len = true → oneRegion dst len = false ∨ (ia < dst + len ∧ dst < ia + len) →
        Answers (.copyPacket p.key) s p 1 0 0x10) ∧
      (0 < len → oneRegion ia len = true → oneRegion dst len = true → ia + len ≤ dst ∨ dst + len ≤ ia →
        ∃ t, exec (.copyPacket p.key) s = .next t ∧ (t.core c).packetJobs = (s.core c).packetJobs ++ [p.copyJob] ∧
          (t.packet p.key).map (fun q => q.state) = some .started ∧ SameMemory s t)) ∧
    ((s.core c).packetJob p.key = some p.copyJob → (∀ x ∈ s.engineCtxs c, x.findJob p.key = none) →
      (s.core c).sliceBusy = false → ∀ n, s.freeEngine c = some n →
        ∃ t, exec (.jobStart c p.key) s = .next t ∧ UnderWay t (.jobComplete c p.key) ∧ SameMemory s t ∧
          (t.core c).packetJob p.key = some { p.copyJob with started := true, engine := some n, sentAt := s.now }) ∧
    (∀ status : Nat, s.packet p.key = some p → p.kind = 4 → p.state = .started → s.serving = true → status < 16 →
      p.last = BitVec.ofNat 64 (status + 1) →
      Answers (.copyPacket p.key) s p (if status = 0 then 0 else 8) 0 (BitVec.ofNat 32 status)) ∧
    (MayBegin s p 5 →
      let w := s.writeReady (.signalPacket p.key) (addrs ia 8)
      let b := w.1.hubTakes (.signalPacket p.key) (addrs ia 8)
      (∀ k, HostQuiet s → e + 16 ≤ 2 ^ 48 → regionOf ia = .slice k → s.spdiagOf ia = 0 → unitOf ia ∉ s.poison → unitOf ia ∉ s.fatals →
        w.2 = true → b.2 = true → ∃ t, exec (.signalPacket p.key) s = .next t ∧ Ended s t p ∧
          natOfBytes (Memory.bytes t.mem ia 8) = (if p.field 0x18 1 = 0 then p.field 0x10 8
            else (natOfBytes (Memory.bytes s.mem ia 8) + p.field 0x10 8) % 2 ^ 64) ∧
          ∀ a, (a < ia ∨ ia + 8 ≤ a) → (a < e ∨ e + 16 ≤ a) → Memory.get t.mem a = Memory.get s.mem a) ∧
      (s.wordFar ia = false → s.resident ia = false → Answers (.signalPacket p.key) s p 8 0 2) ∧
      (s.wordFar ia = false → s.resident ia = true → w.2 = true → b.2 = true →
        ((b.1.serveOutside (addrs ia 8)).firstPoison (addrs ia 8)).isSome = true → Answers (.signalPacket p.key) s p 8 0 3) ∧
      (s.wordFar ia = false → s.resident ia = true → (w.2 = false ∨ b.2 = false) → ∃ t, exec (.signalPacket p.key) s = .next t ∧
        (s.now + 1, .signalPacket p.key) ∈ t.agenda ∧ (t.packet p.key).map (fun q => q.state) = some .waiting ∧ SameMemory s t) ∧
      (s.wordFar ia = true → ∃ t, exec (.signalPacket p.key) s = .next t ∧ SameMemory s t ∧
        (s.now + Nat.min 80000000 s.delay, .signalPacket p.key) ∈ t.agenda ∧
        (t.packet p.key).map (fun q => q.access) = some (some (decide (80000000 ≤ s.delay))))) ∧
    (s.packet p.key = some p → p.kind = 5 → p.state = .waiting → p.access = some true → s.serving = true →
      Answers (.signalPacket p.key) s p 8 0 3) ∧
    (MayBegin s p 6 →
      (∀ k, stop = some k → Answers (.waitPacket p.key) s p 8 0 (BitVec.ofNat 32 k)) ∧
      (stop = none → ∃ t q, exec (.waitPacket p.key) s = .next t ∧ t.packet p.key = some q ∧ q.state = .started ∧
        SameMemory s t ∧ (p.field 0x1C 4 ≠ 0 → (s.now + 1600 * p.field 0x1C 4, .waitPacketTimeout p.key) ∈ t.agenda) ∧
        (s.wordFar ia = true → q.access = some (decide (80000000 ≤ s.delay)) ∧
          (s.now + Nat.min 80000000 s.delay, .waitPacket p.key) ∈ t.agenda))) ∧
    (s.packet p.key = some p → p.state = .started → p.kind = 6 → s.serving = true →
      let met := p.field 0x18 1 = 1 ↔ s.wordNow ia 8 = p.field 0x10 8
      (p.access = none → stop = none → met → Answers (.waitPacketMet p.key) s p 0 0 0) ∧
      (∀ k, p.access = none → s.wordStop ia = some k → Answers (.waitPacketMet p.key) s p 8 0 (BitVec.ofNat 32 k)) ∧
      (p.access = some true → Answers (.waitPacket p.key) s p 8 0 3) ∧
      (∀ k, p.access = some false → (s.serveOutside (addrs ia 8)).wordStop ia = some k →
        Answers (.waitPacket p.key) s p 8 0 (BitVec.ofNat 32 k)) ∧
      (p.access = some false → (s.serveOutside (addrs ia 8)).wordStop ia = none → met → Answers (.waitPacket p.key) s p 0 0 0) ∧
      (p.access = some false → (s.serveOutside (addrs ia 8)).wordStop ia = none → ¬met → ∃ t q, exec (.waitPacket p.key) s = .next t ∧
        t.packet p.key = some q ∧ q.state = .started ∧ q.last = BitVec.ofNat 64 (s.wordNow ia 8) ∧ SameMemory s t ∧
        ∃ n, (n, .waitPacket p.key) ∈ t.agenda ∧ s.now + 1600 < n) ∧
      Answers (.waitPacketTimeout p.key) s p 9 0 (if p.access.isSome then p.last.setWidth 32 else BitVec.ofNat 32 (s.wordNow ia 8)))

/-- R380, R389, R413: a form packet enters its group and seeks the agreement of the other devices for at most a second; agreed,
the group is formed; disagreed or timed out it is forgotten with status 11 and INFO 3 or 4. A grant adds the task identifier,
and the indices of the ranks count from 0, but go on while the group is granted to another task (the model's choice, assumption
94); a reopen clears CLOSED and restarts k and the barrier index at 0; a release forgets
the group once no collective of it is left. -/
def Sys2Proof.Claims.GroupPackets : Prop :=
  ∀ (s : State) (p : Packet),
    let n := p.field 0x08 2
    let op := p.field 0x0A 1
    let formed := ∃ g, s.group n = some g ∧ g.formed = true
    (MayBegin s p 7 → op = 0 →
      ((s.group n).isSome = true → Answers (.groupForm p.key) s p 11 0 1) ∧
      (s.group n = none → s.rankTable (p.field 0x18 8) (p.field 0x0C 4) = none → Answers (.groupForm p.key) s p 11 0 2) ∧
      (∀ l, s.group n = none → s.rankTable (p.field 0x18 8) (p.field 0x0C 4) = some l →
        ∃ t, exec (.groupForm p.key) s = .next t ∧ SameMemory s t ∧ (s.now + 1600000000, .groupAgreementTimeout p.key) ∈ t.agenda ∧
          t.group n =
            some { number := n, ranks := l, formed := false, closed := false, grants := [], counts := [], barrier := 0, joined := 0,
                   rewind := none, gone := false } ∧
          (t.packet p.key).map (fun q => q.state) = some .started)) ∧
    (MayBegin s p 7 → op = 1 →
      (¬formed → Answers (.groupGrant p.key) s p 11 0 5) ∧
      (formed → Answers (.groupGrant p.key) s p 0 0 0 ∧ ∀ g, s.group n = some g → ∃ t, exec (.groupGrant p.key) s = .next t ∧
        (t.group n).map (fun x => (x.grants.contains (BitVec.ofNat 32 (p.field 0x10 4)), x.counts)) =
          some (true, if g.grants = [] then [] else g.counts))) ∧
    (MayBegin s p 7 → op = 2 →
      (¬formed → Answers (.groupReopen p.key) s p 11 0 5) ∧
      (formed → ∃ t, exec (.groupReopen p.key) s = .next t ∧ (s.now + 1600000000, .groupAgreementTimeout p.key) ∈ t.agenda ∧
        (t.packet p.key).map (fun q => q.state) = some .started ∧ SameMemory s t)) ∧
    (MayBegin s p 7 → op = 3 →
      (¬formed → Answers (.groupRelease p.key) s p 11 0 5) ∧
      (formed → ∃ t, exec (.groupRelease p.key) s = .next t ∧ UnderWay t (.groupReleaseComplete p.key) ∧
        (t.packet p.key).map (fun q => q.state) = some .started ∧ SameMemory s t)) ∧
    (s.packet p.key = some p → p.state = .started → p.kind = 7 → s.restarting = false →
      (op = 0 →
        (Answers (.groupAgreement p.key true) s p 0 0 0 ∧ ∃ t, exec (.groupAgreement p.key true) s = .next t ∧
          (t.group n).map (fun g => g.formed) = (s.group n).map (fun _ => true)) ∧
        (Answers (.groupAgreement p.key false) s p 11 0 3 ∧ ∃ t, exec (.groupAgreement p.key false) s = .next t ∧ t.group n = none) ∧
        (Answers (.groupAgreementTimeout p.key) s p 11 0 4 ∧ ∃ t, exec (.groupAgreementTimeout p.key) s = .next t ∧ t.group n = none)) ∧
      (op = 2 →
        (Answers (.groupAgreement p.key true) s p 0 0 0 ∧ ∃ t, exec (.groupAgreement p.key true) s = .next t ∧
          (t.group n).map (fun g => (g.closed, g.barrier, g.counts)) = (s.group n).map (fun _ => (false, 0, []))) ∧
        Answers (.groupAgreementTimeout p.key) s p 11 0 4) ∧
      (op = 3 →
        (s.groupJobs n = false → Answers (.groupReleaseComplete p.key) s p 0 0 0 ∧
          ∃ t, exec (.groupReleaseComplete p.key) s = .next t ∧ t.group n = none) ∧
        (s.groupJobs n = true → ∃ t, exec (.groupReleaseComplete p.key) s = .next t ∧
          (s.now + 1600, .groupReleaseComplete p.key) ∈ t.agenda ∧ SameMemory s t)))

/-! ### Firmware, resets and bring-up -/

/-- R76, R80, R88, R318, R325, R326, R399, R402 to R406: a mismatch of the firmware pair sets DEVSTAT.FWRST and starts a restart,
whose end clears it, handles the held reports and raises vector 1; the queues open when every condition holds and the firmware's
own writes are applied; an idle device without a waiting tail may be gated; bring-up goes step by step, step 3 takes a signed image
of the least security version from the first copy or the second, and a failed step keeps its code; a function-level reset keeps
HBM but for EN and CONS of every queue, and repeats no step in recovery mode or after a failed step; power-on starts at step 1 with
the floor budget; recovery takes an image; an attestation report carries the nonce and BOOTSTAT. The model's choices: their offsets
256 and 288 in the report (assumption 50), the number of workers and the images of board flash (assumption 63), that memory reads 0
after power-on (assumption 1), and how many frames a home has open (assumption 72). -/
def Obligations.FirmwareAndResets : Prop :=
  ∀ s : State,
    (s.restarting = false → ∃ t, exec .firmwareLockstepMismatch s = .next t ∧ t.hub.devstat = s.hub.devstat ||| 4 ∧
      (∃ n, (n, .firmwareRestartEnd) ∈ t.agenda ∧ s.now < n ∧ n ≤ s.now + 32000000) ∧ SameMemory s t) ∧
    (s.restarting = true → ∃ t, exec .firmwareRestartEnd s = .next t ∧ t.hub.devstat = s.hub.devstat &&& ~~~4 ∧
      t.hub.heldReports = [] ∧ (∀ i ∈ s.hub.heldReports, UnderWay t i) ∧ tget 0 s.hub.msix 1 < tget 0 t.hub.msix 1 ∧
      SameMemory s t) ∧
    (∀ w, ∃ t, exec (.workerFault w) s = .next t ∧ t.hub.workerFaults = s.hub.workerFaults + 1 ∧ t.cores = s.cores ∧ SameMemory s t) ∧
    (s.mayOpen = true → s.hub.fwWrites ≠ [] → ∃ t, exec .queuesOpen s = .next t ∧ (s.now + 1, .queuesOpen) ∈ t.agenda ∧
      t.hub = s.hub ∧ SameMemory s t) ∧
    (s.mayOpen = true → s.hub.fwWrites = [] → ∃ t, exec .queuesOpen s = .next t ∧ t.hub.devstat.getLsbD 0 = true ∧ t.hub.hostMapped = true ∧
      (∀ h : CoreId, (s.home h).used + s.hub.settings.barSize / 8 + 0x1400000 ≤ hbmOpen →
        256 ≤ (t.home h).pool8.length ∧ 256 ≤ (t.home h).pool64.length) ∧ SameMemory s t) ∧
    (s.serving = true → s.workless = true → s.tailsWait = false →
      ∃ t, exec .powerGateEntry s = .next t ∧ t.hub.devstat = s.hub.devstat ||| 2 ∧ SameMemory s t) ∧
    (s.serving = false ∨ s.workless = false ∨ s.tailsWait = true → Nothing .powerGateEntry s) ∧
    (∀ dies ok, s.hub.booting = true →
      let n := getBits s.hub.bootstat 0 4
      let ends := fun (t : State) => exec (.bringUpStepEnd ok dies) s = .next t
      (ok = true → 1 ≤ n → n ≤ 9 → (n = 3 → s.hub.config.valid = true ∧ s.hub.imageOk = true) → (n = 8 → s.hub.bootEnd ≠ 8) →
        ∃ t, ends t ∧ getBits t.hub.bootstat 0 4 = n + 1 ∧ t.hub.booting = true ∧
          (n = 6 → s.canonical → ∀ c : CoreId, ∀ o < sliceBytes, Memory.get t.mem (sliceBase c.val + o) = 0) ∧
          (n = 9 → ∀ p < 18, (s.now + 800000000, .ualinkTrainingTimeout p) ∈ t.agenda)) ∧
      (10 ≤ n → ∃ t, ends t ∧ t.hub.booting = false ∧ t.hub.bootstat = s.hub.bootstat ||| 0x10) ∧
      (ok = false → n ∈ [4, 5, 6, 8] → ∃ t, ends t ∧ t.hub.booting = false ∧ t.hub.bootstat.getLsbD 6 = true ∧
        getBits t.hub.bootstat 8 4 = n ∧ SameMemory s t) ∧
      (n = 3 → (∀ m, s.hub.image = some m → (s.hub.imageOk = true ↔ m.signed = true ∧ s.hub.settings.minSecurity ≤ m.security)) ∧
        (s.hub.image = none → s.hub.imageOk = false)) ∧
      (ok = false ∨ s.hub.imageOk = false → n = 3 → s.hub.imageTried = false → ∃ t, ends t ∧ t.hub.booting = true ∧
        t.hub.imageTried = true ∧ t.hub.bootstat = s.hub.bootstat ∧ SameMemory s t) ∧
      (ok = false ∨ s.hub.imageOk = false → n = 3 → s.hub.imageTried = true → ∃ t, ends t ∧ t.hub.booting = false ∧
        t.hub.bootstat = s.hub.bootstat ||| 0x20 ∧ SameMemory s t)) ∧
    (∃ t, exec .powerOnReset s = .next t ∧ t.hub.bootstat = 1 ∧ t.hub.booting = true ∧ t.hub.config = s.hub.config ∧ t.tasks = [] ∧
      getBits t.hub.pwrstat 0 12 = s.hub.settings.floorBudget % 4096 ∧ t.hub.flash = s.hub.flash ∧ (∀ a, Memory.get t.mem a = 0) ∧
      ∀ c : CoreId, (t.core c).live = false ∧ (t.core c).failedDies = (s.core c).failedDies) ∧
    (s.canonical → ∃ t, exec .functionLevelReset s = .next t ∧ t.tasks = [] ∧ t.log = [] ∧ t.now = s.now ∧
      (s.hub.minimal = false → t.hub.bootstat = 6 ∧ t.hub.booting = true) ∧
      (s.hub.minimal = true → t.hub.bootstat = s.hub.bootstat ∧ t.hub.booting = false) ∧ (∀ c : CoreId, (t.core c).live = false) ∧
      t.flips = s.flips ∧ t.fatals = s.fatals ∧
      (∀ q < 1024, firmwareSees t (64 * q + 0x14) 4 = 0 ∧ firmwareSees t (64 * q + 0x11) 1 % 2 = 0) ∧
      (s.tableHeld = false → ∀ a, Memory.get t.mem a = if a < 0x10000 ∧ 0x14 ≤ a % 64 ∧ a % 64 < 0x18 then 0
        else if a < 0x10000 ∧ a % 64 = 0x11 then Memory.get s.mem a &&& 0xFE else Memory.get s.mem a)) ∧
    (∀ image, s.hub.bootstat.getLsbD 5 = true → ∃ t, exec (.recoveryImageLoad image) s = .next t ∧
      t.hub.flash = image :: s.hub.flash ∧ SameMemory s t) ∧
    (∀ nonce : BitVec 256, ∃ t, exec (.attestationRequest nonce) s = .next t ∧
      natOfBytes ((t.hub.report.drop 256).take 32) = nonce.toNat ∧
      natOfBytes ((t.hub.report.drop 288).take 8) = s.hub.bootstat.toNat ∧ SameMemory s t)

/-! ### Links, the host and errors -/

/-- R4, R73, R75, R78 to R81, R84 to R88, R305, R402: the host link's state and its loss are shown in HLSTAT, and in recovery mode
or after a failed step it trains at 32 GT/s alone; a host access reaches the
mapped range alone, and one wider than a unit of 8 bytes goes unit by unit; a read of poison gives bytes 0xFF, and the host or a
peer may write its own memory; a register of the control BAR changes as its kind says; UALink ports go up, down or into a
mismatch; a peer's read, write or atomic acts at the newest value, once copies and host have answered and sub-banks are granted; an
access over a link that has waited 50 ms lands zero, and a lost store is counted, at the port it was sent on; before that nothing
happens. The model's choices: that a host access outside the mapped range does nothing (assumption 74), and that
HOST_MEMORY_WRITE is also how the host and peers write their own memory (assumption 49). -/
def Obligations.LinksAndHost : Prop :=
  ∀ s : State,
    (∀ (rate width : BitVec 3) (io cache memory lzp : Bool), 1 ≤ rate.toNat → rate.toNat ≤ 3 → width.toNat ≤ 3 →
      if s.hub.minimal = true ∧ rate ≠ 1 then Nothing (.hostLinkStateChange rate width io cache memory lzp) s
      else ∃ t, exec (.hostLinkStateChange rate width io cache memory lzp) s = .next t ∧ getBits t.hub.hlstat 0 3 = rate.toNat ∧
        getBits t.hub.hlstat 3 3 = width.toNat ∧ t.hub.hlstat.getLsbD 6 = true ∧ t.hub.hlstat.getLsbD 9 = memory ∧
        (∀ i, 11 ≤ i → i < 64 → t.hub.hlstat.getLsbD i = s.hub.hlstat.getLsbD i) ∧ SameMemory s t) ∧
    (getBits s.hub.hlstat 0 3 ≠ 0 → ∃ t, exec .hostLinkDown s = .next t ∧ getBits t.hub.hlstat 0 11 = 0 ∧
      t.hub.hlstat.getLsbD 11 = true ∧ tget 0 t.hub.msix 0 = tget 0 s.hub.msix 0 + 1 ∧ SameMemory s t) ∧
    (∃ t, exec (.linkReplay none) s = .next t ∧
      getBits t.hub.hlstat 16 16 = Nat.min (getBits s.hub.hlstat 16 16 + 1) 65535 ∧ SameMemory s t) ∧
    (∀ p : Fin 18, ∃ t, exec (.linkReplay (some p.val)) s = .next t ∧
      getBits t.hub.ulstat[p] 32 16 = Nat.min (getBits s.hub.ulstat[p] 32 16 + 1) 65535 ∧ SameMemory s t) ∧
    (∀ p : Fin 18,
      (∃ t, exec (.ualinkPortUp p.val s.hub.settings.podDevice.toNat) s = .next t ∧ getBits t.hub.ulstat[p] 0 2 = 2 ∧
        getBits t.hub.ulstat[p] 16 10 = s.hub.settings.podDevice.toNat ∧ SameMemory s t) ∧
      (getBits s.hub.ulstat[p] 0 2 = 2 → ∃ t, exec (.ualinkPortDown p.val) s = .next t ∧ getBits t.hub.ulstat[p] 0 2 = 0 ∧
        t.hub.ulstat[p].getLsbD 3 = true ∧ tget 0 t.hub.msix 0 = tget 0 s.hub.msix 0 + 1 ∧ SameMemory s t) ∧
      (getBits s.hub.ulstat[p] 0 2 ≠ 2 → ∃ t, exec (.ualinkIdMismatch p.val) s = .next t ∧ getBits t.hub.ulstat[p] 0 2 = 3 ∧
        t.hub.ulstat[p].getLsbD 2 = true ∧ tget 0 t.hub.msix 0 = tget 0 s.hub.msix 0 + 1 ∧ SameMemory s t) ∧
      (getBits s.hub.ulstat[p] 0 2 ≤ 1 → s.hub.portSettled.getLsbD p.val = false → ∃ t, exec (.ualinkTrainingTimeout p.val) s = .next t ∧ getBits t.hub.ulstat[p] 0 2 = 3 ∧
        t.hub.msix = s.hub.msix ∧ SameMemory s t)) ∧
    (∀ (addr : Nat) (data : List Byte), addr + data.length ≤ 2 ^ 48 →
      (s.hostReach addr data.length = true → (hostUnits addr data.length).length ≤ 1 → s.canonical →
        ∃ t, exec (.hostMemoryWrite addr data) s = .next t ∧ ∀ a, Memory.get t.mem a = if addr ≤ a ∧ a < addr + data.length then data.getD (a - addr) 0 else Memory.get s.mem a) ∧
      (s.hostReach addr data.length = false → Nothing (.hostMemoryWrite addr data) s)) ∧
    (∀ (addr : Nat) (data : List Byte), s.hostReach addr data.length = true ∨ s.foreign addr data.length = true →
      1 < (hostUnits addr data.length).length → ∃ t, exec (.hostMemoryWrite addr data) s = .next t ∧ SameMemory s t ∧
        ∀ u ∈ hostUnits addr data.length, UnderWay t (.hostMemoryWrite u.1 ((data.drop (u.1 - addr)).take u.2))) ∧
    (∀ addr len : Nat, ∀ u ∈ hostUnits addr len, addr ≤ u.1 ∧ u.1 + u.2 ≤ addr + len ∧ u.2 ≤ 8 ∧ u.1 / 8 = (u.1 + (u.2 - 1)) / 8) ∧
    (∀ addr len : Nat, s.hostReach addr len = true → s.hub.hostAsk = none → 1 < (hostUnits addr len).length →
      ∃ t q, exec (.hostMemoryRead addr len) s = .next t ∧ t.hub.hostAsk = some q ∧ q.addr = addr ∧ q.len = len ∧ q.got.length = 1 ∧
        t.hub.hostReply = s.hub.hostReply ∧ UnderWay t (.hostMemoryRead addr len) ∧ SameMemory s t) ∧
    (∀ (addr : Nat) (data : List Byte), s.hostReach addr data.length = false → s.foreign addr data.length = true →
      (hostUnits addr data.length).length ≤ 1 → s.canonical → ∃ t, exec (.hostMemoryWrite addr data) s = .next t ∧
        ∀ a, Memory.get t.mem a = if addr ≤ a ∧ a < addr + data.length then data.getD (a - addr) 0 else Memory.get s.mem a) ∧
    (∀ addr len : Nat, s.hostReach addr len = true → addr + len ≤ 2 ^ 48 → s.hub.hostAsk = none → (hostUnits addr len).length ≤ 1 →
      ((∀ i < len, unitOf (addr + i) ∉ s.poison ∧ ∀ w ∈ s.fatals, lineOf w ≠ lineOf (addr + i)) →
        ∃ t, exec (.hostMemoryRead addr len) s = .next t ∧ t.hub.hostPoison = false ∧
          t.hub.hostReply = (List.range len).map (fun i => Memory.get s.mem (addr + i)) ∧ SameMemory s t) ∧
      ((∃ i < len, unitOf (addr + i) ∈ s.poison) →
        ∃ t, exec (.hostMemoryRead addr len) s = .next t ∧ t.hub.hostPoison = true ∧ t.hub.hostReply = List.replicate len 0xFF ∧
          SameMemory s t)) ∧
    (∀ v : Word,
      (∃ t, exec (.registerWrite (.bar 0x10000 8) v) s = .next t ∧ t.hub.hlstat = s.hub.hlstat &&& ~~~(v &&& 0x800) ∧ SameMemory s t) ∧
      (∀ p : Fin 18, ∃ t, exec (.registerWrite (.bar (0x10100 + 8 * p.val) 8) v) s = .next t ∧
        t.hub.ulstat[p] = s.hub.ulstat[p] &&& ~~~(v &&& 0xC) ∧ SameMemory s t) ∧
      (∀ h : CoreId, ∃ t, exec (.registerWrite (.bar (0x20008 + 0x100 * h.val) 8) v) s = .next t ∧
        (t.home h).hestat = (s.home h).hestat &&& ~~~(v &&& 0x1F) ∧ SameMemory s t) ∧
      exec (.registerWrite (.bar 0x30000 8) v) s = exec (.powerBudgetMessage v) s ∧
      (∀ off ∈ [0x0, 0x8, 0x10200, 0x30008, 0x30010], Nothing (.registerWrite (.bar off 8) v) s)) ∧
    (∀ (port : Fin 18) (off : Nat), getBits s.hub.ulstat[port] 0 2 = 2 → off < 2 ^ 40 → s.resident off = true →
      (∀ len, 1 ≤ len → len ≤ 256 → off / 256 = (off + len - 1) / 256 →
        (s.peerReady port.val (.read off len) (addrs off len)).2 = true →
        (∀ i < len, unitOf (off + i) ∉ s.poison ∧ ∀ w ∈ s.fatals, lineOf w ≠ lineOf (off + i)) →
        ∃ t, exec (.peerAccessRequest port.val (.read off len)) s = .next t ∧
          t.hub.peerReply = (List.range len).map (fun i => Memory.get s.mem (off + i)) ∧ SameMemory s t) ∧
      (∀ data : List Byte, 1 ≤ data.length → data.length ≤ 256 → off / 256 = (off + data.length - 1) / 256 → s.canonical →
        let i := Instr.peerAccessRequest port.val (.write off data)
        let ready := (s.peerReady port.val (.write off data) (addrs off data.length)).2
        (ready = true → ∃ t, exec i s = .next t ∧
          ∀ a, Memory.get t.mem a = if off ≤ a ∧ a < off + data.length then data.getD (a - off) 0 else Memory.get s.mem a) ∧
        (ready = false → ∃ t, exec i s = .next t ∧ (s.now + 1, i) ∈ t.agenda ∧ SameMemory s t)) ∧
      (∀ (f : BitVec 4) (b : Word), f.toNat ≤ 8 → off % 8 = 0 → s.canonical → unitOf off ∉ s.poison →
        (∀ w ∈ s.fatals, lineOf w ≠ lineOf off) → (s.peerReady port.val (.atom off f true b) (addrs off 8)).2 = true →
        let old := BitVec.ofNat 64 (natOfBytes (Memory.bytes s.mem off 8))
        ∃ t, exec (.peerAccessRequest port.val (.atom off f true b)) s = .next t ∧ natOfBytes t.hub.peerReply = old.toNat ∧
          natOfBytes (Memory.bytes t.mem off 8) = (atomValue f.toNat old b).toNat ∧
          ∀ a, (a < off ∨ off + 8 ≤ a) → Memory.get t.mem a = Memory.get s.mem a)) ∧
    (∀ (c : CoreId) (sec : Bool) (o : Op), (s.core c).opBank o.id = some (false, sec, o) →
      let waits := fun (i : Instr) => (i = .hostCompletionTimeout c o.id ∧ onHost o.kind.addrs = true) ∨
        (i = .peerAccessTimeout c o.id ∧ onPeer o.kind.addrs = true)
      (∀ i ∈ [Instr.hostCompletionTimeout c o.id, .peerAccessTimeout c o.id], s.now < o.sentAt + 80000000 ∨ ¬waits i → Nothing i s) ∧
      (o.sentAt + 80000000 ≤ s.now →
      (∀ d ia len ea newest, o.kind = .load d ia len ea newest → ∀ i, waits i →
        ∃ t, exec i s = .next t ∧ (t.stream c sec).rs d = 0 ∧ (t.stream c sec).ld = fell (s.stream c sec) o.id (s.stream c sec).ld ∧ SameMemory s t) ∧
      (∀ bytes fresh host, o.kind = .store bytes fresh host →
        (onHost o.kind.addrs = true → ∃ t, exec (.hostCompletionTimeout c o.id) s = .next t ∧ (t.stream c sec).st = fell (s.stream c sec) o.id (s.stream c sec).st ∧
          getBits t.hub.hlstat 32 16 = Nat.min (getBits s.hub.hlstat 32 16 + 1) 65535 ∧ SameMemory s t) ∧
        (onPeer o.kind.addrs = true → ∃ t, exec (.peerAccessTimeout c o.id) s = .next t ∧
          (t.stream c sec).st = fell (s.stream c sec) o.id (s.stream c sec).st ∧ SameMemory s t ∧
          ∀ b (n : Fin 18), o.ports = [(b, some n.val)] →
            getBits t.hub.ulstat[n] 48 16 = Nat.min (getBits s.hub.ulstat[n] 48 16 + 1) 65535))))

/-- R72, R81, R123, R366: a parity error of a die-to-die link resends the word, and the ninth in a row fails the link, which
raises vector 0 and rolls back every task on its ends (resends are counted in a cycle: the model's choice, assumption 19); a soft
error leaves memory as it was until its check finds it, marks
the word or the register that it struck, and upsets one bit of a register; a second single-bit error of a word is
uncorrectable. -/
def Sys2Proof.Claims.ErrorsStrike : Prop :=
  ∀ s : State,
    (∀ l : Fin 14, ∃ t, exec (.d2dParityError l.val) s = .next t ∧ t.hub.d2dResends[l] = s.hub.d2dResends[l] + 1 ∧
      (s.hub.d2dResends[l] = 8 → UnderWay t (.d2dLinkFailed l.val)) ∧ SameMemory s t) ∧
    (∀ l : Fin 14, ∃ t, exec (.d2dLinkFailed l.val) s = .next t ∧ t.hub.d2dFailed.getLsbD l.val = true ∧
      tget 0 t.hub.msix 0 = tget 0 s.hub.msix 0 + 1 ∧ SameMemory s t ∧
      ∀ q ∈ s.tasks, q.started = true → q.state ≠ .retired → q.ended = none → (∃ c ∈ q.cores, c ∈ linkEnds l.val) →
        UnderWay t (.rollback q.key)) ∧
    (∀ p : SoftError, ∃ t, exec (.softError p) s = .next t ∧ SameMemory s t) ∧
    (∀ a, pagedHere (regionOf (a / 8 * 8)) = true →
      (∃ t, exec (.softError (.hbm a false)) s = .next t ∧
        (a / 8 * 8 ∉ s.flips → a / 8 * 8 ∈ t.flips) ∧ (a / 8 * 8 ∈ s.flips → a / 8 * 8 ∈ t.fatals)) ∧
      (∃ t, exec (.softError (.hbm a true)) s = .next t ∧ a / 8 * 8 ∈ t.fatals)) ∧
    (∀ (c : CoreId) (sec : Bool) (r : BitVec 6), r ≠ 0 → ∃ t k, exec (.softError (.scalar c sec r)) s = .next t ∧ k < 64 ∧
      r ∈ (t.stream c sec).badScalar ∧
      ∀ i < 64, ((t.stream c sec).rs r).getLsbD i = (((s.stream c sec).rs r).getLsbD i ^^ decide (i = k))) ∧
    (∀ (c : CoreId) (r : BitVec 6), ∃ t k, exec (.softError (.vector c r)) s = .next t ∧ k < 8192 ∧ (r, k / 64) ∈ (t.ctx c).badVector ∧
      ∀ i < 8192, ((t.ctx c).rv r).getLsbD i = (((s.ctx c).rv r).getLsbD i ^^ decide (i = k)))

/-! ### Power and heat -/

/-- R394, R396, R398 to R401: a newer valid message sets the budget, clamped, with a lease; at its end the floor budget returns;
a tick converts the budget within the limits of each value; the regulator's step follows the reading, never below the floors;
a trip raises vector 0, and one that lasts 10 ms ends the tasks of the core. The model's readings (assumption 47): the step of the
temperature stands apart from STEP and the floors, and a task that ends so does with CODE 0 and the core's primary stream. -/
def Sys2Proof.Claims.PowerAndHeat : Prop :=
  (∀ (s : State) (msg : Word),
    let ok := getBits msg 44 16 ≠ 0 ∧ getBits msg 60 4 = 0 ∧ (s.hub.pwrlast = 0 ∨ serialAhead (msg.setWidth 32) (s.hub.pwrlast.setWidth 32) = true)
    let watts := Nat.max 600 (Nat.min 2800 (getBits msg 32 12))
    (ok → ∃ t, exec (.powerBudgetMessage msg) s = .next t ∧ t.hub.pwrstat = BitVec.ofNat 64 watts ∧ t.hub.pwrlast = msg ∧
      (s.now + 1600000 * getBits msg 44 16, .powerLeaseExpiry) ∈ t.agenda ∧
      (getBits s.hub.pwrstat 0 12 ≠ watts → ∀ c : CoreId, (t.core c).balance = 131072) ∧ SameMemory s t) ∧
    (¬ok → Nothing (.powerBudgetMessage msg) s)) ∧
  (∀ (s : State) (n : Nat), s.hub.lease = some n → n ≤ s.now → ∃ t, exec .powerLeaseExpiry s = .next t ∧ t.hub.lease = none ∧
    t.hub.pwrstat = (BitVec.ofNat 64 (s.hub.settings.floorBudget % 4096) ||| 0x1000) ∧ SameMemory s t) ∧
  (∀ s : State, ∃ t, exec .budgetTick s = .next t ∧ SameMemory s t ∧ ∀ c : CoreId,
    16 ≤ (t.core c).rate ∧ (t.core c).rate ≤ 2048 ∧ 128 ≤ (t.core c).slew ∧ (t.core c).slew ≤ 2048 ∧
    ∀ i, (i < 12 ∨ 16 ≤ i) → i < 64 → (t.core c).thr.getLsbD i = (s.core c).thr.getLsbD i) ∧
  (∀ (s : State) (c : CoreId) (h : Nat),
    let k := s.core c
    let g := s.hub.settings
    let step := if g.ttrip ≤ h then 15 else if g.thi ≤ h then Nat.min 15 (k.thermalStep + 1) else if g.tlo ≤ h then k.thermalStep
      else k.thermalStep - 1
    k.evaluated = false → k.cyc.toNat % 1024 = 0 → k.thermalStep ≤ 15 →
    ∃ t, exec (.regulatorEvaluate c h) s = .next t ∧ (t.core c).thermalStep = step ∧ (t.core c).sensor = h ∧
      getBits (t.core c).thr 0 4 = Nat.max step (Nat.max (getBits k.thr 12 4) (getBits k.thr 16 4)) ∧
      (g.ttrip ≤ h → tget 0 t.hub.msix 0 = tget 0 s.hub.msix 0 + 1 ∧
        (k.tripSince = none → (s.now + 16000000, .thermalTripTimeout c) ∈ t.agenda)) ∧
      (h < g.ttrip → (t.core c).tripSince = none) ∧ SameMemory s t) ∧
  (∀ (s : State) (c : CoreId) (n : Nat), (s.core c).tripSince = some n → n + 16000000 ≤ s.now →
    ∃ t, exec (.thermalTripTimeout c) s = .next t ∧ (t.core c).tooHot = true ∧ SameMemory s t ∧
      ∀ q ∈ s.tasks, c ∈ q.cores → q.state = .running ∨ q.state = .staged ∨ q.state = .draining → q.ended = none → UnderWay t (.taskEnd q.key 0 c false))

/-! ### What no instruction does -/

/-- R42, R203, R275: a bundle writes no byte of memory as it issues: a store, an atomic, a drain or a job writes when its event
comes. -/
def Obligations.IssueLeavesMemory : Prop :=
  ∀ (i : Instr) (s t : State), i.slot.isSome = true → exec i s = .next t → SameMemory s t

/-! ### Statements in parts -/

/-- R168: the logical operations, the lesser and greater, the shifts and the counts, as their three parts say. -/
def Obligations.ScalarLogicAndShifts : Prop := Claims.ScalarLogic ∧ Claims.ScalarShifts ∧ Claims.ScalarCounts

/-- R169 to R172: shifts by an immediate, ADDI, LEA, MOVI, MOVHI, and the bit-field instructions, as their two parts say.
-/
def Obligations.ScalarImmediatesAndFields : Prop := Claims.ScalarImmediates ∧ Claims.BitFields

/-- R173, R175, R176: CMP, CMPI, PLOG and PMOV, as their two parts say. -/
def Obligations.ScalarCompareAndPredicates : Prop := Claims.ScalarCompare ∧ Claims.PredicateMoves

/-- R177 to R180: CHKS, RDSYS, TFIRST, STSET and STGET, as their three parts say. -/
def Obligations.SystemValuesAndTags : Prop := Claims.DuplicationCheck ∧ Claims.SystemValues ∧ Claims.TagsAndStreamWords

/-- R20, R38, R40, R186, R345, R355, R365: a step of a stream that stands ready alone is the issue of the bundle at its
program counter, as the two parts say: for every bundle, and for one whose K slot acts once the others have issued. -/
def Obligations.StepRunsItsBundle : Prop := Claims.StepRunsDecodedBundle ∧ Claims.StepRunsLastSlotAlone

/-- R185, R186: what LOOP installs, and the bundle that follows the end of a body, as the two parts say. -/
def Obligations.LoopsRepeat : Prop := Claims.LoopInstalls ∧ Claims.LoopEnds

/-- R188 to R192: the waits, PMODE and HALT, and when each freeze is over, as the two parts say. -/
def Obligations.WaitsBeginAndEnd : Prop := Claims.WaitsAndHalt ∧ Claims.WaitsEnd

/-- R23, R345, R351 to R355: the traps that are taken, and the stream that stops because a trap cannot be, as the two
parts say. -/
def Obligations.TrapsAndDoubleTraps : Prop := Claims.TrapsAreTaken ∧ Claims.DoubleTrapStops

/-- R24, R163, R356: RDCTL and WRCTL, as the two parts say. -/
def Obligations.ControlRegisters : Prop := Claims.ReadsControlRegisters ∧ Claims.WritesControlRegisters

/-- R59, R315: RANGE, and WADDR with its wake and its timeout, as the two parts say. -/
def Obligations.RangesAndWordWaits : Prop := Claims.RangeProbes ∧ Claims.WordWaits

/-- R302, R303, R309 to R312, R342, R373: DOMJ, PHASE, CHKPT, REL and ACQ, as the two parts say. -/
def Obligations.DomainsAndPhases : Prop := Claims.DomainJoins ∧ Claims.PhaseReleaseAcquire

/-- R24, R340, R341, R361, R365: STRT, YIELD, SWPREP and SWAP, as the two parts say. -/
def Obligations.YieldsAndSwaps : Prop := Claims.StartAndYield ∧ Claims.ProgramSwaps

/-- R194 to R198, R203 to R208, R304: the scalar loads, stores, atomics and page requests as they issue, as the three
parts say. -/
def Obligations.LoadsStoresAndAtomicsIssue : Prop := Claims.ScalarLoadsIssue ∧ Claims.ScalarStoresIssue ∧ Claims.AtomicsIssue

/-- R194, R199 to R201: the vector loads and stores as they issue, and exactly which bytes a vector store writes, as the
two parts say. -/
def Obligations.VectorAccesses : Prop := Claims.VectorAccessesIssue ∧ Claims.VectorStoreBytes

/-- R63, R65, R68 to R74, R79, R121, R123 to R125: the events of homes, replicas, patrols and banks, as the two parts say.
-/
def Obligations.HomesAndBanks : Prop := Claims.HomesAnswer ∧ Claims.PatrolsAndBanks

/-- R147, R148, R212 to R217: the floating-point instructions and their special cases, as the two parts say. -/
def Obligations.VectorFloatingPoint : Prop := Claims.VectorFloat ∧ Claims.FloatSpecialCases

/-- R134, R142, R143, R146, R221, R222, R224 to R228, R231, R232: the moves between lanes and registers, the conversions, and
what they give, as the three parts say. -/
def Obligations.VectorMovesAndConversions : Prop := Claims.VectorMoves ∧ Claims.VectorConvert ∧ Claims.ConvertedValues

/-- R138, R139, R142 to R144, R148, R149, R212, R213, R214, R217, R229, R230: how exact values are rounded into formats and to integers, which
exact values the arithmetic rounds, and the special functions within their bounds, as the four parts say. -/
def Obligations.ResultsAreRounded : Prop :=
  Claims.RoundsIntoFormats ∧ Claims.RoundsToIntegers ∧ Claims.ExactResults ∧ Claims.VectorSpecial

/-- R154, R210, R216, R220, R223, R233: the comparisons, masks and reductions, as the two parts say. -/
def Obligations.VectorComparesAndReductions : Prop := Claims.VectorCompare ∧ Claims.VectorReduce

/-- R136, R234 to R237, R283, R295, R299: accumulator blocks, checks and residue instructions, as the two parts say. -/
def Obligations.VectorBlocksAndResidues : Prop := Claims.VectorBlocksAndChecks ∧ Claims.VectorResidues

/-- R38, R40, R157, R165: what the scalar and the vector instructions leave unchanged as they issue, as the two parts say.
-/
def Obligations.LaneFrames : Prop := Claims.ScalarFrame ∧ Claims.VectorFrame

/-- R243 to R245, R247, R256, R257, R265, R278, R280, R396: the steps of MMA and of MMI, and the order of a chain, as the three
parts say. -/
def Obligations.CubeAndPlaneSteps : Prop := Claims.CubeSteps ∧ Claims.PlaneSteps ∧ Claims.ChainOrder

/-- R246 to R249, R260 to R269, R281, R291, R296: the tile operations as they issue, and the operand checks of every tile command,
as the two parts say. -/
def Obligations.TileOperations : Prop := Claims.TileOperationsIssue ∧ Claims.TileOperandChecks

/-- R249, R265, R266, R275, R276, R296, R297, R363, R369: the completion of tile operations and drains, as the two parts say. -/
def Obligations.TilesAndDrainsComplete : Prop := Claims.TileOperationsComplete ∧ Claims.DrainsComplete

/-- R91, R93, R95, R98, R102, R104: jobs as they start and complete, as the two parts say; that a job moves one line per event
is the model's choice (logs 28 and 29). -/
def Obligations.JobsRun : Prop := Claims.JobsStart ∧ Claims.JobsComplete

/-- R311, R376, R381 to R384, R386 to R389, R392: the striker, the run of a collective, the rollback of a group, and the fixed order
of a reduction, as the four parts say. -/
def Obligations.StrikesAndReductions : Prop :=
  Claims.StrikesNumberAndStart ∧ Claims.CollectivesRun ∧ Claims.GroupsRollBack ∧ Claims.ReductionOrder

/-- R324, R327 to R332, R380, R389, R413: the packets of slots and tasks and those of groups, as the two parts say. -/
def Obligations.SlotAndGroupPackets : Prop := Claims.SlotPackets ∧ Claims.GroupPackets

/-- R72, R81, R123, R366, R394, R396, R398 to R401: soft errors and failing links, and power and heat, as the two parts
say. -/
def Obligations.ErrorsPowerAndHeat : Prop := Claims.ErrorsStrike ∧ Claims.PowerAndHeat
end

