-- ==== Sys2Proof/Laws/State.lean ====
section
/-! SUPPORT. What each update of the state leaves and what it changes: one lemma for each field of each update, and the reads
of cores, contexts and streams after a write. -/

namespace Sys2Proof.Machine

/-! #### updCore -/

@[simp] theorem State.updCore_now (s : State) (c : CoreId) (f : Core → Core) : (s.updCore c f).now = s.now := rfl
@[simp] theorem State.updCore_turn (s : State) (c : CoreId) (f : Core → Core) : (s.updCore c f).turn = s.turn := rfl
@[simp] theorem State.updCore_issue (s : State) (c : CoreId) (f : Core → Core) : (s.updCore c f).issue = s.issue := rfl
@[simp] theorem State.updCore_inputs (s : State) (c : CoreId) (f : Core → Core) : (s.updCore c f).inputs = s.inputs := rfl
@[simp] theorem State.updCore_agenda (s : State) (c : CoreId) (f : Core → Core) : (s.updCore c f).agenda = s.agenda := rfl
@[simp] theorem State.updCore_delays (s : State) (c : CoreId) (f : Core → Core) : (s.updCore c f).delays = s.delays := rfl
@[simp] theorem State.updCore_free (s : State) (c : CoreId) (f : Core → Core) : (s.updCore c f).free = s.free := rfl
@[simp] theorem State.updCore_nextId (s : State) (c : CoreId) (f : Core → Core) : (s.updCore c f).nextId = s.nextId := rfl
@[simp] theorem State.updCore_mem (s : State) (c : CoreId) (f : Core → Core) : (s.updCore c f).mem = s.mem := rfl
@[simp] theorem State.updCore_poison (s : State) (c : CoreId) (f : Core → Core) : (s.updCore c f).poison = s.poison := rfl
@[simp] theorem State.updCore_flips (s : State) (c : CoreId) (f : Core → Core) : (s.updCore c f).flips = s.flips := rfl
@[simp] theorem State.updCore_fatals (s : State) (c : CoreId) (f : Core → Core) : (s.updCore c f).fatals = s.fatals := rfl
@[simp] theorem State.updCore_log (s : State) (c : CoreId) (f : Core → Core) : (s.updCore c f).log = s.log := rfl
@[simp] theorem State.updCore_homes (s : State) (c : CoreId) (f : Core → Core) : (s.updCore c f).homes = s.homes := rfl
@[simp] theorem State.updCore_hub (s : State) (c : CoreId) (f : Core → Core) : (s.updCore c f).hub = s.hub := rfl
@[simp] theorem State.updCore_tasks (s : State) (c : CoreId) (f : Core → Core) : (s.updCore c f).tasks = s.tasks := rfl

/-! #### updCtx -/

@[simp] theorem State.updCtx_now (s : State) (c : CoreId) (f : Ctx → Ctx) : (s.updCtx c f).now = s.now := rfl
@[simp] theorem State.updCtx_turn (s : State) (c : CoreId) (f : Ctx → Ctx) : (s.updCtx c f).turn = s.turn := rfl
@[simp] theorem State.updCtx_issue (s : State) (c : CoreId) (f : Ctx → Ctx) : (s.updCtx c f).issue = s.issue := rfl
@[simp] theorem State.updCtx_inputs (s : State) (c : CoreId) (f : Ctx → Ctx) : (s.updCtx c f).inputs = s.inputs := rfl
@[simp] theorem State.updCtx_agenda (s : State) (c : CoreId) (f : Ctx → Ctx) : (s.updCtx c f).agenda = s.agenda := rfl
@[simp] theorem State.updCtx_delays (s : State) (c : CoreId) (f : Ctx → Ctx) : (s.updCtx c f).delays = s.delays := rfl
@[simp] theorem State.updCtx_free (s : State) (c : CoreId) (f : Ctx → Ctx) : (s.updCtx c f).free = s.free := rfl
@[simp] theorem State.updCtx_nextId (s : State) (c : CoreId) (f : Ctx → Ctx) : (s.updCtx c f).nextId = s.nextId := rfl
@[simp] theorem State.updCtx_mem (s : State) (c : CoreId) (f : Ctx → Ctx) : (s.updCtx c f).mem = s.mem := rfl
@[simp] theorem State.updCtx_poison (s : State) (c : CoreId) (f : Ctx → Ctx) : (s.updCtx c f).poison = s.poison := rfl
@[simp] theorem State.updCtx_flips (s : State) (c : CoreId) (f : Ctx → Ctx) : (s.updCtx c f).flips = s.flips := rfl
@[simp] theorem State.updCtx_fatals (s : State) (c : CoreId) (f : Ctx → Ctx) : (s.updCtx c f).fatals = s.fatals := rfl
@[simp] theorem State.updCtx_log (s : State) (c : CoreId) (f : Ctx → Ctx) : (s.updCtx c f).log = s.log := rfl
@[simp] theorem State.updCtx_homes (s : State) (c : CoreId) (f : Ctx → Ctx) : (s.updCtx c f).homes = s.homes := rfl
@[simp] theorem State.updCtx_hub (s : State) (c : CoreId) (f : Ctx → Ctx) : (s.updCtx c f).hub = s.hub := rfl
@[simp] theorem State.updCtx_tasks (s : State) (c : CoreId) (f : Ctx → Ctx) : (s.updCtx c f).tasks = s.tasks := rfl

/-! #### updStream -/

@[simp] theorem State.updStream_now (s : State) (c : CoreId) (b : Bool) (f : Stream → Stream) : (s.updStream c b f).now = s.now := rfl
@[simp] theorem State.updStream_turn (s : State) (c : CoreId) (b : Bool) (f : Stream → Stream) : (s.updStream c b f).turn = s.turn := rfl
@[simp] theorem State.updStream_issue (s : State) (c : CoreId) (b : Bool) (f : Stream → Stream) : (s.updStream c b f).issue = s.issue := rfl
@[simp] theorem State.updStream_inputs (s : State) (c : CoreId) (b : Bool) (f : Stream → Stream) : (s.updStream c b f).inputs = s.inputs := rfl
@[simp] theorem State.updStream_agenda (s : State) (c : CoreId) (b : Bool) (f : Stream → Stream) : (s.updStream c b f).agenda = s.agenda := rfl
@[simp] theorem State.updStream_delays (s : State) (c : CoreId) (b : Bool) (f : Stream → Stream) : (s.updStream c b f).delays = s.delays := rfl
@[simp] theorem State.updStream_free (s : State) (c : CoreId) (b : Bool) (f : Stream → Stream) : (s.updStream c b f).free = s.free := rfl
@[simp] theorem State.updStream_nextId (s : State) (c : CoreId) (b : Bool) (f : Stream → Stream) : (s.updStream c b f).nextId = s.nextId := rfl
@[simp] theorem State.updStream_mem (s : State) (c : CoreId) (b : Bool) (f : Stream → Stream) : (s.updStream c b f).mem = s.mem := rfl
@[simp] theorem State.updStream_poison (s : State) (c : CoreId) (b : Bool) (f : Stream → Stream) : (s.updStream c b f).poison = s.poison := rfl
@[simp] theorem State.updStream_flips (s : State) (c : CoreId) (b : Bool) (f : Stream → Stream) : (s.updStream c b f).flips = s.flips := rfl
@[simp] theorem State.updStream_fatals (s : State) (c : CoreId) (b : Bool) (f : Stream → Stream) : (s.updStream c b f).fatals = s.fatals := rfl
@[simp] theorem State.updStream_log (s : State) (c : CoreId) (b : Bool) (f : Stream → Stream) : (s.updStream c b f).log = s.log := rfl
@[simp] theorem State.updStream_homes (s : State) (c : CoreId) (b : Bool) (f : Stream → Stream) : (s.updStream c b f).homes = s.homes := rfl
@[simp] theorem State.updStream_hub (s : State) (c : CoreId) (b : Bool) (f : Stream → Stream) : (s.updStream c b f).hub = s.hub := rfl
@[simp] theorem State.updStream_tasks (s : State) (c : CoreId) (b : Bool) (f : Stream → Stream) : (s.updStream c b f).tasks = s.tasks := rfl

/-! #### updBank -/

@[simp] theorem State.updBank_now (s : State) (c : CoreId) (b : Bool) (f : Ctx → Ctx) : (s.updBank c b f).now = s.now := rfl
@[simp] theorem State.updBank_turn (s : State) (c : CoreId) (b : Bool) (f : Ctx → Ctx) : (s.updBank c b f).turn = s.turn := rfl
@[simp] theorem State.updBank_issue (s : State) (c : CoreId) (b : Bool) (f : Ctx → Ctx) : (s.updBank c b f).issue = s.issue := rfl
@[simp] theorem State.updBank_inputs (s : State) (c : CoreId) (b : Bool) (f : Ctx → Ctx) : (s.updBank c b f).inputs = s.inputs := rfl
@[simp] theorem State.updBank_agenda (s : State) (c : CoreId) (b : Bool) (f : Ctx → Ctx) : (s.updBank c b f).agenda = s.agenda := rfl
@[simp] theorem State.updBank_delays (s : State) (c : CoreId) (b : Bool) (f : Ctx → Ctx) : (s.updBank c b f).delays = s.delays := rfl
@[simp] theorem State.updBank_free (s : State) (c : CoreId) (b : Bool) (f : Ctx → Ctx) : (s.updBank c b f).free = s.free := rfl
@[simp] theorem State.updBank_nextId (s : State) (c : CoreId) (b : Bool) (f : Ctx → Ctx) : (s.updBank c b f).nextId = s.nextId := rfl
@[simp] theorem State.updBank_mem (s : State) (c : CoreId) (b : Bool) (f : Ctx → Ctx) : (s.updBank c b f).mem = s.mem := rfl
@[simp] theorem State.updBank_poison (s : State) (c : CoreId) (b : Bool) (f : Ctx → Ctx) : (s.updBank c b f).poison = s.poison := rfl
@[simp] theorem State.updBank_flips (s : State) (c : CoreId) (b : Bool) (f : Ctx → Ctx) : (s.updBank c b f).flips = s.flips := rfl
@[simp] theorem State.updBank_fatals (s : State) (c : CoreId) (b : Bool) (f : Ctx → Ctx) : (s.updBank c b f).fatals = s.fatals := rfl
@[simp] theorem State.updBank_log (s : State) (c : CoreId) (b : Bool) (f : Ctx → Ctx) : (s.updBank c b f).log = s.log := rfl
@[simp] theorem State.updBank_homes (s : State) (c : CoreId) (b : Bool) (f : Ctx → Ctx) : (s.updBank c b f).homes = s.homes := rfl
@[simp] theorem State.updBank_hub (s : State) (c : CoreId) (b : Bool) (f : Ctx → Ctx) : (s.updBank c b f).hub = s.hub := rfl
@[simp] theorem State.updBank_tasks (s : State) (c : CoreId) (b : Bool) (f : Ctx → Ctx) : (s.updBank c b f).tasks = s.tasks := rfl

/-! #### updCur -/

@[simp] theorem State.updCur_now (s : State) (f : Stream → Stream) : (s.updCur f).now = s.now := rfl
@[simp] theorem State.updCur_turn (s : State) (f : Stream → Stream) : (s.updCur f).turn = s.turn := rfl
@[simp] theorem State.updCur_issue (s : State) (f : Stream → Stream) : (s.updCur f).issue = s.issue := rfl
@[simp] theorem State.updCur_inputs (s : State) (f : Stream → Stream) : (s.updCur f).inputs = s.inputs := rfl
@[simp] theorem State.updCur_agenda (s : State) (f : Stream → Stream) : (s.updCur f).agenda = s.agenda := rfl
@[simp] theorem State.updCur_delays (s : State) (f : Stream → Stream) : (s.updCur f).delays = s.delays := rfl
@[simp] theorem State.updCur_free (s : State) (f : Stream → Stream) : (s.updCur f).free = s.free := rfl
@[simp] theorem State.updCur_nextId (s : State) (f : Stream → Stream) : (s.updCur f).nextId = s.nextId := rfl
@[simp] theorem State.updCur_mem (s : State) (f : Stream → Stream) : (s.updCur f).mem = s.mem := rfl
@[simp] theorem State.updCur_poison (s : State) (f : Stream → Stream) : (s.updCur f).poison = s.poison := rfl
@[simp] theorem State.updCur_flips (s : State) (f : Stream → Stream) : (s.updCur f).flips = s.flips := rfl
@[simp] theorem State.updCur_fatals (s : State) (f : Stream → Stream) : (s.updCur f).fatals = s.fatals := rfl
@[simp] theorem State.updCur_log (s : State) (f : Stream → Stream) : (s.updCur f).log = s.log := rfl
@[simp] theorem State.updCur_homes (s : State) (f : Stream → Stream) : (s.updCur f).homes = s.homes := rfl
@[simp] theorem State.updCur_hub (s : State) (f : Stream → Stream) : (s.updCur f).hub = s.hub := rfl
@[simp] theorem State.updCur_tasks (s : State) (f : Stream → Stream) : (s.updCur f).tasks = s.tasks := rfl

/-! #### updCurCtx -/

@[simp] theorem State.updCurCtx_now (s : State) (f : Ctx → Ctx) : (s.updCurCtx f).now = s.now := rfl
@[simp] theorem State.updCurCtx_turn (s : State) (f : Ctx → Ctx) : (s.updCurCtx f).turn = s.turn := rfl
@[simp] theorem State.updCurCtx_issue (s : State) (f : Ctx → Ctx) : (s.updCurCtx f).issue = s.issue := rfl
@[simp] theorem State.updCurCtx_inputs (s : State) (f : Ctx → Ctx) : (s.updCurCtx f).inputs = s.inputs := rfl
@[simp] theorem State.updCurCtx_agenda (s : State) (f : Ctx → Ctx) : (s.updCurCtx f).agenda = s.agenda := rfl
@[simp] theorem State.updCurCtx_delays (s : State) (f : Ctx → Ctx) : (s.updCurCtx f).delays = s.delays := rfl
@[simp] theorem State.updCurCtx_free (s : State) (f : Ctx → Ctx) : (s.updCurCtx f).free = s.free := rfl
@[simp] theorem State.updCurCtx_nextId (s : State) (f : Ctx → Ctx) : (s.updCurCtx f).nextId = s.nextId := rfl
@[simp] theorem State.updCurCtx_mem (s : State) (f : Ctx → Ctx) : (s.updCurCtx f).mem = s.mem := rfl
@[simp] theorem State.updCurCtx_poison (s : State) (f : Ctx → Ctx) : (s.updCurCtx f).poison = s.poison := rfl
@[simp] theorem State.updCurCtx_flips (s : State) (f : Ctx → Ctx) : (s.updCurCtx f).flips = s.flips := rfl
@[simp] theorem State.updCurCtx_fatals (s : State) (f : Ctx → Ctx) : (s.updCurCtx f).fatals = s.fatals := rfl
@[simp] theorem State.updCurCtx_log (s : State) (f : Ctx → Ctx) : (s.updCurCtx f).log = s.log := rfl
@[simp] theorem State.updCurCtx_homes (s : State) (f : Ctx → Ctx) : (s.updCurCtx f).homes = s.homes := rfl
@[simp] theorem State.updCurCtx_hub (s : State) (f : Ctx → Ctx) : (s.updCurCtx f).hub = s.hub := rfl
@[simp] theorem State.updCurCtx_tasks (s : State) (f : Ctx → Ctx) : (s.updCurCtx f).tasks = s.tasks := rfl

/-! #### updCurCore -/

@[simp] theorem State.updCurCore_now (s : State) (f : Core → Core) : (s.updCurCore f).now = s.now := rfl
@[simp] theorem State.updCurCore_turn (s : State) (f : Core → Core) : (s.updCurCore f).turn = s.turn := rfl
@[simp] theorem State.updCurCore_issue (s : State) (f : Core → Core) : (s.updCurCore f).issue = s.issue := rfl
@[simp] theorem State.updCurCore_inputs (s : State) (f : Core → Core) : (s.updCurCore f).inputs = s.inputs := rfl
@[simp] theorem State.updCurCore_agenda (s : State) (f : Core → Core) : (s.updCurCore f).agenda = s.agenda := rfl
@[simp] theorem State.updCurCore_delays (s : State) (f : Core → Core) : (s.updCurCore f).delays = s.delays := rfl
@[simp] theorem State.updCurCore_free (s : State) (f : Core → Core) : (s.updCurCore f).free = s.free := rfl
@[simp] theorem State.updCurCore_nextId (s : State) (f : Core → Core) : (s.updCurCore f).nextId = s.nextId := rfl
@[simp] theorem State.updCurCore_mem (s : State) (f : Core → Core) : (s.updCurCore f).mem = s.mem := rfl
@[simp] theorem State.updCurCore_poison (s : State) (f : Core → Core) : (s.updCurCore f).poison = s.poison := rfl
@[simp] theorem State.updCurCore_flips (s : State) (f : Core → Core) : (s.updCurCore f).flips = s.flips := rfl
@[simp] theorem State.updCurCore_fatals (s : State) (f : Core → Core) : (s.updCurCore f).fatals = s.fatals := rfl
@[simp] theorem State.updCurCore_log (s : State) (f : Core → Core) : (s.updCurCore f).log = s.log := rfl
@[simp] theorem State.updCurCore_homes (s : State) (f : Core → Core) : (s.updCurCore f).homes = s.homes := rfl
@[simp] theorem State.updCurCore_hub (s : State) (f : Core → Core) : (s.updCurCore f).hub = s.hub := rfl
@[simp] theorem State.updCurCore_tasks (s : State) (f : Core → Core) : (s.updCurCore f).tasks = s.tasks := rfl

/-! #### updHome -/

@[simp] theorem State.updHome_now (s : State) (h : CoreId) (f : Home → Home) : (s.updHome h f).now = s.now := rfl
@[simp] theorem State.updHome_turn (s : State) (h : CoreId) (f : Home → Home) : (s.updHome h f).turn = s.turn := rfl
@[simp] theorem State.updHome_issue (s : State) (h : CoreId) (f : Home → Home) : (s.updHome h f).issue = s.issue := rfl
@[simp] theorem State.updHome_inputs (s : State) (h : CoreId) (f : Home → Home) : (s.updHome h f).inputs = s.inputs := rfl
@[simp] theorem State.updHome_agenda (s : State) (h : CoreId) (f : Home → Home) : (s.updHome h f).agenda = s.agenda := rfl
@[simp] theorem State.updHome_delays (s : State) (h : CoreId) (f : Home → Home) : (s.updHome h f).delays = s.delays := rfl
@[simp] theorem State.updHome_free (s : State) (h : CoreId) (f : Home → Home) : (s.updHome h f).free = s.free := rfl
@[simp] theorem State.updHome_nextId (s : State) (h : CoreId) (f : Home → Home) : (s.updHome h f).nextId = s.nextId := rfl
@[simp] theorem State.updHome_cores (s : State) (h : CoreId) (f : Home → Home) : (s.updHome h f).cores = s.cores := rfl
@[simp] theorem State.updHome_mem (s : State) (h : CoreId) (f : Home → Home) : (s.updHome h f).mem = s.mem := rfl
@[simp] theorem State.updHome_poison (s : State) (h : CoreId) (f : Home → Home) : (s.updHome h f).poison = s.poison := rfl
@[simp] theorem State.updHome_flips (s : State) (h : CoreId) (f : Home → Home) : (s.updHome h f).flips = s.flips := rfl
@[simp] theorem State.updHome_fatals (s : State) (h : CoreId) (f : Home → Home) : (s.updHome h f).fatals = s.fatals := rfl
@[simp] theorem State.updHome_log (s : State) (h : CoreId) (f : Home → Home) : (s.updHome h f).log = s.log := rfl
@[simp] theorem State.updHome_hub (s : State) (h : CoreId) (f : Home → Home) : (s.updHome h f).hub = s.hub := rfl
@[simp] theorem State.updHome_tasks (s : State) (h : CoreId) (f : Home → Home) : (s.updHome h f).tasks = s.tasks := rfl

/-! #### updHub -/

@[simp] theorem State.updHub_now (s : State) (f : Hub → Hub) : (s.updHub f).now = s.now := rfl
@[simp] theorem State.updHub_turn (s : State) (f : Hub → Hub) : (s.updHub f).turn = s.turn := rfl
@[simp] theorem State.updHub_issue (s : State) (f : Hub → Hub) : (s.updHub f).issue = s.issue := rfl
@[simp] theorem State.updHub_inputs (s : State) (f : Hub → Hub) : (s.updHub f).inputs = s.inputs := rfl
@[simp] theorem State.updHub_agenda (s : State) (f : Hub → Hub) : (s.updHub f).agenda = s.agenda := rfl
@[simp] theorem State.updHub_delays (s : State) (f : Hub → Hub) : (s.updHub f).delays = s.delays := rfl
@[simp] theorem State.updHub_free (s : State) (f : Hub → Hub) : (s.updHub f).free = s.free := rfl
@[simp] theorem State.updHub_nextId (s : State) (f : Hub → Hub) : (s.updHub f).nextId = s.nextId := rfl
@[simp] theorem State.updHub_cores (s : State) (f : Hub → Hub) : (s.updHub f).cores = s.cores := rfl
@[simp] theorem State.updHub_mem (s : State) (f : Hub → Hub) : (s.updHub f).mem = s.mem := rfl
@[simp] theorem State.updHub_poison (s : State) (f : Hub → Hub) : (s.updHub f).poison = s.poison := rfl
@[simp] theorem State.updHub_flips (s : State) (f : Hub → Hub) : (s.updHub f).flips = s.flips := rfl
@[simp] theorem State.updHub_fatals (s : State) (f : Hub → Hub) : (s.updHub f).fatals = s.fatals := rfl
@[simp] theorem State.updHub_log (s : State) (f : Hub → Hub) : (s.updHub f).log = s.log := rfl
@[simp] theorem State.updHub_homes (s : State) (f : Hub → Hub) : (s.updHub f).homes = s.homes := rfl
@[simp] theorem State.updHub_tasks (s : State) (f : Hub → Hub) : (s.updHub f).tasks = s.tasks := rfl

/-! #### setStatus -/

@[simp] theorem State.setStatus_now (s : State) (i : IssueStatus) : (s.setStatus i).now = s.now := rfl
@[simp] theorem State.setStatus_turn (s : State) (i : IssueStatus) : (s.setStatus i).turn = s.turn := rfl
@[simp] theorem State.setStatus_inputs (s : State) (i : IssueStatus) : (s.setStatus i).inputs = s.inputs := rfl
@[simp] theorem State.setStatus_agenda (s : State) (i : IssueStatus) : (s.setStatus i).agenda = s.agenda := rfl
@[simp] theorem State.setStatus_delays (s : State) (i : IssueStatus) : (s.setStatus i).delays = s.delays := rfl
@[simp] theorem State.setStatus_free (s : State) (i : IssueStatus) : (s.setStatus i).free = s.free := rfl
@[simp] theorem State.setStatus_nextId (s : State) (i : IssueStatus) : (s.setStatus i).nextId = s.nextId := rfl
@[simp] theorem State.setStatus_cores (s : State) (i : IssueStatus) : (s.setStatus i).cores = s.cores := rfl
@[simp] theorem State.setStatus_mem (s : State) (i : IssueStatus) : (s.setStatus i).mem = s.mem := rfl
@[simp] theorem State.setStatus_poison (s : State) (i : IssueStatus) : (s.setStatus i).poison = s.poison := rfl
@[simp] theorem State.setStatus_flips (s : State) (i : IssueStatus) : (s.setStatus i).flips = s.flips := rfl
@[simp] theorem State.setStatus_fatals (s : State) (i : IssueStatus) : (s.setStatus i).fatals = s.fatals := rfl
@[simp] theorem State.setStatus_log (s : State) (i : IssueStatus) : (s.setStatus i).log = s.log := rfl
@[simp] theorem State.setStatus_homes (s : State) (i : IssueStatus) : (s.setStatus i).homes = s.homes := rfl
@[simp] theorem State.setStatus_hub (s : State) (i : IssueStatus) : (s.setStatus i).hub = s.hub := rfl
@[simp] theorem State.setStatus_tasks (s : State) (i : IssueStatus) : (s.setStatus i).tasks = s.tasks := rfl

/-! #### emit -/

@[simp] theorem State.emit_now (s : State) (n : Nat) (d : Dest) : (s.emit n d).now = s.now := rfl
@[simp] theorem State.emit_turn (s : State) (n : Nat) (d : Dest) : (s.emit n d).turn = s.turn := rfl
@[simp] theorem State.emit_issue (s : State) (n : Nat) (d : Dest) : (s.emit n d).issue = s.issue := rfl
@[simp] theorem State.emit_inputs (s : State) (n : Nat) (d : Dest) : (s.emit n d).inputs = s.inputs := rfl
@[simp] theorem State.emit_agenda (s : State) (n : Nat) (d : Dest) : (s.emit n d).agenda = s.agenda := rfl
@[simp] theorem State.emit_delays (s : State) (n : Nat) (d : Dest) : (s.emit n d).delays = s.delays := rfl
@[simp] theorem State.emit_free (s : State) (n : Nat) (d : Dest) : (s.emit n d).free = s.free := rfl
@[simp] theorem State.emit_nextId (s : State) (n : Nat) (d : Dest) : (s.emit n d).nextId = s.nextId := rfl
@[simp] theorem State.emit_mem (s : State) (n : Nat) (d : Dest) : (s.emit n d).mem = s.mem := rfl
@[simp] theorem State.emit_poison (s : State) (n : Nat) (d : Dest) : (s.emit n d).poison = s.poison := rfl
@[simp] theorem State.emit_flips (s : State) (n : Nat) (d : Dest) : (s.emit n d).flips = s.flips := rfl
@[simp] theorem State.emit_fatals (s : State) (n : Nat) (d : Dest) : (s.emit n d).fatals = s.fatals := rfl
@[simp] theorem State.emit_log (s : State) (n : Nat) (d : Dest) : (s.emit n d).log = s.log := rfl
@[simp] theorem State.emit_homes (s : State) (n : Nat) (d : Dest) : (s.emit n d).homes = s.homes := rfl
@[simp] theorem State.emit_hub (s : State) (n : Nat) (d : Dest) : (s.emit n d).hub = s.hub := rfl
@[simp] theorem State.emit_tasks (s : State) (n : Nat) (d : Dest) : (s.emit n d).tasks = s.tasks := rfl

/-! #### after -/

@[simp] theorem State.after_now (s : State) (i : Instr) : (s.after i).now = s.now := rfl
@[simp] theorem State.after_turn (s : State) (i : Instr) : (s.after i).turn = s.turn := rfl
@[simp] theorem State.after_issue (s : State) (i : Instr) : (s.after i).issue = s.issue := rfl
@[simp] theorem State.after_inputs (s : State) (i : Instr) : (s.after i).inputs = s.inputs := rfl
@[simp] theorem State.after_free (s : State) (i : Instr) : (s.after i).free = s.free := rfl
@[simp] theorem State.after_nextId (s : State) (i : Instr) : (s.after i).nextId = s.nextId := rfl
@[simp] theorem State.after_cores (s : State) (i : Instr) : (s.after i).cores = s.cores := rfl
@[simp] theorem State.after_mem (s : State) (i : Instr) : (s.after i).mem = s.mem := rfl
@[simp] theorem State.after_poison (s : State) (i : Instr) : (s.after i).poison = s.poison := rfl
@[simp] theorem State.after_flips (s : State) (i : Instr) : (s.after i).flips = s.flips := rfl
@[simp] theorem State.after_fatals (s : State) (i : Instr) : (s.after i).fatals = s.fatals := rfl
@[simp] theorem State.after_log (s : State) (i : Instr) : (s.after i).log = s.log := rfl
@[simp] theorem State.after_homes (s : State) (i : Instr) : (s.after i).homes = s.homes := rfl
@[simp] theorem State.after_hub (s : State) (i : Instr) : (s.after i).hub = s.hub := rfl
@[simp] theorem State.after_tasks (s : State) (i : Instr) : (s.after i).tasks = s.tasks := rfl

/-! #### afterN -/

@[simp] theorem State.afterN_now (s : State) (n : Nat) (i : Instr) : (s.afterN n i).now = s.now := rfl
@[simp] theorem State.afterN_turn (s : State) (n : Nat) (i : Instr) : (s.afterN n i).turn = s.turn := rfl
@[simp] theorem State.afterN_issue (s : State) (n : Nat) (i : Instr) : (s.afterN n i).issue = s.issue := rfl
@[simp] theorem State.afterN_inputs (s : State) (n : Nat) (i : Instr) : (s.afterN n i).inputs = s.inputs := rfl
@[simp] theorem State.afterN_delays (s : State) (n : Nat) (i : Instr) : (s.afterN n i).delays = s.delays := rfl
@[simp] theorem State.afterN_free (s : State) (n : Nat) (i : Instr) : (s.afterN n i).free = s.free := rfl
@[simp] theorem State.afterN_nextId (s : State) (n : Nat) (i : Instr) : (s.afterN n i).nextId = s.nextId := rfl
@[simp] theorem State.afterN_cores (s : State) (n : Nat) (i : Instr) : (s.afterN n i).cores = s.cores := rfl
@[simp] theorem State.afterN_mem (s : State) (n : Nat) (i : Instr) : (s.afterN n i).mem = s.mem := rfl
@[simp] theorem State.afterN_poison (s : State) (n : Nat) (i : Instr) : (s.afterN n i).poison = s.poison := rfl
@[simp] theorem State.afterN_flips (s : State) (n : Nat) (i : Instr) : (s.afterN n i).flips = s.flips := rfl
@[simp] theorem State.afterN_fatals (s : State) (n : Nat) (i : Instr) : (s.afterN n i).fatals = s.fatals := rfl
@[simp] theorem State.afterN_log (s : State) (n : Nat) (i : Instr) : (s.afterN n i).log = s.log := rfl
@[simp] theorem State.afterN_homes (s : State) (n : Nat) (i : Instr) : (s.afterN n i).homes = s.homes := rfl
@[simp] theorem State.afterN_hub (s : State) (n : Nat) (i : Instr) : (s.afterN n i).hub = s.hub := rfl
@[simp] theorem State.afterN_tasks (s : State) (n : Nat) (i : Instr) : (s.afterN n i).tasks = s.tasks := rfl

/-! #### afterAtMost -/

@[simp] theorem State.afterAtMost_now (s : State) (n : Nat) (i : Instr) : (s.afterAtMost n i).now = s.now := rfl
@[simp] theorem State.afterAtMost_turn (s : State) (n : Nat) (i : Instr) : (s.afterAtMost n i).turn = s.turn := rfl
@[simp] theorem State.afterAtMost_issue (s : State) (n : Nat) (i : Instr) : (s.afterAtMost n i).issue = s.issue := rfl
@[simp] theorem State.afterAtMost_inputs (s : State) (n : Nat) (i : Instr) : (s.afterAtMost n i).inputs = s.inputs := rfl
@[simp] theorem State.afterAtMost_free (s : State) (n : Nat) (i : Instr) : (s.afterAtMost n i).free = s.free := rfl
@[simp] theorem State.afterAtMost_nextId (s : State) (n : Nat) (i : Instr) : (s.afterAtMost n i).nextId = s.nextId := rfl
@[simp] theorem State.afterAtMost_cores (s : State) (n : Nat) (i : Instr) : (s.afterAtMost n i).cores = s.cores := rfl
@[simp] theorem State.afterAtMost_mem (s : State) (n : Nat) (i : Instr) : (s.afterAtMost n i).mem = s.mem := rfl
@[simp] theorem State.afterAtMost_poison (s : State) (n : Nat) (i : Instr) : (s.afterAtMost n i).poison = s.poison := rfl
@[simp] theorem State.afterAtMost_flips (s : State) (n : Nat) (i : Instr) : (s.afterAtMost n i).flips = s.flips := rfl
@[simp] theorem State.afterAtMost_fatals (s : State) (n : Nat) (i : Instr) : (s.afterAtMost n i).fatals = s.fatals := rfl
@[simp] theorem State.afterAtMost_log (s : State) (n : Nat) (i : Instr) : (s.afterAtMost n i).log = s.log := rfl
@[simp] theorem State.afterAtMost_homes (s : State) (n : Nat) (i : Instr) : (s.afterAtMost n i).homes = s.homes := rfl
@[simp] theorem State.afterAtMost_hub (s : State) (n : Nat) (i : Instr) : (s.afterAtMost n i).hub = s.hub := rfl
@[simp] theorem State.afterAtMost_tasks (s : State) (n : Nat) (i : Instr) : (s.afterAtMost n i).tasks = s.tasks := rfl

/-! #### afterWithin -/

@[simp] theorem State.afterWithin_now (s : State) (lo hi : Nat) (i : Instr) : (s.afterWithin lo hi i).now = s.now := rfl
@[simp] theorem State.afterWithin_turn (s : State) (lo hi : Nat) (i : Instr) : (s.afterWithin lo hi i).turn = s.turn := rfl
@[simp] theorem State.afterWithin_issue (s : State) (lo hi : Nat) (i : Instr) : (s.afterWithin lo hi i).issue = s.issue := rfl
@[simp] theorem State.afterWithin_inputs (s : State) (lo hi : Nat) (i : Instr) : (s.afterWithin lo hi i).inputs = s.inputs := rfl
@[simp] theorem State.afterWithin_free (s : State) (lo hi : Nat) (i : Instr) : (s.afterWithin lo hi i).free = s.free := rfl
@[simp] theorem State.afterWithin_nextId (s : State) (lo hi : Nat) (i : Instr) : (s.afterWithin lo hi i).nextId = s.nextId := rfl
@[simp] theorem State.afterWithin_cores (s : State) (lo hi : Nat) (i : Instr) : (s.afterWithin lo hi i).cores = s.cores := rfl
@[simp] theorem State.afterWithin_mem (s : State) (lo hi : Nat) (i : Instr) : (s.afterWithin lo hi i).mem = s.mem := rfl
@[simp] theorem State.afterWithin_poison (s : State) (lo hi : Nat) (i : Instr) : (s.afterWithin lo hi i).poison = s.poison := rfl
@[simp] theorem State.afterWithin_flips (s : State) (lo hi : Nat) (i : Instr) : (s.afterWithin lo hi i).flips = s.flips := rfl
@[simp] theorem State.afterWithin_fatals (s : State) (lo hi : Nat) (i : Instr) : (s.afterWithin lo hi i).fatals = s.fatals := rfl
@[simp] theorem State.afterWithin_log (s : State) (lo hi : Nat) (i : Instr) : (s.afterWithin lo hi i).log = s.log := rfl
@[simp] theorem State.afterWithin_homes (s : State) (lo hi : Nat) (i : Instr) : (s.afterWithin lo hi i).homes = s.homes := rfl
@[simp] theorem State.afterWithin_hub (s : State) (lo hi : Nat) (i : Instr) : (s.afterWithin lo hi i).hub = s.hub := rfl
@[simp] theorem State.afterWithin_tasks (s : State) (lo hi : Nat) (i : Instr) : (s.afterWithin lo hi i).tasks = s.tasks := rfl

/-! #### updGroup -/

@[simp] theorem State.updGroup_now (s : State) (n : Nat) (f : Group → Group) : (s.updGroup n f).now = s.now := rfl
@[simp] theorem State.updGroup_turn (s : State) (n : Nat) (f : Group → Group) : (s.updGroup n f).turn = s.turn := rfl
@[simp] theorem State.updGroup_issue (s : State) (n : Nat) (f : Group → Group) : (s.updGroup n f).issue = s.issue := rfl
@[simp] theorem State.updGroup_inputs (s : State) (n : Nat) (f : Group → Group) : (s.updGroup n f).inputs = s.inputs := rfl
@[simp] theorem State.updGroup_agenda (s : State) (n : Nat) (f : Group → Group) : (s.updGroup n f).agenda = s.agenda := rfl
@[simp] theorem State.updGroup_delays (s : State) (n : Nat) (f : Group → Group) : (s.updGroup n f).delays = s.delays := rfl
@[simp] theorem State.updGroup_free (s : State) (n : Nat) (f : Group → Group) : (s.updGroup n f).free = s.free := rfl
@[simp] theorem State.updGroup_nextId (s : State) (n : Nat) (f : Group → Group) : (s.updGroup n f).nextId = s.nextId := rfl
@[simp] theorem State.updGroup_cores (s : State) (n : Nat) (f : Group → Group) : (s.updGroup n f).cores = s.cores := rfl
@[simp] theorem State.updGroup_mem (s : State) (n : Nat) (f : Group → Group) : (s.updGroup n f).mem = s.mem := rfl
@[simp] theorem State.updGroup_poison (s : State) (n : Nat) (f : Group → Group) : (s.updGroup n f).poison = s.poison := rfl
@[simp] theorem State.updGroup_flips (s : State) (n : Nat) (f : Group → Group) : (s.updGroup n f).flips = s.flips := rfl
@[simp] theorem State.updGroup_fatals (s : State) (n : Nat) (f : Group → Group) : (s.updGroup n f).fatals = s.fatals := rfl
@[simp] theorem State.updGroup_log (s : State) (n : Nat) (f : Group → Group) : (s.updGroup n f).log = s.log := rfl
@[simp] theorem State.updGroup_homes (s : State) (n : Nat) (f : Group → Group) : (s.updGroup n f).homes = s.homes := rfl
@[simp] theorem State.updGroup_tasks (s : State) (n : Nat) (f : Group → Group) : (s.updGroup n f).tasks = s.tasks := rfl

/-! #### updStriker -/

@[simp] theorem State.updStriker_now (s : State) (n : Nat) (f : Striker → Striker) : (s.updStriker n f).now = s.now := rfl
@[simp] theorem State.updStriker_turn (s : State) (n : Nat) (f : Striker → Striker) : (s.updStriker n f).turn = s.turn := rfl
@[simp] theorem State.updStriker_issue (s : State) (n : Nat) (f : Striker → Striker) : (s.updStriker n f).issue = s.issue := rfl
@[simp] theorem State.updStriker_inputs (s : State) (n : Nat) (f : Striker → Striker) : (s.updStriker n f).inputs = s.inputs := rfl
@[simp] theorem State.updStriker_agenda (s : State) (n : Nat) (f : Striker → Striker) : (s.updStriker n f).agenda = s.agenda := rfl
@[simp] theorem State.updStriker_delays (s : State) (n : Nat) (f : Striker → Striker) : (s.updStriker n f).delays = s.delays := rfl
@[simp] theorem State.updStriker_free (s : State) (n : Nat) (f : Striker → Striker) : (s.updStriker n f).free = s.free := rfl
@[simp] theorem State.updStriker_nextId (s : State) (n : Nat) (f : Striker → Striker) : (s.updStriker n f).nextId = s.nextId := rfl
@[simp] theorem State.updStriker_cores (s : State) (n : Nat) (f : Striker → Striker) : (s.updStriker n f).cores = s.cores := rfl
@[simp] theorem State.updStriker_mem (s : State) (n : Nat) (f : Striker → Striker) : (s.updStriker n f).mem = s.mem := rfl
@[simp] theorem State.updStriker_poison (s : State) (n : Nat) (f : Striker → Striker) : (s.updStriker n f).poison = s.poison := rfl
@[simp] theorem State.updStriker_flips (s : State) (n : Nat) (f : Striker → Striker) : (s.updStriker n f).flips = s.flips := rfl
@[simp] theorem State.updStriker_fatals (s : State) (n : Nat) (f : Striker → Striker) : (s.updStriker n f).fatals = s.fatals := rfl
@[simp] theorem State.updStriker_log (s : State) (n : Nat) (f : Striker → Striker) : (s.updStriker n f).log = s.log := rfl
@[simp] theorem State.updStriker_homes (s : State) (n : Nat) (f : Striker → Striker) : (s.updStriker n f).homes = s.homes := rfl
@[simp] theorem State.updStriker_tasks (s : State) (n : Nat) (f : Striker → Striker) : (s.updStriker n f).tasks = s.tasks := rfl

/-! #### cancelEvent -/

@[simp] theorem State.cancelEvent_now (s : State) (i : Instr) : (s.cancelEvent i).now = s.now := rfl
@[simp] theorem State.cancelEvent_turn (s : State) (i : Instr) : (s.cancelEvent i).turn = s.turn := rfl
@[simp] theorem State.cancelEvent_issue (s : State) (i : Instr) : (s.cancelEvent i).issue = s.issue := rfl
@[simp] theorem State.cancelEvent_inputs (s : State) (i : Instr) : (s.cancelEvent i).inputs = s.inputs := rfl
@[simp] theorem State.cancelEvent_delays (s : State) (i : Instr) : (s.cancelEvent i).delays = s.delays := rfl
@[simp] theorem State.cancelEvent_free (s : State) (i : Instr) : (s.cancelEvent i).free = s.free := rfl
@[simp] theorem State.cancelEvent_nextId (s : State) (i : Instr) : (s.cancelEvent i).nextId = s.nextId := rfl
@[simp] theorem State.cancelEvent_cores (s : State) (i : Instr) : (s.cancelEvent i).cores = s.cores := rfl
@[simp] theorem State.cancelEvent_mem (s : State) (i : Instr) : (s.cancelEvent i).mem = s.mem := rfl
@[simp] theorem State.cancelEvent_poison (s : State) (i : Instr) : (s.cancelEvent i).poison = s.poison := rfl
@[simp] theorem State.cancelEvent_flips (s : State) (i : Instr) : (s.cancelEvent i).flips = s.flips := rfl
@[simp] theorem State.cancelEvent_fatals (s : State) (i : Instr) : (s.cancelEvent i).fatals = s.fatals := rfl
@[simp] theorem State.cancelEvent_log (s : State) (i : Instr) : (s.cancelEvent i).log = s.log := rfl
@[simp] theorem State.cancelEvent_homes (s : State) (i : Instr) : (s.cancelEvent i).homes = s.homes := rfl
@[simp] theorem State.cancelEvent_hub (s : State) (i : Instr) : (s.cancelEvent i).hub = s.hub := rfl
@[simp] theorem State.cancelEvent_tasks (s : State) (i : Instr) : (s.cancelEvent i).tasks = s.tasks := rfl

/-! #### drawFree -/

@[simp] theorem State.drawFree_now (s : State) : (s.drawFree).now = s.now := rfl
@[simp] theorem State.drawFree_turn (s : State) : (s.drawFree).turn = s.turn := rfl
@[simp] theorem State.drawFree_issue (s : State) : (s.drawFree).issue = s.issue := rfl
@[simp] theorem State.drawFree_inputs (s : State) : (s.drawFree).inputs = s.inputs := rfl
@[simp] theorem State.drawFree_agenda (s : State) : (s.drawFree).agenda = s.agenda := rfl
@[simp] theorem State.drawFree_delays (s : State) : (s.drawFree).delays = s.delays := rfl
@[simp] theorem State.drawFree_nextId (s : State) : (s.drawFree).nextId = s.nextId := rfl
@[simp] theorem State.drawFree_cores (s : State) : (s.drawFree).cores = s.cores := rfl
@[simp] theorem State.drawFree_mem (s : State) : (s.drawFree).mem = s.mem := rfl
@[simp] theorem State.drawFree_poison (s : State) : (s.drawFree).poison = s.poison := rfl
@[simp] theorem State.drawFree_flips (s : State) : (s.drawFree).flips = s.flips := rfl
@[simp] theorem State.drawFree_fatals (s : State) : (s.drawFree).fatals = s.fatals := rfl
@[simp] theorem State.drawFree_log (s : State) : (s.drawFree).log = s.log := rfl
@[simp] theorem State.drawFree_homes (s : State) : (s.drawFree).homes = s.homes := rfl
@[simp] theorem State.drawFree_hub (s : State) : (s.drawFree).hub = s.hub := rfl
@[simp] theorem State.drawFree_tasks (s : State) : (s.drawFree).tasks = s.tasks := rfl

/-! #### msix -/

@[simp] theorem State.msix_now (s : State) (v : Nat) : (s.msix v).now = s.now := rfl
@[simp] theorem State.msix_turn (s : State) (v : Nat) : (s.msix v).turn = s.turn := rfl
@[simp] theorem State.msix_issue (s : State) (v : Nat) : (s.msix v).issue = s.issue := rfl
@[simp] theorem State.msix_inputs (s : State) (v : Nat) : (s.msix v).inputs = s.inputs := rfl
@[simp] theorem State.msix_agenda (s : State) (v : Nat) : (s.msix v).agenda = s.agenda := rfl
@[simp] theorem State.msix_delays (s : State) (v : Nat) : (s.msix v).delays = s.delays := rfl
@[simp] theorem State.msix_free (s : State) (v : Nat) : (s.msix v).free = s.free := rfl
@[simp] theorem State.msix_nextId (s : State) (v : Nat) : (s.msix v).nextId = s.nextId := rfl
@[simp] theorem State.msix_cores (s : State) (v : Nat) : (s.msix v).cores = s.cores := rfl
@[simp] theorem State.msix_mem (s : State) (v : Nat) : (s.msix v).mem = s.mem := rfl
@[simp] theorem State.msix_poison (s : State) (v : Nat) : (s.msix v).poison = s.poison := rfl
@[simp] theorem State.msix_flips (s : State) (v : Nat) : (s.msix v).flips = s.flips := rfl
@[simp] theorem State.msix_fatals (s : State) (v : Nat) : (s.msix v).fatals = s.fatals := rfl
@[simp] theorem State.msix_log (s : State) (v : Nat) : (s.msix v).log = s.log := rfl
@[simp] theorem State.msix_homes (s : State) (v : Nat) : (s.msix v).homes = s.homes := rfl
@[simp] theorem State.msix_tasks (s : State) (v : Nat) : (s.msix v).tasks = s.tasks := rfl

/-! #### updTask -/

@[simp] theorem State.updTask_now (s : State) (k : Nat) (f : Task → Task) : (s.updTask k f).now = s.now := rfl
@[simp] theorem State.updTask_turn (s : State) (k : Nat) (f : Task → Task) : (s.updTask k f).turn = s.turn := rfl
@[simp] theorem State.updTask_issue (s : State) (k : Nat) (f : Task → Task) : (s.updTask k f).issue = s.issue := rfl
@[simp] theorem State.updTask_inputs (s : State) (k : Nat) (f : Task → Task) : (s.updTask k f).inputs = s.inputs := rfl
@[simp] theorem State.updTask_agenda (s : State) (k : Nat) (f : Task → Task) : (s.updTask k f).agenda = s.agenda := rfl
@[simp] theorem State.updTask_delays (s : State) (k : Nat) (f : Task → Task) : (s.updTask k f).delays = s.delays := rfl
@[simp] theorem State.updTask_free (s : State) (k : Nat) (f : Task → Task) : (s.updTask k f).free = s.free := rfl
@[simp] theorem State.updTask_nextId (s : State) (k : Nat) (f : Task → Task) : (s.updTask k f).nextId = s.nextId := rfl
@[simp] theorem State.updTask_cores (s : State) (k : Nat) (f : Task → Task) : (s.updTask k f).cores = s.cores := rfl
@[simp] theorem State.updTask_mem (s : State) (k : Nat) (f : Task → Task) : (s.updTask k f).mem = s.mem := rfl
@[simp] theorem State.updTask_poison (s : State) (k : Nat) (f : Task → Task) : (s.updTask k f).poison = s.poison := rfl
@[simp] theorem State.updTask_flips (s : State) (k : Nat) (f : Task → Task) : (s.updTask k f).flips = s.flips := rfl
@[simp] theorem State.updTask_fatals (s : State) (k : Nat) (f : Task → Task) : (s.updTask k f).fatals = s.fatals := rfl
@[simp] theorem State.updTask_log (s : State) (k : Nat) (f : Task → Task) : (s.updTask k f).log = s.log := rfl
@[simp] theorem State.updTask_homes (s : State) (k : Nat) (f : Task → Task) : (s.updTask k f).homes = s.homes := rfl
@[simp] theorem State.updTask_hub (s : State) (k : Nat) (f : Task → Task) : (s.updTask k f).hub = s.hub := rfl

/-! ### Reads after writes -/

@[simp] theorem State.core_updCore (s : State) (c : CoreId) (f : Core → Core) : (s.updCore c f).core c = f (s.core c) := by
  simp [State.core, State.updCore]

theorem State.core_updCore_ne (s : State) {c k : CoreId} (f : Core → Core) (h : k ≠ c) : (s.updCore c f).core k = s.core k := by
  have : c.val ≠ k.val := fun e => h (Fin.ext e.symm)
  simp [State.core, State.updCore, this]

@[simp] theorem State.ctx_updCtx (s : State) (c : CoreId) (f : Ctx → Ctx) : (s.updCtx c f).ctx c = f (s.ctx c) := by
  simp [State.ctx, State.updCtx, Core.updCtx]

theorem State.core_updCtx (s : State) (c : CoreId) (f : Ctx → Ctx) : (s.updCtx c f).core c = (s.core c).updCtx f := by
  simp [State.updCtx]

theorem State.core_updCtx_ne (s : State) {c k : CoreId} (f : Ctx → Ctx) (h : k ≠ c) : (s.updCtx c f).core k = s.core k :=
  State.core_updCore_ne s _ h

theorem State.ctx_updCtx_ne (s : State) {c k : CoreId} (f : Ctx → Ctx) (h : k ≠ c) : (s.updCtx c f).ctx k = s.ctx k := by
  simp [State.ctx, State.core_updCtx_ne s f h]

@[simp] theorem Ctx.stream_updStream (x : Ctx) (b : Bool) (f : Stream → Stream) : (x.updStream b f).stream b = f (x.stream b) := by
  cases b <;> rfl

theorem Ctx.stream_updStream_ne (x : Ctx) {b q : Bool} (f : Stream → Stream) (h : q ≠ b) :
    (x.updStream b f).stream q = x.stream q := by
  cases b <;> cases q <;> first | rfl | exact absurd rfl h

@[simp] theorem State.stream_updStream (s : State) (c : CoreId) (b : Bool) (f : Stream → Stream) :
    (s.updStream c b f).stream c b = f (s.stream c b) := by
  simp [State.stream, State.updStream]

theorem State.stream_updStream_ne (s : State) {c k : CoreId} {b q : Bool} (f : Stream → Stream) (h : k ≠ c ∨ q ≠ b) :
    (s.updStream c b f).stream k q = s.stream k q := by
  by_cases hk : k = c
  · subst hk
    have hq : q ≠ b := h.resolve_left (fun h => h rfl)
    simp [State.stream, State.updStream, Ctx.stream_updStream_ne _ f hq]
  · simp [State.stream, State.updStream, State.ctx_updCtx_ne s _ hk]

@[simp] theorem State.cur_updCur (s : State) (f : Stream → Stream) : (s.updCur f).cur = f s.cur := by
  simp [State.cur, State.updCur]

@[simp] theorem State.curCtx_updCurCtx (s : State) (f : Ctx → Ctx) : (s.updCurCtx f).curCtx = f s.curCtx := by
  simp [State.curCtx, State.updCurCtx]

@[simp] theorem State.curCore_updCurCore (s : State) (f : Core → Core) : (s.updCurCore f).curCore = f s.curCore := by
  simp [State.curCore, State.updCurCore]

@[simp] theorem State.home_updHome (s : State) (h : CoreId) (f : Home → Home) : (s.updHome h f).home h = f (s.home h) := by
  simp [State.home, State.updHome]

theorem State.home_updHome_ne (s : State) {h k : CoreId} (f : Home → Home) (e : k ≠ h) : (s.updHome h f).home k = s.home k := by
  have : h.val ≠ k.val := fun q => e (Fin.ext q.symm)
  simp [State.home, State.updHome, this]

@[simp] theorem State.cur_emit (s : State) (n : Nat) (d : Dest) : (s.emit n d).cur = s.cur.emit n d := by
  simp [State.emit]

@[simp] theorem State.cur_setStatus (s : State) (i : IssueStatus) : (s.setStatus i).cur = s.cur := rfl

@[simp] theorem State.curCtx_setStatus (s : State) (i : IssueStatus) : (s.setStatus i).curCtx = s.curCtx := rfl

@[simp] theorem State.core_setStatus (s : State) (i : IssueStatus) (c : CoreId) : (s.setStatus i).core c = s.core c := rfl

@[simp] theorem State.ctx_setStatus (s : State) (i : IssueStatus) (c : CoreId) : (s.setStatus i).ctx c = s.ctx c := rfl

@[simp] theorem State.stream_setStatus (s : State) (i : IssueStatus) (c : CoreId) (b : Bool) :
    (s.setStatus i).stream c b = s.stream c b := rfl

/-! ### Registers -/

@[simp] theorem Stream.rs_zero (x : Stream) : x.rs 0 = 0 := rfl

/-- A scalar register after a write (R165): s0 stays zero. -/
theorem Stream.rs_ws (x : Stream) (r q : BitVec 6) (v : Word) :
    (x.ws r v).rs q = if q = r ∧ r ≠ 0#6 then v else x.rs q := by
  unfold Stream.ws Stream.rs
  by_cases hr : r = 0#6
  · simp [hr]
  · by_cases hq : q = 0#6
    · have : ¬ (0#6 = r) := fun h => hr h.symm
      simp [hq, hr, this]
    · by_cases e : q = r
      · subst e; simp [hr]
      · have : r.toNat ≠ q.toNat := fun h => e (BitVec.eq_of_toNat_eq h.symm)
        simp [hr, hq, e, this]

@[simp] theorem Stream.rp_seven (x : Stream) : x.rp 7 = true := rfl

/-- A predicate after a masked write (R165): p7 stays true. -/
theorem Stream.rp_wp (x : Stream) (mask val : BitVec 7) (i : BitVec 3) :
    (x.wp mask val).rp i = if i = 7#3 then true else if mask.getLsbD i.toNat then val.getLsbD i.toNat else x.rp i := by
  unfold Stream.wp Stream.rp
  by_cases h : i = 7#3
  · simp [h]
  · have hi : i.toNat < 7 := by
      have := i.isLt
      have : i.toNat ≠ 7 := fun e => h (BitVec.eq_of_toNat_eq e)
      omega
    cases hm : mask[i.toNat] <;> simp [h, hm, hi]

@[simp] theorem Ctx.rm_zero (x : Ctx) : x.rm 0 = BitVec.allOnes 512 := rfl

/-- A mask register after a masked write (R154): m0 stays all ones. -/
theorem Ctx.rm_wm (x : Ctx) (i j : BitVec 3) (mask val : BitVec 512) :
    (x.wm i mask val).rm j = if j = i ∧ i ≠ 0#3 then (x.rm j &&& ~~~mask) ||| (val &&& mask) else x.rm j := by
  unfold Ctx.wm Ctx.rm
  by_cases hi : i = 0#3
  · simp [hi]
  · by_cases hj : j = 0#3
    · have : ¬ (0#3 = i) := fun h => hi h.symm
      simp [hj, hi, this]
    · by_cases e : j = i
      · subst e; simp [hj]
      · have : i.toNat ≠ j.toNat := fun h => e (BitVec.eq_of_toNat_eq h.symm)
        simp [hi, hj, e, this]

/-- A vector register after a masked write (R153). -/
theorem Ctx.rv_wv (x : Ctx) (r q : BitVec 6) (mask val : BitVec 8192) :
    (x.wv r mask val).rv q = if q = r then (x.rv q &&& ~~~mask) ||| (val &&& mask) else x.rv q := by
  unfold Ctx.wv Ctx.rv
  by_cases e : q = r
  · subst e; simp
  · have : r.toNat ≠ q.toNat := fun h => e (BitVec.eq_of_toNat_eq h.symm)
    simp [e, this]

end Sys2Proof.Machine
end

