-- ==== Sys2Proof/Laws/Tables.lean ====
section
/-! SUPPORT. Laws of sparse tables and of memory: read after write, and every operation keeps the canonical form. -/

namespace Sys2Proof.Machine

/-! ### Sparse tables -/

theorem twfFrom_mono {β : Type} [DecidableEq β] {d : β} {t : Table β} {lo lo' : Nat} (h : lo' ≤ lo)
    (ht : twfFrom d lo t = true) : twfFrom d lo' t = true := by
  cases t with
  | nil => rfl
  | cons p r =>
    obtain ⟨k, v⟩ := p
    simp only [twfFrom, Bool.and_eq_true, decide_eq_true_eq] at ht ⊢
    exact ⟨⟨by omega, ht.1.2⟩, ht.2⟩

/-- In a canonical table from lo on, a key below lo reads as unlisted. -/
theorem tget_below {β : Type} [DecidableEq β] {d : β} {t : Table β} {lo k : Nat} (ht : twfFrom d lo t = true)
    (h : k < lo) : tget d t k = d := by
  induction t generalizing lo with
  | nil => rfl
  | cons p r ih =>
    obtain ⟨k', v⟩ := p
    simp only [twfFrom, Bool.and_eq_true, decide_eq_true_eq] at ht
    have hk : k' ≠ k := by omega
    simp only [tget, hk, if_false]
    exact ih ht.2 (by omega)

theorem twfFrom_tput {β : Type} [DecidableEq β] {d : β} {t : Table β} {lo k : Nat} {v : β}
    (ht : twfFrom d lo t = true) (h : lo ≤ k) : twfFrom d lo (tput d t k v) = true := by
  induction t generalizing lo with
  | nil =>
    unfold tput
    split
    · rfl
    · simp_all [twfFrom]
  | cons p r ih =>
    obtain ⟨k', v'⟩ := p
    simp only [twfFrom, Bool.and_eq_true, decide_eq_true_eq] at ht
    obtain ⟨⟨h1, h2⟩, h3⟩ := ht
    unfold tput
    split
    · rename_i hlt
      have h4 : twfFrom d (k + 1) ((k', v') :: r) = true := by
        simp only [twfFrom, Bool.and_eq_true, decide_eq_true_eq]
        exact ⟨⟨by omega, h2⟩, h3⟩
      split
      · simp only [twfFrom, Bool.and_eq_true, decide_eq_true_eq]
        exact ⟨⟨h1, h2⟩, h3⟩
      · rename_i hv
        simp only [twfFrom, Bool.and_eq_true, decide_eq_true_eq]
        exact ⟨⟨h, by simpa using hv⟩, by simpa only [twfFrom, Bool.and_eq_true, decide_eq_true_eq] using h4⟩
    · split
      · rename_i he
        subst he
        split
        · exact twfFrom_mono (by omega) h3
        · rename_i hv
          simp only [twfFrom, Bool.and_eq_true, decide_eq_true_eq]
          exact ⟨⟨h, by simpa using hv⟩, h3⟩
      · simp only [twfFrom, Bool.and_eq_true, decide_eq_true_eq]
        exact ⟨⟨h1, h2⟩, ih h3 (by omega)⟩

/-- A write keeps the canonical form. -/
theorem twf_tput {β : Type} [DecidableEq β] {d : β} {t : Table β} (k : Nat) (v : β) (ht : twf d t = true) :
    twf d (tput d t k v) = true := twfFrom_tput ht (Nat.zero_le k)

/-- A read after a write: the value at the key written, the old value elsewhere. -/
theorem tget_tput {β : Type} [DecidableEq β] {d : β} {t : Table β} {lo : Nat} (ht : twfFrom d lo t = true) (k k' : Nat) (v : β) :
    tget d (tput d t k v) k' = if k' = k then v else tget d t k' := by
  induction t generalizing lo with
  | nil =>
    by_cases hv : v = d
    · by_cases hk : k' = k <;> simp [tput, tget, hv, hk]
    · by_cases hk : k' = k
      · subst hk; simp [tput, tget, hv]
      · have hk' : k ≠ k' := fun h => hk h.symm
        simp [tput, tget, hv, hk, hk']
  | cons p r ih =>
    obtain ⟨k0, v0⟩ := p
    simp only [twfFrom, Bool.and_eq_true, decide_eq_true_eq] at ht
    obtain ⟨⟨h1, h2⟩, h3⟩ := ht
    unfold tput
    split
    · rename_i hlt
      have hb : ∀ j, j < k0 → tget d ((k0, v0) :: r) j = d := fun j hj => by
        have : k0 ≠ j := by omega
        simp only [tget, this, if_false]
        exact tget_below h3 (by omega)
      split
      · rename_i hv
        by_cases hk : k' = k
        · subst hk; simp [hb _ hlt, hv]
        · simp [hk]
      · by_cases hk : k' = k
        · subst hk; simp [tget]
        · have hk' : k ≠ k' := fun h => hk h.symm
          simp [tget, hk, hk']
    · split
      · rename_i he
        subst he
        split
        · rename_i hv
          by_cases hk : k' = k
          · subst hk
            simp only [if_true]
            rw [tget_below h3 (by omega), hv]
          · have hk' : k ≠ k' := fun h => hk h.symm
            simp [tget, hk, hk']
        · by_cases hk : k' = k
          · subst hk; simp [tget]
          · have hk' : k ≠ k' := fun h => hk h.symm
            simp [tget, hk, hk']
      · by_cases h0 : k0 = k'
        · subst h0
          have : ¬ k0 = k := by omega
          simp [tget, this]
        · simp only [tget, h0, if_false]
          exact ih h3

theorem twfFrom_filter {β : Type} [DecidableEq β] {d : β} {t : Table β} {lo : Nat} (p : Nat × β → Bool)
    (ht : twfFrom d lo t = true) : twfFrom d lo (t.filter p) = true := by
  induction t generalizing lo with
  | nil => rfl
  | cons q r ih =>
    obtain ⟨k, v⟩ := q
    simp only [twfFrom, Bool.and_eq_true, decide_eq_true_eq] at ht
    obtain ⟨⟨h1, h2⟩, h3⟩ := ht
    simp only [List.filter_cons]
    split
    · simp only [twfFrom, Bool.and_eq_true, decide_eq_true_eq]
      exact ⟨⟨h1, h2⟩, ih h3⟩
    · exact twfFrom_mono (by omega) (ih h3)

/-- Dropping entries keeps the canonical form. -/
theorem twf_filter {β : Type} [DecidableEq β] {d : β} {t : Table β} (p : Nat × β → Bool) (ht : twf d t = true) :
    twf d (t.filter p) = true := twfFrom_filter p ht

/-! ### Memory -/

@[simp] theorem Memory.wf_nil : Memory.wf [] = true := rfl

theorem Memory.wf_put {m : Table Byte} (a : Nat) (b : Byte) (h : Memory.wf m = true) : Memory.wf (Memory.put m a b) = true :=
  twf_tput a b h

theorem Memory.wf_putAll {m : Table Byte} (l : List (Nat × Byte)) (h : Memory.wf m = true) :
    Memory.wf (Memory.putAll m l) = true := by
  induction l generalizing m with
  | nil => exact h
  | cons p r ih => exact ih (Memory.wf_put p.1 p.2 h)

theorem Memory.wf_filter {m : Table Byte} (p : Nat × Byte → Bool) (h : Memory.wf m = true) : Memory.wf (m.filter p) = true :=
  twf_filter p h

/-- A byte read after a byte write. -/
theorem Memory.get_put {m : Table Byte} (h : Memory.wf m = true) (a a' : Nat) (b : Byte) :
    Memory.get (Memory.put m a b) a' = if a' = a then b else Memory.get m a' := tget_tput (lo := 0) h a a' b

theorem Memory.clean_wf (lo hi : Nat) (l : Table Byte) : twfFrom 0#8 lo (Memory.clean lo hi l) = true := by
  induction l generalizing lo with
  | nil => rfl
  | cons p r ih =>
    obtain ⟨a, b⟩ := p
    simp only [Memory.clean]
    split
    · rename_i h
      simp only [twfFrom, Bool.and_eq_true, decide_eq_true_eq]
      exact ⟨⟨h.1, h.2.2⟩, ih (a + 1)⟩
    · exact ih lo

theorem Memory.clean_below (lo hi : Nat) (l : Table Byte) : ∀ p ∈ Memory.clean lo hi l, p.1 < hi := by
  induction l generalizing lo with
  | nil => intro p hp; cases hp
  | cons q r ih =>
    obtain ⟨a, b⟩ := q
    intro p hp
    simp only [Memory.clean] at hp
    split at hp
    · rename_i h
      rcases List.mem_cons.1 hp with rfl | hp
      · exact h.2.1
      · exact ih (a + 1) p hp
    · exact ih lo p hp

theorem twfFrom_append {d : Byte} {t u : Table Byte} {lo mid : Nat} (ht : twfFrom d lo t = true) (hlo : lo ≤ mid)
    (hb : ∀ p ∈ t, p.1 < mid) (hu : twfFrom d mid u = true) : twfFrom d lo (t ++ u) = true := by
  induction t generalizing lo with
  | nil => exact twfFrom_mono hlo hu
  | cons q r ih =>
    obtain ⟨k, v⟩ := q
    simp only [twfFrom, Bool.and_eq_true, decide_eq_true_eq] at ht
    simp only [List.cons_append, twfFrom, Bool.and_eq_true, decide_eq_true_eq]
    have hk : k < mid := hb _ List.mem_cons_self
    exact ⟨ht.1, ih ht.2 (by omega) (fun p hp => hb p (List.mem_cons_of_mem _ hp))⟩

theorem twfFrom_keep_above {d : Byte} {t : Table Byte} {lo n : Nat} (ht : twfFrom d lo t = true) :
    twfFrom d n (t.filter (fun p => decide (n ≤ p.1))) = true := by
  induction t generalizing lo with
  | nil => rfl
  | cons q r ih =>
    obtain ⟨k, v⟩ := q
    simp only [twfFrom, Bool.and_eq_true, decide_eq_true_eq] at ht
    obtain ⟨⟨h1, h2⟩, h3⟩ := ht
    simp only [List.filter_cons, decide_eq_true_eq]
    split
    · rename_i hn
      simp only [twfFrom, Bool.and_eq_true, decide_eq_true_eq]
      exact ⟨⟨hn, h2⟩, twfFrom_filter _ h3⟩
    · exact ih h3

/-- The archivist's bulk write keeps the canonical form. -/
theorem Memory.wf_splice {m : Table Byte} (lo hi : Nat) (l : Table Byte) (h : Memory.wf m = true) :
    Memory.wf (Memory.splice m lo hi l) = true := by
  have h1 : twfFrom 0#8 0 (m.filter (fun p => decide (p.1 < lo))) = true := twfFrom_filter _ h
  have h2 : twfFrom 0#8 lo (Memory.clean lo hi l) = true := Memory.clean_wf lo hi l
  have h3 : twfFrom 0#8 (Nat.max lo hi) (m.filter (fun p => decide (Nat.max lo hi ≤ p.1))) = true := twfFrom_keep_above h
  have h4 : twfFrom 0#8 lo (Memory.clean lo hi l ++ m.filter (fun p => decide (Nat.max lo hi ≤ p.1))) = true :=
    twfFrom_append h2 (Nat.le_max_left lo hi)
      (fun p hp => Nat.lt_of_lt_of_le (Memory.clean_below lo hi l p hp) (Nat.le_max_right lo hi)) h3
  exact twfFrom_append h1 (Nat.zero_le lo) (fun p hp => by simpa using (List.mem_filter.1 hp).2) h4

/-- Clearing the queue descriptors keeps the canonical form (R76). -/
theorem Memory.wf_clearQueues {m : Table Byte} (h : Memory.wf m = true) : Memory.wf (clearQueues m) = true := by
  have gen : ∀ lo, twfFrom 0#8 lo m = true → twfFrom 0#8 lo (clearQueues m) = true := by
    clear h
    induction m with
    | nil => intro lo _; rfl
    | cons q r ih =>
      obtain ⟨k, v⟩ := q
      intro lo h
      simp only [twfFrom, Bool.and_eq_true, decide_eq_true_eq] at h
      obtain ⟨⟨h1, h2⟩, h3⟩ := h
      have hr := ih (k + 1) h3
      have keep : ∀ b : Byte, b ≠ 0#8 → twfFrom 0#8 lo ((k, b) :: clearQueues r) = true := fun b hb => by
        simp only [twfFrom, Bool.and_eq_true, decide_eq_true_eq]
        exact ⟨⟨h1, hb⟩, hr⟩
      have skip : twfFrom 0#8 lo (clearQueues r) = true := twfFrom_mono (by omega) hr
      unfold clearQueues at *
      simp only [List.filterMap_cons]
      split
      · exact skip
      · rename_i o ho
        revert ho
        split
        · split
          · intro ho; cases ho
          · split
            · split
              · intro ho; cases ho
              · rename_i hb
                intro ho; cases ho
                exact keep _ hb
            · intro ho; cases ho; exact keep _ h2
        · intro ho; cases ho; exact keep _ h2
  exact gen 0 h

/-! ### Folds -/

/-- What every step of a fold over a list keeps, the fold keeps. -/
theorem foldl_keeps {α σ : Type} {P : σ → Prop} {f : σ → α → σ} (hf : ∀ s a, P s → P (f s a)) (l : List α) (s : σ) (h : P s) :
    P (l.foldl f s) := by
  induction l generalizing s with
  | nil => exact h
  | cons a r ih => exact ih _ (hf s a h)

/-- What every step of a fold over the numbers below n keeps, the fold keeps. -/
theorem foldUp_keeps {σ : Type} {P : σ → Prop} {f : σ → Nat → σ} (hf : ∀ s i, P s → P (f s i)) (n : Nat) (s : σ) (h : P s) :
    P (foldUp n f s) := by
  induction n with
  | zero => exact h
  | succ n ih => exact hf _ _ ih

end Sys2Proof.Machine
end

