-- ==== Sys2Proof/Laws/Ops.lean ====
section
/-! SUPPORT. What the shared operations can do, said once: traps, holds, reports, the checks of an access, and that every
operation on memory keeps its canonical form. -/

namespace Sys2Proof.Machine

/-! ### The canonical form -/

/-- Memory after reset is in its canonical form. -/
theorem Memory.wf_reset : Memory.wf State.reset.mem = true := rfl

/-- What leaves memory and the homes alone keeps the canonical form. -/
theorem State.canonical_of_eq {s t : State} (hm : t.mem = s.mem) (hh : t.homes = s.homes) (h : s.canonical) : t.canonical := by
  refine ⟨hm ▸ h.1, fun c => ?_⟩
  have := h.2 c
  unfold State.home at *
  simpa only [hh] using this

/-- A change of one home that keeps its page table in form keeps the canonical form. -/
theorem State.canonical_updHome {s : State} {c : CoreId} {f : Home → Home} (h : s.canonical)
    (hf : twf 0 (f (s.home c)).pte = true) : (s.updHome c f).canonical := by
  refine ⟨h.1, fun k => ?_⟩
  by_cases e : k = c
  · subst e; simpa using hf
  · rw [State.home_updHome_ne s f e]; exact h.2 k

/-- A change of one home that leaves its page table alone keeps the canonical form. -/
theorem State.canonical_updHome_same {s : State} {c : CoreId} {f : Home → Home} (h : s.canonical)
    (hf : (f (s.home c)).pte = (s.home c).pte) : (s.updHome c f).canonical :=
  State.canonical_updHome h (hf ▸ h.2 c)

/-- A new memory in canonical form under the same homes. -/
theorem State.canonical_mem {s t : State} (hm : Memory.wf t.mem = true) (hh : t.homes = s.homes) (h : s.canonical) :
    t.canonical :=
  ⟨hm, (State.canonical_of_eq (s := s) (t := { t with mem := s.mem }) rfl hh h).2⟩

/-- Either branch of a choice. -/
theorem State.canonical_ite {p : Prop} [Decidable p] {s t : State} (h : s.canonical) (k : t.canonical) :
    (if p then s else t).canonical := by
  split <;> assumption

theorem State.setHestat_canonical {s : State} (c : CoreId) (b : Nat) (h : s.canonical) : (s.setHestat c b).canonical :=
  State.canonical_updHome_same h rfl

theorem State.msix_canonical {s : State} (v : Nat) (h : s.canonical) : (s.msix v).canonical :=
  State.canonical_of_eq rfl rfl h

theorem State.drawFree_canonical {s : State} (h : s.canonical) : s.drawFree.canonical := State.canonical_of_eq rfl rfl h

theorem State.updCore_canonical {s : State} (c : CoreId) (f : Core → Core) (h : s.canonical) : (s.updCore c f).canonical :=
  State.canonical_of_eq rfl rfl h

theorem State.updCtx_canonical {s : State} (c : CoreId) (f : Ctx → Ctx) (h : s.canonical) : (s.updCtx c f).canonical :=
  State.canonical_of_eq rfl rfl h

theorem State.updHub_canonical {s : State} (f : Hub → Hub) (h : s.canonical) : (s.updHub f).canonical :=
  State.canonical_of_eq rfl rfl h

theorem State.setOvf_canonical {s : State} (k : Nat) (h : s.canonical) : (s.setOvf k).canonical :=
  foldl_keeps (P := State.canonical) (fun _ c hs => State.updCore_canonical c _ hs) _ _ (State.canonical_of_eq rfl rfl h)

theorem State.setOvf_mem (s : State) (k : Nat) : (s.setOvf k).mem = s.mem :=
  foldl_keeps (P := fun (t : State) => t.mem = s.mem) (fun t c ht => by rw [State.updCore_mem]; exact ht) _ _ rfl

/-- Logging a line for a checkpoint interval (R371). -/
theorem State.logCheckpoint_canonical {s : State} (w : Writer) (l : Nat) (h : s.canonical) : (s.logCheckpoint w l).canonical := by
  unfold State.logCheckpoint
  split
  · exact h
  · dsimp only
    split
    · exact h
    · split
      · exact State.setOvf_canonical _ h
      · exact State.canonical_updHome_same h rfl

theorem State.logCheckpoint_mem (s : State) (w : Writer) (l : Nat) : (s.logCheckpoint w l).mem = s.mem := by
  unfold State.logCheckpoint
  split
  · rfl
  · dsimp only
    split
    · rfl
    · split
      · exact State.setOvf_mem s _
      · rfl

/-- Logging a line for the snapshots (R306). -/
theorem State.trimLog_canonical {s : State} (h : s.canonical) : s.trimLog.canonical :=
  foldl_keeps (P := State.canonical) (fun _ c hs => State.canonical_updHome_same (c := c) hs rfl) _ _ (State.canonical_of_eq rfl rfl h)

theorem State.trimLog_mem (s : State) : s.trimLog.mem = s.mem := by
  unfold State.trimLog
  extract_lets lo s1
  exact foldl_keeps (P := fun (t : State) => t.mem = s.mem) (fun t c (ht : t.mem = s.mem) => show (t.updHome c _).mem = s.mem from ht) _ s1 rfl

theorem Home.enterSnap_pte (m : Home) (q : SnapLine) : (m.enterSnap q).pte = m.pte := by
  unfold Home.enterSnap
  split <;> rfl

theorem State.snapLine_canonical {s : State} (w : Writer) (l : Nat) (h : s.canonical) : (s.snapLine w l).canonical := by
  unfold State.snapLine
  extract_lets m room
  split
  · exact State.canonical_of_eq (s := s) rfl rfl h
  · have h1 : State.canonical (if room = true then s else s.msix 1) := State.canonical_ite h (State.msix_canonical 1 h)
    exact State.canonical_of_eq rfl rfl (State.canonical_updHome_same (c := homeOf l)
      (f := fun m => m.enterSnap { time := s.now, line := l, who := w.who, kept := room }) h1 (Home.enterSnap_pte _ _))

theorem State.snapLine_mem (s : State) (w : Writer) (l : Nat) : (s.snapLine w l).mem = s.mem := by
  unfold State.snapLine
  extract_lets m room
  split
  · rfl
  · show (ite (room = true) s (s.msix 1)).mem = s.mem
    split <;> rfl

theorem State.logSnapshot_canonical {s : State} (w : Writer) (l : Nat) (h : s.canonical) : (s.logSnapshot w l).canonical := by
  have h1 := State.trimLog_canonical h
  unfold State.logSnapshot
  extract_lets t
  split
  · exact h1
  · split
    · exact State.canonical_of_eq (s := t) rfl rfl h1
    · exact State.snapLine_canonical w l h1

theorem State.logSnapshot_mem (s : State) (w : Writer) (l : Nat) : (s.logSnapshot w l).mem = s.mem := by
  have h1 := State.trimLog_mem s
  unfold State.logSnapshot
  extract_lets t
  split
  · exact h1
  · split
    · exact h1
    · exact (State.snapLine_mem t w l).trans h1

/-- What a home logs before a write changes no byte (R64). -/
theorem State.logLine_mem (s : State) (w : Writer) (l : Nat) : (s.logLine w l).mem = s.mem := by
  unfold State.logLine
  dsimp only
  split <;> split <;> simp [State.logCheckpoint_mem, State.logSnapshot_mem]

theorem State.logLine_canonical {s : State} (w : Writer) (l : Nat) (h : s.canonical) : (s.logLine w l).canonical := by
  have h1 : (if logged (regionOf l) then s.logSnapshot w l else s).canonical :=
    State.canonical_ite (State.logSnapshot_canonical w l h) h
  exact State.canonical_ite (State.logCheckpoint_canonical w l h1) h1

/-- The one place where a byte is written: memory after it. -/
theorem State.putByte_mem (s : State) (a : Nat) (b : Byte) : (s.putByte a b).mem = Memory.put s.mem a b := rfl

theorem State.putByte_canonical {s : State} (a : Nat) (b : Byte) (h : s.canonical) : (s.putByte a b).canonical :=
  State.canonical_mem (s := s) (Memory.wf_put a b h.1) rfl h

theorem State.putBytes_canonical {s : State} (l : List (Nat × Byte)) (h : s.canonical) : (s.putBytes l).canonical :=
  foldl_keeps (P := State.canonical) (fun _ p hs => State.putByte_canonical p.1 p.2 hs) l s h

theorem State.raiseHigh_canonical {s : State} (a : Nat) (h : s.canonical) : (s.raiseHigh a).canonical := by
  unfold State.raiseHigh
  split
  · exact State.updCore_canonical _ _ h
  · exact h

theorem State.sliceUe_canonical {s : State} (w : Nat) (h : s.canonical) : (s.sliceUe w).canonical :=
  State.updCore_canonical _ _ h

theorem State.noteWord_canonical {s : State} (w : Nat) (h : s.canonical) : (s.noteWord w).canonical := by
  unfold State.noteWord
  dsimp only
  split
  · exact h
  · split
    · exact h
    · split
      · exact State.canonical_of_eq (s := s.sliceUe w) rfl rfl (State.sliceUe_canonical w h)
      · split
        · exact State.updCore_canonical _ _ h
        · exact h

theorem State.markUe_canonical {s : State} (l : Nat) (h : s.canonical) : (s.markUe l).canonical := by
  unfold State.markUe
  dsimp only
  split
  · exact State.setHestat_canonical _ _ h
  · exact State.msix_canonical _ (State.canonical_updHome_same (State.setHestat_canonical _ _ h) rfl)

theorem State.noteLine_canonical {s : State} (l : Nat) (h : s.canonical) : (s.noteLine l).canonical := by
  unfold State.noteLine
  dsimp only
  have h1 := State.canonical_ite (p := s.poison.contains l = true) h
    (State.canonical_updHome_same (c := markHome l) (f := fun m => { m with hecnt := satAdd m.hecnt 0 32 (s.flipsIn l) }) h rfl)
  have h2 : ∀ t : State, t.canonical → (if 0 < s.fatalsIn l then
      { t.updHome (markHome l) (fun m => { m with hecnt := satAdd m.hecnt 48 12 (s.fatalsIn l) }) with
        fatals := t.fatals.filter (fun w => w / 64 * 64 ≠ l), poison := l :: t.poison.filter (· != l) } else t).canonical := fun t ht =>
    State.canonical_ite (State.canonical_of_eq
      (s := t.updHome (markHome l) (fun m => { m with hecnt := satAdd m.hecnt 48 12 (s.fatalsIn l) })) rfl rfl
      (State.canonical_updHome_same ht rfl)) ht
  exact State.canonical_ite (State.setHestat_canonical _ _ (State.markUe_canonical _ (h2 _ h1))) (h2 _ h1)

/-- Reading where bytes are stored changes no byte and keeps the form. -/
theorem State.noteReads_canonical {s : State} (as : List Nat) (h : s.canonical) : (s.noteReads as).canonical :=
  foldl_keeps (P := State.canonical) (fun s u hs => by
    unfold State.noteUnit
    split
    · exact State.noteLine_canonical _ hs
    · exact State.noteLine_canonical _ hs
    · exact State.noteWord_canonical _ hs
    · exact State.canonical_ite (State.noteLine_canonical _ hs) hs) _ s h

theorem State.noteWalk_canonical {s : State} (c : CoreId) (a : Nat) (h : s.canonical) : (s.noteWalk c a).canonical :=
  State.canonical_ite (State.setHestat_canonical _ _ h) h

/-- A walk may set its home's HESTAT.TBLERR, and changes nothing outside the homes (R61, R74). -/
theorem State.noteWalk_frame (s : State) (c : CoreId) (a : Nat) :
    (s.noteWalk c a).hub = s.hub ∧ (s.noteWalk c a).mem = s.mem ∧ (s.noteWalk c a).cores = s.cores ∧
      (s.noteWalk c a).poison = s.poison := by
  unfold State.noteWalk
  split <;> exact ⟨rfl, rfl, rfl, rfl⟩

theorem State.noteWalks_frame (s : State) (as : List Nat) :
    (s.noteWalks as).hub = s.hub ∧ (s.noteWalks as).mem = s.mem ∧ (s.noteWalks as).cores = s.cores ∧
      (s.noteWalks as).poison = s.poison :=
  foldl_keeps (P := fun t => t.hub = s.hub ∧ t.mem = s.mem ∧ t.cores = s.cores ∧ t.poison = s.poison) (fun t a h => by
    obtain ⟨h1, h2, h3, h4⟩ := State.noteWalk_frame t (homeOf a) a
    exact ⟨h1.trans h.1, h2.trans h.2.1, h3.trans h.2.2.1, h4.trans h.2.2.2⟩) _ s ⟨rfl, rfl, rfl, rfl⟩

theorem State.noteWalks_canonical {s : State} (as : List Nat) (h : s.canonical) : (s.noteWalks as).canonical :=
  foldl_keeps (P := State.canonical) (fun _ _ ht => State.noteWalk_canonical _ _ ht) _ s h

/-- Reading a range without errors changes nothing (R72 to R74, R123). -/
theorem State.readRange_clean {s : State} (lo hi : Nat) (hp : s.poison = []) (hf : s.flips = []) (ha : s.fatals = []) :
    s.readRange lo hi = s := by
  unfold State.readRange
  rw [hp, hf, ha]
  rfl

theorem State.cacheTouch_canonical {s : State} (c : CoreId) (a : Nat) (nt : Bool) (h : s.canonical) :
    (s.cacheTouch c a nt).canonical := by
  unfold State.cacheTouch
  dsimp only
  split
  · split
    · exact State.noteWalk_canonical _ _ h
    · split
      · exact State.canonical_updHome_same (State.noteWalk_canonical _ _ h) rfl
      · exact State.noteWalk_canonical _ _ h
  · exact h

/-- A write to one unit keeps the canonical form (R73, R126). -/
theorem State.writeUnit_canonical {s : State} (w : Writer) (u : Nat) (bytes : List (Nat × Byte)) (h : s.canonical) :
    (s.writeUnit w u bytes).canonical := by
  have put : ∀ t : State, t.canonical → ((t.putBytes bytes).raiseHigh u).canonical :=
    fun t ht => State.raiseHigh_canonical u (State.putBytes_canonical bytes ht)
  unfold State.writeUnit
  dsimp only
  split
  · split
    · exact State.canonical_of_eq rfl rfl (put s h)
    · split
      · exact State.canonical_of_eq rfl rfl (put _ (State.putBytes_canonical _ h))
      · split
        · exact State.sliceUe_canonical u (State.noteWord_canonical u h)
        · split
          · exact State.noteWord_canonical u h
          · exact State.canonical_of_eq rfl rfl (put _ (State.noteWord_canonical u h))
  · exact State.canonical_of_eq rfl rfl (State.putBytes_canonical bytes (State.logLine_canonical w u h))

/-- Streams that watch a line keep the canonical form (R315). -/
theorem State.rewatch_canonical {s : State} (f : Nat → Bool) (h : s.canonical) : (s.rewatch f).canonical :=
  foldl_keeps (P := State.canonical) (fun _ c hs => State.updCtx_canonical c _ hs) _ s h

/-- A write applied at its homes and banks keeps the canonical form (R308). -/
theorem State.applyWrite_canonical {s : State} (w : Writer) (bytes : List (Nat × Byte)) (h : s.canonical) :
    (s.applyWrite w bytes).canonical :=
  State.rewatch_canonical _ (foldl_keeps (P := State.canonical) (fun _ u hs => State.writeUnit_canonical w u _ hs) _ s h)

/-- Counting a dropped request keeps the canonical form (R80). -/
theorem State.dropRequest_canonical {s : State} (port : Option Nat) (h : s.canonical) : (s.dropRequest port).canonical := by
  unfold State.dropRequest State.updPort
  split
  · split
    · exact State.updHub_canonical _ h
    · exact h
  · exact State.updHub_canonical _ h

/-- A write that its link cannot carry changes no byte and keeps the form (R85). -/
theorem State.dropWrite_canonical {s : State} (as : List Nat) (h : s.canonical) : (s.dropWrite as).canonical :=
  foldl_keeps (P := State.canonical) (fun _ _ hs => State.dropRequest_canonical none hs) _ _
    (State.canonical_ite (State.updHub_canonical _ h) h)

/-- A device write keeps the canonical form, applied or dropped (R85). -/
theorem State.deviceWrite_canonical {s : State} (w : Writer) (bytes : List (Nat × Byte)) (h : s.canonical) :
    (s.deviceWrite w bytes).canonical := by
  unfold State.deviceWrite
  split
  · exact h
  · split
    · exact State.applyWrite_canonical w _ h
    · exact State.dropWrite_canonical _ h

/-- A new frame keeps the canonical form (R65). -/
theorem State.zeroShare_canonical {s : State} (ia : Nat) (h : s.canonical) : (s.zeroShare ia).canonical :=
  State.canonical_mem (s := s) (Memory.wf_filter _ h.1) rfl h

/-- Taking a frame, or giving one back, leaves the page table of a home alone (R63, R65). -/
theorem Home.frame64_pte {m q : Home} {a : Nat} (h : m.frame64 = some (a, q)) : q.pte = m.pte := by
  unfold Home.frame64 at h
  split at h
  · cases h; rfl
  · split at h
    · cases h; rfl
    · cases h

theorem Home.frame8_pte {m q : Home} {a : Nat} (h : m.frame8 = some (a, q)) : q.pte = m.pte := by
  unfold Home.frame8 at h
  split at h
  · cases h; rfl
  · cases e : m.frame64 with
    | none => rw [e] at h; cases h
    | some p => rw [e] at h; cases h; exact Home.frame64_pte (a := p.1) (q := p.2) e

theorem Home.frame_pte {m q : Home} {b : Bool} {a : Nat} (h : m.frame b = some (a, q)) : q.pte = m.pte := by
  unfold Home.frame at h
  split at h
  · exact Home.frame8_pte h
  · exact Home.frame64_pte h

theorem Home.takeFrame_pte {m q : Home} {b : Bool} {a : Nat} (h : m.takeFrame b = some (a, q)) : q.pte = m.pte := by
  unfold Home.takeFrame at h
  split at h
  · cases h
  · cases h; split <;> rfl

theorem Home.release_pte (m : Home) (a n : Nat) : (m.release a n).pte = m.pte := by
  unfold Home.release
  dsimp only
  split
  · split <;> rfl
  · rfl

/-- What the firmware writes into a page table keeps it in form (R60 to R65). -/
theorem Home.mapLeaf_twf {m : Home} (ia : Nat) (pin : Bool) (h : twf 0 m.pte = true) : twf 0 (m.mapLeaf ia pin).pte = true := by
  unfold Home.mapLeaf
  split
  · exact twf_tput _ _ h
  · split
    · rename_i e; exact twf_tput _ _ (Home.frame_pte e ▸ h)
    · exact h
  · exact h

theorem Home.pointer_twf {m : Home} (ia l : Nat) (h : twf 0 m.pte = true) : twf 0 (m.pointer ia l).pte = true := by
  unfold Home.pointer
  dsimp only
  split
  · exact h
  · split
    · rename_i e; exact twf_tput _ _ (Home.frame8_pte e ▸ h)
    · exact h

theorem Home.pointers_twf {m : Home} (ia : Nat) (h : twf 0 m.pte = true) : twf 0 (m.pointers ia).pte = true :=
  Home.pointer_twf ia 3 (Home.pointer_twf ia 2 (Home.pointer_twf ia 1 h))

theorem Home.unmap_twf {m : Home} (ia : Nat) (h : twf 0 m.pte = true) : twf 0 (m.unmap ia).pte = true := by
  unfold Home.unmap
  split
  · rw [Home.release_pte]; exact twf_tput _ _ h
  · exact h

/-- A page-table write keeps the canonical form (R60, R65). -/
theorem State.mapShare_canonical {s : State} (ia : Nat) (pin : Bool) (h : s.canonical) : (s.mapShare ia pin).canonical :=
  State.canonical_ite h (State.canonical_updHome h (Home.mapLeaf_twf ia pin (h.2 _)))

theorem State.mapPointers_canonical {s : State} (ia : Nat) (h : s.canonical) : (s.mapPointers ia).canonical :=
  State.canonical_updHome h (Home.pointers_twf ia (h.2 _))

theorem State.after_canonical {s : State} (i : Instr) (h : s.canonical) : (s.after i).canonical :=
  State.canonical_of_eq rfl rfl h

/-- First touch keeps the canonical form (R65). -/
theorem State.firstTouch_canonical {s : State} (ia : Nat) (z : Bool) (h : s.canonical) : (s.firstTouch ia z).canonical := by
  unfold State.firstTouch
  extract_lets c s1
  have h1 : s1.canonical := State.noteWalk_canonical _ _ h
  split
  · exact h1
  · split
    · exact h1
    · split
      · split
        · exact State.setHestat_canonical _ _ h1
        · rename_i a m hm
          have h2 := State.zeroShare_canonical ia (State.canonical_updHome
            (f := fun _ => { m with pte := tput 0 m.pte (pteKey 4 ia) (leafWord a false) }) (c := c) h1
            (twf_tput _ _ (Home.takeFrame_pte hm ▸ h1.2 _)))
          exact State.canonical_ite (State.after_canonical _ h2) h2
      · exact h1

/-- The archivist's write of a range keeps the canonical form (R362). -/
theorem State.archive_canonical {s : State} (lo hi : Nat) (l : Table Byte) (h : s.canonical) : (s.archive lo hi l).canonical := by
  unfold State.archive
  extract_lets old new s1 s2
  have h1 : s1.canonical := foldl_keeps (P := State.canonical)
    (fun t a hs => State.cacheTouch_canonical _ _ _ (State.logLine_canonical _ a hs)) _ s h
  have h2 : s2.canonical := foldl_keeps (P := State.canonical) (fun _ c hs => State.canonical_updHome_same (c := c) hs rfl) _ s1 h1
  exact State.rewatch_canonical _ (State.canonical_mem (s := s2) (Memory.wf_splice lo hi l h2.1) rfl h2)

/-! ### Traps, holds and reports -/

/-- A hold changes the issuing stream's hold and the status, and nothing of memory (R40, R352). -/
@[simp] theorem State.holdFor_status (s : State) (h : Hold) : (s.holdFor h).issue.status = .held h := rfl
@[simp] theorem State.holdFor_mem (s : State) (h : Hold) : (s.holdFor h).mem = s.mem := rfl
@[simp] theorem State.holdFor_homes (s : State) (h : Hold) : (s.holdFor h).homes = s.homes := rfl
@[simp] theorem State.holdFor_hub (s : State) (h : Hold) : (s.holdFor h).hub = s.hub := rfl

/-- The issuing stream after a hold is the same but for the hold. -/
theorem State.cur_holdFor (s : State) (h : Hold) : (s.holdFor h).cur = { s.cur with hold := h, passed := s.cur.passedNow } := by
  unfold State.holdFor
  simp [State.cur_setStatus]

@[simp] theorem State.stopStream_mem (s : State) (c : CoreId) (b : Bool) (t : TrapReq) (a : BitVec 59) : (s.stopStream c b t a).mem = s.mem := by
  unfold State.stopStream
  dsimp only
  split <;> rfl
@[simp] theorem State.stopStream_homes (s : State) (c : CoreId) (b : Bool) (t : TrapReq) (a : BitVec 59) :
    (s.stopStream c b t a).homes = s.homes := by
  unfold State.stopStream
  dsimp only
  split <;> rfl

/-- A stopped stream is no longer live and keeps its cause (R354). -/
theorem State.stopStream_stream (s : State) (c : CoreId) (b : Bool) (t : TrapReq) (a : BitVec 59) :
    ((s.stopStream c b t a).stream c b).live = false ∧ ((s.stopStream c b t a).stream c b).stopped = some t := by
  have e : ((s.stopStream c b t a).stream c b) =
      { s.stream c b with live := false, stopped := some t, stopAt := a ++ 0#5, hold := .none, wait := .none, asking := none, answers := [] } := by
    rw [← State.stream_updStream s c b (fun x => { x with live := false, stopped := some t, stopAt := a ++ 0#5, hold := .none, wait := .none, asking := none, answers := [] })]
    unfold State.stopStream
    dsimp only
    split <;> rfl
  rw [e]
  exact ⟨rfl, rfl⟩

/-- EnterTrap either stops the stream, in a handler or without one, or enters the handler (R353). -/
theorem State.enterTrap_cases (s : State) (c : CoreId) (b : Bool) (t : TrapReq) (a : BitVec 59) (df wt : Bool) (code : BitVec 14)
    (T : Nat) :
    (((s.stream c b).hnd = true ∨ (s.stream c b).tvec.getLsbD 0 = false) ∧
      s.enterTrap c b t a df wt code T = s.stopStream c b t a) ∨
    ((s.stream c b).hnd = false ∧ (s.stream c b).tvec.getLsbD 0 = true ∧
      (s.enterTrap c b t a df wt code T).stream c b = (((s.ctx c).landUpTo b T).stream b).enter t a df wt code T ∧
      ∀ k q, (k ≠ c) → (s.enterTrap c b t a df wt code T).stream k q = s.stream k q) := by
  unfold State.enterTrap
  by_cases h : ((s.stream c b).hnd || !(s.stream c b).tvec.getLsbD 0) = true
  · refine .inl ⟨by simpa using h, if_pos h⟩
  · refine .inr ?_
    dsimp only
    rw [if_neg h]
    simp only [Bool.or_eq_true, Bool.not_eq_true', not_or, Bool.not_eq_true, Bool.not_eq_false] at h
    refine ⟨h.1, h.2, ?_, fun k q hk => ?_⟩
    · rw [State.stream_updStream]
      simp [State.stream, State.ctx_updCtx]
    · rw [State.stream_updStream_ne _ _ (.inl hk)]
      simp [State.stream, State.ctx_updCtx_ne s _ hk]

@[simp] theorem State.enterTrap_mem (s : State) (c : CoreId) (b : Bool) (t : TrapReq) (a : BitVec 59) (df wt : Bool)
    (code : BitVec 14) (T : Nat) : (s.enterTrap c b t a df wt code T).mem = s.mem := by
  unfold State.enterTrap
  dsimp only
  split <;> simp

@[simp] theorem State.enterTrap_homes (s : State) (c : CoreId) (b : Bool) (t : TrapReq) (a : BitVec 59) (df wt : Bool)
    (code : BitVec 14) (T : Nat) : (s.enterTrap c b t a df wt code T).homes = s.homes := by
  unfold State.enterTrap
  dsimp only
  split <;> simp

@[simp] theorem State.raise_status (s : State) (t : TrapReq) : (s.raise t).issue.status = .trapped t := rfl
@[simp] theorem State.raise_mem (s : State) (t : TrapReq) : (s.raise t).mem = s.mem := by simp [State.raise]
@[simp] theorem State.raise_homes (s : State) (t : TrapReq) : (s.raise t).homes = s.homes := by simp [State.raise]

@[simp] theorem State.report_mem (s : State) (c : CoreId) (b : Bool) (t : TrapReq) : (s.report c b t).mem = s.mem := by
  unfold State.report
  dsimp only
  repeat' split
  all_goals simp

@[simp] theorem State.report_homes (s : State) (c : CoreId) (b : Bool) (t : TrapReq) : (s.report c b t).homes = s.homes := by
  unfold State.report
  dsimp only
  repeat' split
  all_goals simp

@[simp] theorem State.transfer_mem (s : State) (a : BitVec 59) : (s.transfer a).mem = s.mem := rfl
@[simp] theorem State.transfer_homes (s : State) (a : BitVec 59) : (s.transfer a).homes = s.homes := rfl

/-- After a control transfer two idle cycles follow and the target is next (R181). -/
theorem State.cur_transfer (s : State) (a : BitVec 59) : (s.transfer a).cur = { s.cur with pc := a, idle := 2 } :=
  State.cur_updCur s _

/-! ### The checks of an access -/

/-- The residency check of an access: it passes, holds for one of the shares, or raises cause 04 at one (R66, R67,
R195). -/
theorem State.withResidency_cases (s : State) (l : List (Nat × Word)) (z : Bool) (k : State) :
    s.withResidency l z k = k ∨
    (∃ sh va, (sh, va) ∈ l ∧ aget s.cur.answers sh = none ∧ s.withResidency l z k = s.holdFor (.residency sh z)) ∨
    (∃ sh va, (sh, va) ∈ l ∧ aget s.cur.answers sh = some false ∧
      s.withResidency l z k = s.raise { cause := 0x04, tval := va }) := by
  induction l with
  | nil => exact .inl rfl
  | cons p r ih =>
    obtain ⟨sh, va⟩ := p
    have step : s.withResidency r z k = k ∨
        (∃ sh' va', (sh', va') ∈ (sh, va) :: r ∧ aget s.cur.answers sh' = none ∧
          s.withResidency r z k = s.holdFor (.residency sh' z)) ∨
        (∃ sh' va', (sh', va') ∈ (sh, va) :: r ∧ aget s.cur.answers sh' = some false ∧
          s.withResidency r z k = s.raise { cause := 0x04, tval := va' }) := by
      rcases ih with h | ⟨a, b, m, e, h⟩ | ⟨a, b, m, e, h⟩
      · exact .inl h
      · exact .inr (.inl ⟨a, b, List.mem_cons_of_mem _ m, e, h⟩)
      · exact .inr (.inr ⟨a, b, List.mem_cons_of_mem _ m, e, h⟩)
    unfold State.withResidency
    split
    · exact step
    · split
      · exact step
      · exact .inr (.inr ⟨sh, va, List.mem_cons_self, ‹_›, rfl⟩)
      · exact .inr (.inl ⟨sh, va, List.mem_cons_self, ‹_›, rfl⟩)

/-- An access whose shares are all in the core's residency cache passes (R67). -/
theorem State.withResidency_cached (s : State) (l : List (Nat × Word)) (z : Bool) (k : State)
    (h : ∀ p ∈ l, s.curCore.holds p.1 = true) : s.withResidency l z k = k := by
  induction l with
  | nil => rfl
  | cons p r ih =>
    obtain ⟨sh, va⟩ := p
    unfold State.withResidency
    rw [if_pos (h (sh, va) (List.mem_cons_self))]
    exact ih (fun q hq => h q (List.mem_cons_of_mem _ hq))

/-- The bank rule of an access: it passes and takes its sub-banks, holds, or raises cause 03 (R118, R120, R121). -/
theorem State.withBank_cases (s : State) (own : Bool) (ps : List SlicePlace) (two : Bool) (k : State) :
    (s.withBank own ps two k = if own then k.bookBanks ps two else k) ∨ s.withBank own ps two k = s.holdFor .bank ∨
    (∃ p ∈ ps, s.withBank own ps two k = s.raise { cause := 0x03, tval := bankRecord p 4 }) := by
  unfold State.withBank
  cases own with
  | false => exact .inl rfl
  | true =>
    simp only [Bool.not_true, Bool.false_eq_true, if_false, if_true]
    split
    · rename_i p hp
      split
      · exact .inr (.inl rfl)
      · exact .inr (.inr ⟨p, List.mem_of_find?_eq_some hp, rfl⟩)
    · split
      · exact .inr (.inl rfl)
      · exact .inl rfl

/-- The checks of a scalar access in the order of R195: alignment, translation, residency. -/
theorem State.withScalar_cases (s : State) (ea : Word) (n : Nat) (kind : AccessKind) (k : Nat → BitVec 6 → State) :
    (ea.toNat % n ≠ 0 ∧ s.withScalar ea n kind k = s.raise { cause := 0x05, tval := ea }) ∨
    (ea.toNat % n = 0 ∧ translate s.curCtx.win ea n kind = none ∧ s.withScalar ea n kind k = s.raise { cause := 0x0F, tval := ea }) ∨
    (ea.toNat % n = 0 ∧ ∃ ia attr, translate s.curCtx.win ea n kind = some (ia, attr) ∧
      s.withScalar ea n kind k = s.withResidency (sharesFor ia n ea) (attrZ attr) (k ia attr)) := by
  unfold State.withScalar
  by_cases h : ea.toNat % n ≠ 0
  · exact .inl ⟨h, by rw [if_pos h]⟩
  · refine .inr ?_
    rw [if_neg h]
    split
    · exact .inl ⟨by simpa using h, ‹_›, rfl⟩
    · exact .inr ⟨by simpa using h, _, _, ‹_›, rfl⟩

end Sys2Proof.Machine
end

