-- ==== Sys2Proof/Tests/Slice0.lean ====
section
/-! SUPPORT. The tests of this model: the decoder on a word of every row, ill-formed terms, one step on small states, and a
witness for every statement that has hypotheses. -/

namespace Sys2Proof.Tests

set_option Elab.async false

open Sys2Proof Sys2Proof.Machine Sys2Proof.Claims

/-- What a next state shows; false at a fault or a refusal. -/
def shows (a : Answer) (f : State → Bool) : Bool :=
  match a with
  | .next t => f t
  | .fault _ => false
  | .refused _ => false

/-- Core 1's primary stream is live and alone, with a handler at 0, and it is its turn; all else is as after reset. -/
def base : State :=
  { (State.reset.updCore 1 (fun k => { k with live := true })).updStream 1 false
      (fun x => { x with live := true, started := true, tvec := 1, pc := 4 }) with
    turn := 1
    issue := { State.reset.issue with core := 1 } }

/-- The same with another stream. -/
def on (f : Stream → Stream) : State := base.updCur f

/-- The same with another context. -/
def onCtx (f : Ctx → Ctx) : State := base.updCtx 1 f

/-- The same with another core. -/
def onCore (f : Core → Core) : State := base.updCore 1 f

/-- The same with another hub. -/
def onHub (f : Hub → Hub) : State := base.updHub f

/-- Window 0 maps 64 KiB at address 0 to an IA, with attributes. -/
def mapped (ia : Nat) (attr : Word) (x : Ctx) : Ctx :=
  { x with win := (((x.win.set 0 0).set 1 1).set 2 (BitVec.ofNat 64 ia)).set 3 attr }

/-- The base with readable and writable package memory at address 0, its first share confirmed. -/
def plain : State := (onCtx (mapped 0x100000 3)).updCore 1 (fun k => { k with resCache := [shareOf 0x100000] })

/-- The base with its own slice at address 0. -/
def sliced : State := onCtx (mapped (sliceBase 1) 3)

/-- A stream's scalar registers set one by one. -/
def regs (l : List (BitVec 6 × Word)) (x : Stream) : Stream := l.foldl (fun y p => y.ws p.1 p.2) x

/-- The stream does not stop on traps. -/
theorem test_handles : Handles base.cur := ⟨by decide, by decide⟩

/-! ### Well-formedness: an ill-formed term for each check (R23) -/

theorem test_wf_control : ∀ i ∈ [Instr.loop 2 1 1, .loop 0 1 0, .phase 1 0, .phase 1 6, .rel 0, .rel 6, .acq 7, .waddr 1 2 3 41,
    .domj 1 2 false 1, .domj 1 2 false 6, .domj 1 2 true 3, .rdctl 1 0x006, .rdctl 1 0x120, .wrctl 1 0x00B, .wrctl 1 0x0C2,
    .chkpt 1 2, .chkpt 1 6], i.wf = false := by decide

theorem test_wf_scalar : ∀ i ∈ [Instr.mulh 1 2 3 3, .shi 1 2 true 0 32, .cmp 1 12 2 3 false, .cmpi 1 15 2 3, .bfx 1 2 false 32 32,
    .bfi 1 2 63 1, .plog 1 3 false 2 false 3, .rdsys 1 11, .atom 1 2 3 10 1 true, .atom 1 2 3 0 0 true, .cas 1 2 3 6 true],
    i.wf = false := by decide

theorem test_wf_vector_codes : ∀ i ∈ [Instr.fadd 1 80 2 0 false, .fadd 1 2 80 0 false, .fsub 1 127 2 0 false, .fmul 1 2 80 0 false,
    .fma 1 80 2 3 false, .fms 1 2 80 3 false, .fnma 1 90 2 3 false, .fmin 1 80 2 0 false false, .fmax 1 2 80 0 false false,
    .fabs 1 80 false 0, .fneg 1 80 false 0, .fcmp 6 1 2 3 0 false, .fcmp 0 1 80 3 0 false, .fclass 1 80 false 0, .fscl 1 2 80 0 false,
    .iadd 1 80 2 0 false 0, .isub 1 2 80 0 false 0, .imul 1 80 2 0 false 0, .imad 1 2 80 3 false, .iand 1 80 2 0 0, .ior 1 2 80 0 0,
    .ixor 1 80 2 0 0, .ishl 1 2 80 0 0, .ishr 1 80 2 0 0, .isar 1 2 80 0 0, .imin 1 80 2 0 false 0, .imax 1 2 80 0 false 0,
    .icmp 0 1 80 2 0 0, .vSel 1 2 80 0 0, .chkv 80 2 0 0, .modmul 1 2 80 3 false], i.wf = false := by decide

theorem test_wf_vector_fields : ∀ i ∈ [Instr.mov 1 2 2 0, .mov 1 80 0 0, .cvt 1 2 0 0 false 0, .cvt 1 2 6 0 false 1, .cvt 1 2 15 0 false 0,
    .cvt 1 2 2 6 false 0, .cvt 1 2 8 0 true 1, .cvt 1 2 2 0 true 0, .mxqScale 1 80 0, .mxqElem 1 2 6 0, .xpnd 1 2 15 0 false, .xpnd 1 2 17 0 true,
    .pack 1 2 3 1 3, .unpk 1 2 1 0 false, .rcp 1 2 false 6 0, .rsq 1 80 false 0 0, .exp2 1 2 false 7 0, .log2 1 80 false 0 0,
    .sigm 1 2 true 6 0, .tanh 1 80 true 0 0, .xcl 1 2 3 0, .perm 1 2 4 0 0, .perm 1 2 0 3 0, .perm 1 2 0 1 32, .perm 1 2 3 0 1,
    .red 1 2 2 0 0 0, .red 1 2 10 1 0 0, .red 1 2 0 5 0 0, .red 1 2 0 0 0 3, .red 1 2 0 1 0 1, .accrd 1 2 0 5, .accwr 1 2 0 7, .rngv 1 12 0,
    .msk 1 8 0 0, .msk 1 0 8 3, .msk 1 0 1 4, .msk 1 80 0 5, .msk 1 0 0 6, .vext 1 2 1 512, .resf 1 2 7 0 false,
    .resf 1 2 16 0 false, .resx 1 63 0 false], i.wf = false := by decide

theorem test_wf_cube_and_copy : ∀ i ∈ [Instr.mma 0 1 2 61 0 false false false, .mma 0 1 2 0 7 false false false, .mmaHold 0 1 63 0 false false false,
    .mmz 1 0 7 false false, .mdrn 0 1 0 false false false 5 0, .mdrn 0 1 0 false false false 1 4, .mdrn 0 1 1 false false false 0 0,
    .mdrn 0 1 0 true false false 0 0, .mmi 1 2 0 4 false false false, .mmi 1 2 61 0 false false false, .rnsx false 0 5, .rnsx false 1 3,
    .rnsdeg 9 false, .xdot 1 2 0 16 false false false, .xfin 0 62 false false, .cpy 1 61 false false false 0, .cpyd 1 62 0 false false 0,
    .cpys 1 0 3 false false 0, .ctab 1 63 0 0, .colj 1 0 false false 6 0, .colj 1 61 false false 0 0], i.wf = false := by decide

/-- A word that the decoder refuses in a slot class. -/
def refused (c : SlotClass) (w : SlotWord) : Bool :=
  match decode c w with
  | .ok _ => false
  | .error _ => true

/-- R22, R23: illegal words: bits beside major 0, unassigned majors, reserved bits, unassigned functions and values. -/
theorem test_decode_illegal_all : [SlotClass.K, .S, .L, .V, .M, .C].all (fun c => refused c 1 && refused c 0xFC000000) = true := by decide

theorem test_decode_illegal_K :
    [0x68000000#32, 0x0C000001#32, 0x14000000#32, 0x18000001#32, 0x3C000002#32, 0x4C000001#32].all (refused .K) = true := by decide

theorem test_decode_illegal_SL : [0x8C000000#32, 0x04000004#32, 0x74000003#32].all (refused .S) = true ∧
    [0x34000000#32, 0x28000000#32, 0x280000A2#32].all (refused .L) = true := by decide

theorem test_decode_illegal_VMC : [0xDC000000#32, 0x040A0000#32, 0x80000602#32].all (refused .V) = true ∧
    [0x38000000#32, 0x04000010#32, 0x0400F400#32, 0x0C000002#32].all (refused .M) = true ∧
    [0x28000000#32, 0x04000001#32, 0x040F8000#32, 0x15000000#32].all (refused .C) = true := by decide

/-- Slot words that the spec writes out itself (R59, R102, R192, R275, R310, R312, R355, R356), beside those of the obligation. -/
theorem test_decode_written : decode .K 0x30000003#32 = .ok (.rel 3) ∧ decode .K 0x34000003#32 = .ok (.acq 3) ∧
    decode .K 0x38654000#32 = .ok (.waddr 6 21 0 0) ∧ decode .K 0x40400028#32 = .ok (.yieldCore 4 40) ∧ decode .K 0x4C000000#32 = .ok .tret ∧
    decode .K 0x50500003#32 = .ok (.rdctl 5 3) ∧ decode .S 0x3492401C#32 = .ok (.shi 9 9 false 0 28) ∧
    decode .S 0x84058001#32 = .ok (.stset 22 0 1) ∧ decode .L 0x04824600#32 = .ok (.ld 8 9 0 3 0) ∧
    decode .L 0x20154600#32 = .ok (.stg 1 21 0 3 0) ∧ decode .V 0x0C406080#32 = .ok (.fmul 4 3 2 0 false) ∧
    decode .V 0xB4050000#32 = .ok (.accrd 0 20 0 0) ∧ decode .M 0x20042001#32 = .ok (.mmi 0 4 8 0 false false true) ∧
    decode .C 0x04140100#32 = .ok (.cpy 1 16 false false true 0) := by decide

/-- The encoder gives the spec's words back. -/
theorem test_encode_written : encode (.range 5 9 10 false true true) = some 0x58524A03#32 ∧ encode (.atom 5 20 1 0 3 true) = some 0x28550107#32 ∧
    encode (.mdrn 6 12 0 false false false 1 1) = some 0x18630009#32 ∧ encode (.nop) = some 0#32 := by decide

/-- A word alone in its bundle is the table's instruction (R20); a word of no class is refused. -/
theorem test_decodeTableWord : decodeTableWord 32 0x5C5003E8 = some (.movi 5 1000) ∧ decodeTableWord 32 0x88887081 = some (.pack 8 67 66 0 1) ∧
    decodeTableWord 32 0xFC000000 = none := by decide

/-! ### Decoding: a word of every encoded row, its fields written out bit by bit from the table of its slot (R20 to R36) -/

/-- K slot, rows 1 to 12 of its table (R21 to R29). -/
theorem test_decode_K_1 :
    decode .K 0b00000110100010010100010110010111#32 = .ok (.br 5 false 607639) ∧
    decode .K 0b00001011000110110000001101101111#32 = .ok (.call 6 false 1770351) ∧
    decode .K 0b00001101110000000000000000000000#32 = .ok (.ret 3 true) ∧
    decode .K 0b00010001000010000000000000000000#32 = .ok (.jind 16 32) ∧
    decode .K 0b00010100000110100111010001011001#32 = .ok (.loop 1 41 13401) ∧
    decode .K 0b00011001110110010110011110010110#32 = .ok (.waitc 14 25 12 30 11) ∧
    decode .K 0b00011110011010000111011000000000#32 = .ok (.waitt 38 33 54 false) ∧
    decode .K 0b00100000010100111111010100000001#32 = .ok (.waitany 5 15 53 true) ∧
    decode .K 0b00100100000000000000000000000001#32 = .ok (.pmode true) ∧
    decode .K 0b00101000000000000010001011111111#32 = .ok (.halt 8959) ∧
    decode .K 0b00101101010000000000000000000001#32 = .ok (.phase 20 1) ∧
    decode .K 0b00110000000000000000000000000101#32 = .ok (.rel 5) := by decide

/-- K slot, rows 13 to 24 of its table (R21 to R29). -/
theorem test_decode_K_2 :
    decode .K 0b00110100000000000000000000000101#32 = .ok (.acq 5) ∧
    decode .K 0b00111011001111101101000000100011#32 = .ok (.waddr 51 59 16 35) ∧
    decode .K 0b00111101110000000000000000000000#32 = .ok (.strtHdr 28) ∧
    decode .K 0b00111110000010110100000000000001#32 = .ok (.strtReg 32 45) ∧
    decode .K 0b01000010100000000000000000010110#32 = .ok (.yieldCore 40 22) ∧
    decode .K 0b01000110011011111100000000000010#32 = .ok (.domj 38 63 false 2) ∧
    decode .K 0b01001000000011111001001000010101#32 = .ok (.trap 62 4629) ∧
    decode .K 0b01001100000000000000000000000000#32 = .ok .tret ∧
    decode .K 0b01010011010000000000000100001000#32 = .ok (.rdctl 52 264) ∧
    decode .K 0b01010100000011101000000100011111#32 = .ok (.wrctl 58 287) ∧
    decode .K 0b01011011010111010000101000000111#32 = .ok (.range 53 52 10 true true true) ∧
    decode .K 0b01011110111101111010010000000000#32 = .ok (.swprep 47 30 36) := by decide

/-- K slot, rows 25 to 26 of its table (R21 to R29). -/
theorem test_decode_K_3 :
    decode .K 0b01100000100100000000000000000000#32 = .ok (.swap 9) ∧
    decode .K 0b01100110000100000000000000000011#32 = .ok (.chkpt 33 3) := by decide

/-- S slot, rows 1 to 12 of its table (R21 to R29). -/
theorem test_decode_S_1 :
    decode .S 0b00000111101100010010011000000001#32 = .ok (.add 59 4 38 false true) ∧
    decode .S 0b00001001010000000010111000000011#32 = .ok (.sub 20 0 46 true true) ∧
    decode .S 0b00001111011110000010111011100111#32 = .ok (.addi 55 32 12007) ∧
    decode .S 0b00010001011000100001011000000000#32 = .ok (.mul 22 8 22 false) ∧
    decode .S 0b00010110011011100000100000000000#32 = .ok (.mulh 38 56 8 0) ∧
    decode .S 0b00011010011000010111010100000000#32 = .ok (.and 38 5 53) ∧
    decode .S 0b00011110111101101111011000000000#32 = .ok (.or 47 27 54) ∧
    decode .S 0b00100000111101011111011000000000#32 = .ok (.xor 15 23 54) ∧
    decode .S 0b00100100011010001011010100000000#32 = .ok (.andn 6 34 53) ∧
    decode .S 0b00101010001001111101010100000001#32 = .ok (.shl 34 31 21 true) ∧
    decode .S 0b00101101011100110000110000000001#32 = .ok (.shr 23 12 12 true) ∧
    decode .S 0b00110001010010011110011000000000#32 = .ok (.sar 20 39 38 false) := by decide

/-- S slot, rows 13 to 24 of its table (R21 to R29). -/
theorem test_decode_S_2 :
    decode .S 0b00110101010101100000000110010010#32 = .ok (.shi 21 24 true 2 18) ∧
    decode .S 0b00111011100000101100000000000001#32 = .ok (.clz 56 11 true) ∧
    decode .S 0b00111110000110010100000000000001#32 = .ok (.popc 33 37 true) ∧
    decode .S 0b01000001001001000001100000000000#32 = .ok (.min 18 16 24) ∧
    decode .S 0b01000100111011101011001100000000#32 = .ok (.max 14 58 51) ∧
    decode .S 0b01001010101101001001011000000000#32 = .ok (.minu 43 18 22) ∧
    decode .S 0b01001110111010101101001100000000#32 = .ok (.maxu 46 43 19) ∧
    decode .S 0b01010011101010011101010010000000#32 = .ok (.cmp 7 5 14 41 false) ∧
    decode .S 0b01010111000110111000000010100111#32 = .ok (.cmpi 6 3 28 167) ∧
    decode .S 0b01011001001111010111100000001001#32 = .ok (.sSel 19 53 56 true 1) ∧
    decode .S 0b01011110111100101010010011001101#32 = .ok (.movi 47 173261) ∧
    decode .S 0b01100010011100101111110100100001#32 = .ok (.movhi 39 2 64801) := by decide

/-- S slot, rows 25 to 36 of its table (R21 to R29). -/
theorem test_decode_S_3 :
    decode .S 0b01100111110001111011010100000110#32 = .ok (.lea 60 30 53 6) ∧
    decode .S 0b01101010101100100100101110000011#32 = .ok (.bfx 43 9 false 46 3) ∧
    decode .S 0b01101100101001101100001011101010#32 = .ok (.bfi 10 27 11 42) ∧
    decode .S 0b01110001100100011100011010000000#32 = .ok (.plog 3 2 true 6 true 5) ∧
    decode .S 0b01110111000000001100000000000000#32 = .ok (.pmovSet 6 6) ∧
    decode .S 0b01110100000000000000001100000001#32 = .ok (.pmovPack 6) ∧
    decode .S 0b01110100000001000000000000000010#32 = .ok (.pmovUnpk 32) ∧
    decode .S 0b01111000000011011011101100000000#32 = .ok (.chks 54 59) ∧
    decode .S 0b01111110010100000000000000001001#32 = .ok (.rdsys 37 9) ∧
    decode .S 0b10000011110010110100000000000001#32 = .ok (.tfirst 60 45 true) ∧
    decode .S 0b10000100000011100100000001111000#32 = .ok (.stset 57 7 8) ∧
    decode .S 0b10001000001100000000000001010101#32 = .ok (.stget 3 5 5) := by decide

/-- L slot, rows 1 to 12 of its table (R21 to R29). -/
theorem test_decode_L_1 :
    decode .L 0b00000110111101000010110100111101#32 = .ok (.ld 47 16 5 2 317) ∧
    decode .L 0b00001000111100001001010010101011#32 = .ok (.st 15 2 2 2 171) ∧
    decode .L 0b00001101101011111010010010001011#32 = .ok (.ldv 26 62 4 4 2 11) ∧
    decode .L 0b00010010101111010010110011000110#32 = .ok (.stv 43 52 5 4 3 6) ∧
    decode .L 0b00010101000000010110101011011101#32 = .ok (.ldvs 16 5 5 2 3 29) ∧
    decode .L 0b00011010011101011010101001010111#32 = .ok (.stvs 39 22 5 2 1 23) ∧
    decode .L 0b00011100001001110110001010011010#32 = .ok (.ldg 2 29 4 1 154) ∧
    decode .L 0b00100011101101010110010100100011#32 = .ok (.stg 59 21 4 2 291) ∧
    decode .L 0b00100101010000010101110001000010#32 = .ok (.stnt 20 5 3 2 66) ∧
    decode .L 0b00101001010110110010111101010101#32 = .ok (.atom 21 44 47 5 2 true) ∧
    decode .L 0b00101101100100110110000100001001#32 = .ok (.cas 25 13 33 4 true) ∧
    decode .L 0b00110011001101111010100000010000#32 = .ok (.pgreq 51 30 40 true) := by decide

/-- V slot, rows 1 to 12 of its table (R21 to R29). -/
theorem test_decode_V_1 :
    decode .V 0b00000111001010011010100100011001#32 = .ok (.fadd 50 77 36 3 true) ∧
    decode .V 0b00001001110001000001001000001000#32 = .ok (.fsub 28 32 72 1 false) ∧
    decode .V 0b00001100011000001010110100111001#32 = .ok (.fmul 6 5 52 7 true) ∧
    decode .V 0b00010000100110000111001011110010#32 = .ok (.fma 9 67 75 25 false) ∧
    decode .V 0b00010111110100011001000111001101#32 = .ok (.fms 61 12 71 6 true) ∧
    decode .V 0b00011001001000011100101110110111#32 = .ok (.fnma 18 14 46 27 true) ∧
    decode .V 0b00011101001000111010100011010011#32 = .ok (.fmin 18 29 35 2 true true) ∧
    decode .V 0b00100000001001111000001111011001#32 = .ok (.fmax 2 60 15 3 false true) ∧
    decode .V 0b00100101110100100100000100001100#32 = .ok (.fabs 29 18 true 3) ∧
    decode .V 0b00101001100100011000000000000100#32 = .ok (.fneg 25 12 false 1) ∧
    decode .V 0b00101100110001011000111011011001#32 = .ok (.fcmp 1 4 44 59 3 true) ∧
    decode .V 0b00110000101000001100000100011100#32 = .ok (.fclass 10 6 true 7) := by decide

/-- V slot, rows 13 to 24 of its table (R21 to R29). -/
theorem test_decode_V_2 :
    decode .V 0b00110111011101100101000111101000#32 = .ok (.fscl 55 50 71 5 false) ∧
    decode .V 0b00111010101001101100001111101010#32 = .ok (.iadd 42 54 15 5 false 2) ∧
    decode .V 0b00111110010101111010110011111011#32 = .ok (.isub 37 61 51 7 false 3) ∧
    decode .V 0b01000000110010000000100100110111#32 = .ok (.imul 12 64 36 6 true 3) ∧
    decode .V 0b01000111101000100111000010110101#32 = .ok (.imad 58 19 66 26 true) ∧
    decode .V 0b01001001100001010110001100100001#32 = .ok (.iand 24 43 12 4 1) ∧
    decode .V 0b01001111000101110010010001101010#32 = .ok (.ior 49 57 17 5 2) ∧
    decode .V 0b01010000010001000110111111000011#32 = .ok (.ixor 4 35 63 0 3) ∧
    decode .V 0b01010110111101111000111101111001#32 = .ok (.ishl 47 60 61 7 1) ∧
    decode .V 0b01011010110000010000101111101011#32 = .ok (.ishr 44 8 47 5 3) ∧
    decode .V 0b01011101010010001000011000111010#32 = .ok (.isar 20 68 24 7 2) ∧
    decode .V 0b01100001110100110110011101010010#32 = .ok (.imin 29 27 29 2 false 2) := by decide

/-- V slot, rows 25 to 36 of its table (R21 to R29). -/
theorem test_decode_V_3 :
    decode .V 0b01100100101000001100011010111101#32 = .ok (.imax 10 6 26 7 true 1) ∧
    decode .V 0b01101011010000101110011011100011#32 = .ok (.icmp 6 4 23 27 4 3) ∧
    decode .V 0b01101100011000010111000010011010#32 = .ok (.vSel 6 11 66 3 2) ∧
    decode .V 0b01110011100101101000100000011100#32 = .ok (.mov 57 52 8 7) ∧
    decode .V 0b01110101100101100000000000000010#32 = .ok (.bcast 25 24 2) ∧
    decode .V 0b01111001100000001011010000010011#32 = .ok (.vimm 24 2 13331) ∧
    decode .V 0b01111111101001100010110010100011#32 = .ok (.cvt 58 49 12 5 false 3) ∧
    decode .V 0b10000001000010001010011000011100#32 = .ok (.mxqScale 16 69 7) ∧
    decode .V 0b10000001110101000000011001010101#32 = .ok (.mxqElem 29 32 2 5) ∧
    decode .V 0b10000101000100111001000000000101#32 = .ok (.xpnd 17 28 16 1 true) ∧
    decode .V 0b10001000110101010000101100011000#32 = .ok (.pack 13 40 44 3 0) ∧
    decode .V 0b10001110010000010000110100010101#32 = .ok (.unpk 36 8 13 5 true) := by decide

/-- V slot, rows 37 to 48 of its table (R21 to R29). -/
theorem test_decode_V_4 :
    decode .V 0b10010000111101111000000101000100#32 = .ok (.rcp 15 60 true 2 1) ∧
    decode .V 0b10010111001101111100000101101000#32 = .ok (.rsq 51 62 true 3 2) ∧
    decode .V 0b10011010001001000010000010111000#32 = .ok (.exp2 34 33 false 5 6) ∧
    decode .V 0b10011110001100111110000010100100#32 = .ok (.log2 35 31 false 5 1) ∧
    decode .V 0b10100011101110011110000101110100#32 = .ok (.sigm 59 79 true 3 5) ∧
    decode .V 0b10100101011000010010000110011100#32 = .ok (.tanh 22 9 true 4 7) ∧
    decode .V 0b10101011110011000100000000000101#32 = .ok (.xcl 60 49 0 5) ∧
    decode .V 0b10101100010010111100001001011110#32 = .ok (.perm 4 47 2 1 30) ∧
    decode .V 0b10110010000100101010101000011010#32 = .ok (.red 33 21 10 0 6 2) ∧
    decode .V 0b10110111011100100110111100111100#32 = .ok (.accrd 55 9 1511 4) ∧
    decode .V 0b10111001110101000001001000111100#32 = .ok (.accwr 29 16 583 4) ∧
    decode .V 0b10111111111000000000111100010100#32 = .ok (.rngv 62 15 5) := by decide

/-- V slot, rows 49 to 55 of its table (R21 to R29). -/
theorem test_decode_V_5 :
    decode .V 0b11000000010100001100000011000010#32 = .ok (.msk 5 6 3 2) ∧
    decode .V 0b11000100011011011000100011110000#32 = .ok (.vext 6 54 2 240) ∧
    decode .V 0b11001000000001110110011111110011#32 = .ok (.chkv 59 31 6 3) ∧
    decode .V 0b11001111011010011000100011010001#32 = .ok (.modmul 54 76 35 8 true) ∧
    decode .V 0b11010011000010000110100100010000#32 = .ok (.resf 48 67 9 4 false) ∧
    decode .V 0b11010100010101010010101100001000#32 = .ok (.resx 5 41 2 false) ∧
    decode .V 0b11011001010000001100000011000111#32 = .ok (.slc 20 3 3 7) := by decide

/-- M slot, rows 1 to 12 of its table (R21 to R29). -/
theorem test_decode_M_1 :
    decode .M 0b00000111110000100010000001001101#32 = .ok (.mma 3 12 2 8 2 true true true) ∧
    decode .M 0b00000110111100001110100001001110#32 = .ok (.mmaHold 2 15 58 2 true true false) ∧
    decode .M 0b00001000000010011101000001001100#32 = .ok (.mmz 9 52 2 true true) ∧
    decode .M 0b00001100000000000000000000000000#32 = .ok .mholdRel ∧
    decode .M 0b00001101110100000000000000000001#32 = .ok (.mholdChk 29) ∧
    decode .M 0b00010000000000000000000000000000#32 = .ok .morgAdv ∧
    decode .M 0b00010010111100000000000000000001#32 = .ok (.morgRd 47) ∧
    decode .M 0b00010110011100000000000000000010#32 = .ok (.mgang 39 2) ∧
    decode .M 0b00011000110000001000000001100010#32 = .ok (.mdrn 12 2 0 false false true 4 2) ∧
    decode .M 0b00011110010100000000000000000001#32 = .ok (.mstat 37 false true) ∧
    decode .M 0b00100000101011011101000001001001#32 = .ok (.mmi 10 13 52 2 true false true) ∧
    decode .M 0b00100100000000000000010001001100#32 = .ok (.rnsx true 9 4) := by decide

/-- M slot, rows 13 to 16 of its table (R21 to R29). -/
theorem test_decode_M_2 :
    decode .M 0b00101000000000000000000000000000#32 = .ok .rnschk ∧
    decode .M 0b00101100000000000000000000001010#32 = .ok (.rnsdeg 5 false) ∧
    decode .M 0b00110000001000100001110010101101#32 = .ok (.xdot 2 2 7 5 true true true) ∧
    decode .M 0b00110100100001001100000000000000#32 = .ok (.xfin 8 19 false false) := by decide

/-- C slot, rows 1 to 9 of its table (R21 to R29). -/
theorem test_decode_C_1 :
    decode .C 0b00000100010000011100001000100000#32 = .ok (.cpy 4 7 false true false 1) ∧
    decode .C 0b00001011001001000100110011000000#32 = .ok (.cpyd 50 17 3 false false 6) ∧
    decode .C 0b00001110000011101100000100100000#32 = .ok (.cpys 32 59 0 false true 1) ∧
    decode .C 0b00010001000100001000111101100000#32 = .ok (.ctab 17 2 15 3) ∧
    decode .C 0b00010100011111010010111100111000#32 = .ok (.ewr 7 52 12088) ∧
    decode .C 0b00011001101100000000000000000000#32 = .ok (.ego 27) ∧
    decode .C 0b00011110011000110000000000000000#32 = .ok (.tclr 38 12) ∧
    decode .C 0b00100001010010010101110111100000#32 = .ok (.colj 20 37 true true 5 7) ∧
    decode .C 0b00100110010100000000000000101010#32 = .ok (.canj 37 42) := by decide

/-! ### One step, and one instruction, on small states. Expected values are worked out by hand from the rules. -/

/-- The one result in flight after an instruction. -/
def lands (i : Instr) (s : State) (due : Nat) (d : Dest) : Bool :=
  shows (exec i s) (fun t => t.cur.inflight == [{ due := due, dest := d }])

/-- A step from reset with one word placed runs it (R20, R40, R171): MOVI s5, 1000 issues, and pc moves on. -/
theorem test_step_movi : shows (step (State.reset.withFetchWord 32 0x5C5003E8)) (fun t =>
    (t.stream 1 false).inflight == [{ due := 1, dest := .scalar 5 1000 }] && (t.stream 1 false).pc == 1 && (t.stream 1 false).sc == 1) = true := by
  decide

/-- A step on HALT stops the stream with its code (R192). -/
theorem test_step_halt : shows (step (State.reset.withFetchWord 32 0x28000007)) (fun t =>
    (t.stream 1 false).halted && !(t.stream 1 false).live && (t.stream 1 false).haltCode == 7) = true := by decide

/-- A step on an illegal word with no handler stops the stream with cause 0x01 and the word and slot in ctl.tval (R25, R354). -/
theorem test_step_illegal : shows (step (State.reset.withFetchWord 32 0xFC000001)) (fun t =>
    (t.stream 1 false).stopped == some { cause := 1, tval := 0xFC00000100000000 }) = true := by decide

/-- R167: the .w sum of 0x7FFFFFFF and 1 is 0xFFFFFFFF80000000; saturating it stays 0x7FFFFFFF. -/
theorem test_add_wraps : lands (.add 1 2 3 false true) (on (regs [(2, 0x7FFFFFFF), (3, 1)])) 1 (.scalar 1 0xFFFFFFFF80000000) = true ∧
    lands (.add 1 2 3 true true) (on (regs [(2, 0x7FFFFFFF), (3, 1)])) 1 (.scalar 1 0x7FFFFFFF) = true := by decide

/-- R167: 0 - 1 wraps to all ones; the saturating least less one stays the least. -/
theorem test_sub_wraps : lands (.sub 1 2 3 false false) (on (regs [(3, 1)])) 1 (.scalar 1 0xFFFFFFFFFFFFFFFF) = true ∧
    lands (.sub 1 2 3 true false) (on (regs [(2, 0x8000000000000000), (3, 1)])) 1 (.scalar 1 0x8000000000000000) = true := by decide

/-- R167: -1 times 2^64 - 1, signed by unsigned, has the upper half all ones; (2^64 - 1)^2 unsigned has 2^64 - 2. -/
theorem test_mulh : lands (.mulh 1 2 2 2) (on (regs [(2, 0xFFFFFFFFFFFFFFFF)])) 3 (.scalar 1 0xFFFFFFFFFFFFFFFF) = true ∧
    lands (.mulh 1 2 2 1) (on (regs [(2, 0xFFFFFFFFFFFFFFFF)])) 3 (.scalar 1 0xFFFFFFFFFFFFFFFE) = true := by decide

/-- R168: SAR.w of 0x80000000 by 31 is -1, and by 32 moves nothing. -/
theorem test_sar : lands (.sar 1 2 3 true) (on (regs [(2, 0x80000000), (3, 31)])) 1 (.scalar 1 0xFFFFFFFFFFFFFFFF) = true ∧
    lands (.sar 1 2 3 true) (on (regs [(2, 0x80000000), (3, 32)])) 1 (.scalar 1 0xFFFFFFFF80000000) = true := by decide

/-- R168: 64 leading zeros of 0, 32 of the low half; 64 one bits of all ones. -/
theorem test_counts : lands (.clz 1 2 false) base 1 (.scalar 1 64) = true ∧ lands (.clz 1 2 true) base 1 (.scalar 1 32) = true ∧
    lands (.popc 1 2 false) (on (regs [(2, 0xFFFFFFFFFFFFFFFF)])) 1 (.scalar 1 64) = true := by decide

/-- R169: SHI.ror.w of 1 by 1 sets bit 31, sign-extended. R171: MOVHI replaces bits 31:16. -/
theorem test_immediates : lands (.shi 1 2 true 3 1) (on (regs [(2, 1)])) 1 (.scalar 1 0xFFFFFFFF80000000) = true ∧
    lands (.movhi 1 1 0xABCD) (on (regs [(1, 0x1111222233334444)])) 1 (.scalar 1 0x11112222ABCD4444) = true := by decide

/-- R172: four bits from bit 60, sign-extended; the same field inserted. -/
theorem test_bits : lands (.bfx 1 2 true 3 60) (on (regs [(2, 0x8000000000000000)])) 1 (.scalar 1 0xFFFFFFFFFFFFFFF8) = true ∧
    lands (.bfi 1 2 3 60) (on (regs [(1, 0x1F), (2, 0x9)])) 1 (.scalar 1 0x900000000000001F) = true := by decide

/-- R173: -1 < 1 signed, and not unsigned; a write to p7 is discarded. -/
theorem test_cmp : lands (.cmpi 2 2 5 1) (on (regs [(5, 0xFFFFFFFFFFFFFFFF)])) 1 (.pred 4 4) = true ∧
    lands (.cmpi 2 6 5 1) (on (regs [(5, 0xFFFFFFFFFFFFFFFF)])) 1 (.pred 4 0) = true ∧
    lands (.cmpi 7 0 0 0) base 1 (.pred 0 0) = true := by decide

/-- R165: s0 reads 0 and a write to it is discarded; p7 is true. -/
theorem test_hard_wired : (base.cur.ws 0 5).rs 0 = 0 ∧ base.cur.rp 7 = true ∧ (base.curCtx.rm 0).getLsbD 511 = true := by decide +kernel

/-- R181: BR with offset -1 at bundle 4 goes to bundle 3 with two idle cycles; CALL links bundle 5 in s62. -/
theorem test_branch : shows (exec (.br 7 false 0x3FFFFF) base) (fun t => t.cur.pc == 3 && t.cur.idle == 2) = true ∧
    shows (exec (.call 7 false 2) base) (fun t => t.cur.pc == 6 && t.cur.inflight == [{ due := 1, dest := .scalar 62 160 }]) = true := by decide

/-- R183: a misaligned target traps with cause 0x05 and the target in ctl.tval. -/
theorem test_jind_misaligned : shows (exec (.jind 1 2) (on (regs [(2, 33)]))) (fun t =>
    t.cur.tcause == 5 && t.cur.tval == 33 && t.cur.tpc == 128 && t.cur.hnd) = true := by decide

/-- R185: LOOP with a count installs its level; with 0 it goes past the body. -/
theorem test_loop : shows (exec (.loop 0 2 3) (on (regs [(2, 5)]))) (fun t =>
      t.cur.loops.l0 == { active := true, start := 5, stop := 7, rem := 5 }) = true ∧
    shows (exec (.loop 0 2 3) base) (fun t => t.cur.pc == 8) = true := by decide

/-- R186: the inner level is tested first; on its last pass it becomes inactive and the outer one repeats. -/
theorem test_loop_ends : ({ l0 := { active := true, start := 1, stop := 9, rem := 2 }, l1 := { active := true, start := 5, stop := 9, rem := 1 } } : LoopSet).next 9 =
    ({ l0 := { active := true, start := 1, stop := 9, rem := 1 }, l1 := { active := false, start := 5, stop := 9, rem := 0 } }, 1) := by decide

/-- R345, R351, R353: TRAP saves the bundle after its own, cause 0x0B and its code, and enters the handler at ctl.tvec. -/
theorem test_trap : shows (exec (.trap 2 7) (on (regs [(2, 9)]))) (fun t =>
    t.cur.tpc == 160 && t.cur.tcause == 0x1C0B && t.cur.tval == 9 && t.cur.pc == 0 && t.cur.hnd) = true := by decide

/-- R355: TRET returns to ctl.tpc with HND clear. -/
theorem test_tret : shows (exec .tret (on (fun x => { x with stat := 8, tpc := 0x1000 }))) (fun t =>
    t.cur.pc == 0x80 && !t.cur.hnd && t.issue.status == .returning) = true := by decide

/-- R353, R354: a trap in a handler stops the stream and leaves its trap registers. -/
theorem test_double_trap : shows (exec (.illegalEncoding 2 0xFC000000) (on (fun x => { x with stat := 8, tpc := 64 }))) (fun t =>
    !t.cur.live && t.cur.tpc == 64 && t.cur.stopped == some { cause := 1, tval := 0xFC00000000000002 }) = true := by decide

/-- R356: ctl.tpc is 1; R163: ctl.shbound reads 2 after reset. -/
theorem test_rdctl : lands (.rdctl 5 1) (on (fun x => { x with tpc := 0x40 })) 2 (.scalar 5 0x40) = true ∧
    lands (.rdctl 5 0x00A) base 2 (.scalar 5 2) = true := by decide

/-- R24: WRCTL of ctl.tvec with PRIV clear traps with cause 0x02; with PRIV set it waits for the end of the cycle. -/
theorem test_wrctl : shows (exec (.wrctl 6 5) base) (fun t => t.cur.tcause == 2 && t.curCore.endWrites == []) = true ∧
    shows (exec (.wrctl 6 5) (on (fun x => regs [(6, 0x41)] { x with stat := 1 }))) (fun t =>
      t.curCore.endWrites == [.ctl false 5 0x41]) = true := by decide

/-- R179: TFIRST finds tag 3; none gives 64. R180: STGET reads back word 1. -/
theorem test_tags : lands (.tfirst 1 2 false) ((onCtx (fun x => { x with tags := 0x18 })).updCur (regs [(2, 0xF8)])) 2 (.scalar 1 3) = true ∧
    lands (.tfirst 1 2 false) base 2 (.scalar 1 64) = true ∧
    lands (.stget 1 1 3) (onCtx (fun x => { x with str := x.str.set 3 0x550000000000000001 })) 2 (.scalar 1 0x55) = true := by decide +kernel

/-- R188: WAITC freezes; all fields 31 do not. R192 with R190: PMODE freezes until nothing is in flight. -/
theorem test_waits : shows (exec (.waitc 0 31 31 31 31) base) (fun t => t.cur.wait == .counters 0 31 31 31 31) = true ∧
    shows (exec (.pmode true) base) (fun t => t.cur.wait == .mode true) = true := by decide

/-- R196: LD.d of 8 bytes of the own slice, lowest address first, lands after 6 cycles; an address of 4 traps with cause 0x05. -/
theorem test_ld_slice : lands (.ld 1 0 0 3 0) { sliced with mem := [(sliceBase 1, 0x11), (sliceBase 1 + 7, 0x88)] } 6 (.scalar 1 0x8800000000000011) = true ∧
    shows (exec (.ld 1 2 0 3 0) (sliced.updCur (regs [(2, 4)]))) (fun t => t.cur.tcause == 5 && t.cur.tval == 4) = true := by decide

/-- R196: ST.h to package memory starts a store of two bytes, and st rises; nothing is written yet. -/
theorem test_st : shows (exec (.st 1 0 0 1 0) (plain.updCur (regs [(1, 0xABCD)]))) (fun t =>
    t.cur.st == 1 && t.mem == [] && t.cur.ops.map (fun o => o.kind) == [.store [(0x100000, 0xCD), (0x100001, 0xAB)] false false]) = true := by decide

/-- R195: an untranslated address traps with cause 0x0F. -/
theorem test_ld_no_window : shows (exec (.ld 1 2 0 3 0) (on (regs [(2, 0x80000)]))) (fun t => t.cur.tcause == 0x0F && t.cur.tval == 0x80000) = true := by decide

/-- R203: an applied store writes its bytes and st falls. -/
def storing : State := plain.updCur (fun x =>
  { x with st := 1, ops := [{ id := 9, kind := .store [(0x100000, 0xCD), (0x100001, 0xAB)] false false, cls := 0, snap := 0, own := [], nt := false, rep := false, z := false, waits := [], half := none, sentAt := 0, ports := [] }] })

theorem test_store_applied : shows (exec (.storeApplied 1 9) storing) (fun t =>
    t.cur.st == 0 && t.mem == [(0x100000, 0xCD), (0x100001, 0xAB)] && t.cur.ops == []) = true := by decide

/-- R205: ATOM.add on 8 bytes returns the old value and writes the sum. -/
def atoming : State := { plain.updCur (fun x =>
  { x with at_ := 1, ops := [{ id := 9, kind := .atomic 5 0x100000 0 (.op 0) true 3 3, cls := 0, snap := 0, own := [], nt := false, rep := false, z := false, waits := [], half := none, sentAt := 0, ports := [] }] }) with
  mem := [(0x100000, 0xFF)] }

theorem test_atomic : shows (exec (.atomicPerformed 1 9) atoming) (fun t =>
    t.cur.rs 5 == 0xFF && t.mem == [(0x100000, 2), (0x100001, 1)] && t.cur.at_ == 0) = true := by decide

/-- R128, R131, R147: 1 + 2 = 3, 2^24 + 1 rounds to even, the greatest doubled overflows to infinity with its flags. -/
theorem test_fadd : fpBinary fp32 .rne false (addVal .rne) 0x3F800000 0x40000000 = (0x40400000, 0) ∧
    (fpBinary fp32 .rne false (addVal .rne) 0x4B800000 0x3F800000).1 = 0x4B800000 ∧
    (fpBinary fp32 .rne false (addVal .rne) 0x7F7FFFFF 0x7F7FFFFF).1 = 0x7F800000 := by decide

/-- R283: eight right residues of -5 are valid; one wrong channel is located and corrected. -/
theorem test_residues : classify (fun c => ((-5 : Int) % (modulus c : Int)).toNat) 100 false = .valid (-5) false ∧
    classify (fun c => if c = 3 then 7 else ((-5 : Int) % (modulus c : Int)).toNat) 100 false = .located 3 (-5) false := by decide

/-- R388: three ranks reduce as (a + b) + c; an 8-bit sum wraps. -/
theorem test_reduce : reduceTree 8 0 25 [200, 100, 1] = 45 ∧ colElem 3 8 0 1 4 0 [[1], [7]] 0 = 7 := by decide

/-- R399: a message for 5,000 W is clamped to 2,800 W; one below the serial number last taken is dropped. -/
theorem test_budget : shows (exec (.powerBudgetMessage 0x000A_F88_00000001) base) (fun t => t.hub.pwrstat == 2800) = true ∧
    shows (exec (.powerBudgetMessage 0x000A_500_00000001) (onHub (fun h => { h with pwrlast := 0x000A_500_00000002 }))) (fun t =>
      t.hub.pwrstat == 0x1000 ||| 1200) = true := by decide

/-- R82: a doorbell for queue 3 with tail 2 moves its latch; the same tail again does nothing. -/
theorem test_doorbell : shows (exec (.doorbellWrite 3 0 4 2) base) (fun t => tget 0 t.hub.latches 3 == 2) = true ∧
    shows (exec (.doorbellWrite 3 0 4 0) base) (fun t => t.hub.latches == [] && t.hub.bells == []) = true := by decide

/-- R402: without power nothing runs; power-on is the one event taken. -/
theorem test_power : (match step (onHub (fun h => { h with railsUp := false })) with | .fault .noPower => true | _ => false) = true ∧
    shows (step { onHub (fun h => { h with railsUp := false }) with inputs := [.powerOnReset], turn := 0 }) (fun t => t.hub.railsUp) = true := by decide

/-! ### Witnesses: for each statement with hypotheses, states and operands that meet them together -/

/-- DecodeEncodeRoundTrip, DecodedIsWellFormed. -/
theorem witness_decoded : (Instr.add 1 2 3 false true).slot = some .S ∧ (Instr.add 1 2 3 false true).wf = true ∧
    decode .S 0x5C5003E8 = .ok (.movi 5 1000) := by decide

/-- One bundle placed for core 1. -/
def placed (w : Nat) : State := State.reset.withFetchWord 32 w

theorem witness_alone (w : Nat) (h : (placed w).running 1 = true := by decide) : Alone (placed w) 1 :=
  ⟨rfl, rfl, fun h => absurd h (by decide), h, rfl, rfl, ⟨rfl, rfl, rfl, rfl⟩, ⟨rfl, rfl⟩, ⟨rfl, rfl, rfl⟩⟩

/-- What StepRunsDecodedBundle asks of a state before it looks at the outcome. -/
def ready (s : State) : Bool :=
  let r := { s with issue := { s.issue with tagsNamed := 0 } }.fetchRead 1 false
  match r.fetchPlace 1 false with
  | .at_ ia attr =>
    r.fetchLink 1 false ia == .here && (r.firstPoison ((addrs ia 32).map (r.servedAt 1 (attrRep attr)))).isNone &&
      (match decodeBundle (r.fetchBytes 1 false ia) with
       | .ok ins =>
         let u := issuing s 1 ins
         (privilegeFault u.cur ins).isNone && !(u.cur.inter && u.cur.stalled ins)
       | .error _ => false)
  | _ => false

/-- StepRunsDecodedBundle: a bundle that issues, one that is held, one that traps. -/
theorem witness_StepRunsDecodedBundle_ok : ready (placed 0x5C5003E8) = true ∧
    shows (runSlots [.nop, .movi 5 1000, .nop, .nop, .nop, .nop, .nop, .nop]
      (issuing (placed 0x5C5003E8) 1 [.nop, .movi 5 1000, .nop, .nop, .nop, .nop, .nop, .nop])) (fun t => t.issue.status == .ok) = true := by
  decide

theorem witness_StepRunsDecodedBundle_held : ready ((placed 0x30000003).updStream 1 false (fun x => { x with ld := 1 })) = true ∧
    shows (runSlots [.rel 3, .nop] (issuing ((placed 0x30000003).updStream 1 false (fun x => { x with ld := 1 })) 1 [.rel 3, .nop])) (fun t =>
      t.issue.status == .held (.rel false false)) = true := by decide

theorem witness_StepRunsDecodedBundle_trapped : ready (placed 0x4C000000) = true ∧
    shows (runSlots [.tret, .nop] (issuing (placed 0x4C000000) 1 [.tret, .nop])) (fun t => t.issue.status == .trapped { cause := 0x0D, tval := 0 }) = true := by
  decide

/-- StepRunsLastSlotAlone: a TRAP. -/
theorem witness_StepRunsLastSlotAlone : ready (placed 0x48000007) = true ∧
    (let ins := [Instr.trap 0 7, .nop, .nop, .nop, .nop, .nop, .nop, .nop]
     shows (exec (.trap 0 7) (issuing (placed 0x48000007) 1 ins)) (fun t =>
       t.issue.status == .software { cause := 0x0B, tval := 0 } 7 &&
       shows (exec (.trap 0 7) ((issuing (placed 0x48000007) 1 ins).settleIssue ins [])) (fun _ => true))) = true := by decide

/-- OnlyPowerStops, StepKeepsMemoryCanonical. -/
theorem witness_power : State.reset.powered = true ∧ (onHub (fun h => { h with railsUp := false })).powered = false ∧
    (State.reset.mem = [] ∧ Memory.wf [] = true) ∧ shows (step State.reset) (fun t => Memory.wf t.mem) = true := by decide

/-- ResultsLand: one result due; a ring entry that holds an older push. -/
theorem witness_ResultsLand : ((on (fun x => { x with inflight := [{ due := 0, dest := .scalar 5 7 }] })).stream 1 false).inflight.filter
      (fun l => l.due ≤ base.cur.sc) = [{ due := 0, dest := .scalar 5 7 }] ∧ base.cur.ringHeld[3 % 8]'(by decide) < 3 + 1 := by decide

/-- ScalarImmediatesAndFields, ScalarCompareAndPredicates at the ends of their ranges. -/
theorem witness_fields : (31 : BitVec 6).toNat < 32 ∧ (0 : BitVec 6).toNat + ((63 : BitVec 6).toNat + 1) ≤ 64 ∧
    (63 : BitVec 6).toNat + ((0 : BitVec 6).toNat + 1) ≤ 64 ∧ (11 : BitVec 4).toNat ≤ 11 := by decide

/-- SystemValuesAndTags: DUP set with unequal registers and a handler; no gang. -/
theorem witness_SystemValuesAndTags : (on (fun x => regs [(2, 1)] { x with stat := 0x40 })).cur.stat.getLsbD 6 = true ∧
    (on (fun x => regs [(2, 1)] { x with stat := 0x40 })).cur.rs 2 ≠ (on (fun x => regs [(2, 1)] { x with stat := 0x40 })).cur.rs 3 ∧
    Handles (on (fun x => regs [(2, 1)] { x with stat := 0x40 })).cur ∧ base.curCtx.gang = 0 :=
  ⟨by decide, by decide, ⟨by decide, by decide⟩, by decide⟩

/-- LaneFrames: one instruction of each slot that issues. -/
theorem witness_LaneFrames : (Instr.addi 1 2 3).slot = some .S ∧ shows (exec (.addi 1 2 3) base) (fun t => t.issue.status == .ok) = true ∧
    (Instr.vimm 1 2 3).slot = some .V ∧ shows (exec (.vimm 1 2 3) base) (fun t => t.issue.status == .ok) = true := by decide +kernel

/-- Branches: a predicate false and true, a target aligned and not. -/
theorem witness_Branches : (base.cur.rp 1 ^^ false) = false ∧ (base.cur.rp 7 ^^ false) = true ∧ (base.cur.rs 62).toNat % 32 = 0 ∧
    ((on (regs [(62, 31)])).cur.rs 62).toNat % 32 ≠ 0 ∧ Handles (on (regs [(62, 31)])).cur := ⟨by decide, by decide, by decide, by decide, ⟨by decide, by decide⟩⟩

/-- LoopsRepeat: a zero and a nonzero count; both levels at their ends, with passes left and without. -/
theorem witness_LoopsRepeat : base.cur.rs 2 = 0 ∧ (on (regs [(2, 1)])).cur.rs 2 ≠ 0 ∧
    [1#64, 2#64].all (fun r0 => [1#64, 2#64].all (fun r1 =>
      let l : LoopSet := { l0 := { active := true, start := 1, stop := 9, rem := r0 }, l1 := { active := true, start := 5, stop := 9, rem := r1 } }
      l.l1.active && 9 == l.l1.stop && l.l0.active && 9 == l.l0.stop)) = true ∧
    LoopSet.reset.l0.active = false ∧ LoopSet.reset.l1.active = false := by decide

/-- WaitsBeginAndEnd: a timeout that has run out; each wait, its condition false and true. -/
theorem witness_waits : (on (fun x => { x with wait := .tags false true 4 2 (some 0) })).cur.wait = .tags false true 4 2 (some 0) ∧
    (on (fun x => { x with wait := .counters 0 31 31 31 31, ld := 1 })).cur.wait = .counters 0 31 31 31 31 ∧
    ¬((on (fun x => { x with wait := .counters 0 31 31 31 31, ld := 1 })).cur.ld ≤ (0 : BitVec 5).toNat) ∧
    (base.ctx 1).tagBusy &&& 2 = 0 ∧ (onCtx (fun x => { x with tagBusy := 2 })).curCtx.tagBusy &&& 2 ≠ 0 ∧
    (onCtx (fun x => { x with tags := 2 })).curCtx.tags &&& 2 ≠ 0 ∧ (base.core 1).pause = none ∧ (base.stream 1 false).live = true ∧
    (base.stream 1 false).pending = [] ∧ (base.stream 1 false).inflight = [] ∧
    (on (fun x => { x with inflight := [{ due := 5, dest := .scalar 1 1 }] })).cur.inflight ≠ [] := by decide

/-- TrapsAndDoubleTraps: a fetch with no window; a pending report alone and in a WAITC; a handler; no handler. -/
theorem witness_traps : (base.fetchRead 1 false).fetch 1 false = .fault { cause := 0x0F, tval := 128 } ∧
    ((on (fun x => { x with pending := [{ cause := 6, tval := 0 }] })).stream 1 false).pending = [{ cause := 6, tval := 0 }] ∧
    base.cur.hold = .none ∧ base.cur.idle = 0 ∧ base.cur.wait = .none ∧ (on (fun x => { x with stat := 8 })).cur.hnd = true ∧
    (on (fun x => { x with tvec := 0 })).cur.tvec.getLsbD 0 = false := by decide

/-- TrapReturn: a handler with nothing in flight; outside one with a handler address. -/
theorem witness_TrapReturn : let x := (on (fun x => { x with stat := 8 })).cur
    x.hnd = true ∧ x.tstat.toNat < 2 ^ 15 ∧ x.inflight = [] ∧ x.savedWait = .none ∧ base.cur.hnd = false ∧ base.cur.tvec.getLsbD 0 = true := by decide

/-- ControlRegisters: a register that any stream may write, one that needs PRIV; numbers on both sides of the last window. -/
theorem witness_ControlRegisters : ¬needsPriv 0x004 ∧ needsPriv 0x11F ∧ base.cur.priv = false ∧ (on (fun x => { x with stat := 1 })).cur.priv = true ∧
    listedCtl 0x0C0 ∧ listedCtl 0x11F ∧ ¬listedCtl 0x120 ∧ Handles base.cur :=
  ⟨by unfold needsPriv; decide, by unfold needsPriv; decide, by decide, by decide, by unfold listedCtl; decide, by unfold listedCtl; decide,
   by unfold listedCtl; decide, test_handles⟩

/-- RangesAndWordWaits: a range at the end of its window, one beyond it, no window. -/
theorem witness_ranges : canonical 0xFFFF = true ∧ winFind plain.curCtx.win 0xFFFF = some 0 ∧
    0xFFFF + 1 ≤ winBase plain.curCtx.win 0 + winSize plain.curCtx.win 0 ∧ (winAttr plain.curCtx.win 0).getLsbD 0 = true ∧
    oneRegion (0xFFFF - winBase plain.curCtx.win 0 + winOff plain.curCtx.win 0) 1 = true ∧
    ¬(0xFFFF + 2 ≤ winBase plain.curCtx.win 0 + winSize plain.curCtx.win 0) ∧ winFind plain.curCtx.win 0x10000 = none := by decide

/-- WordWaits: an address that passes; a watched word that differs; polls of a window of the host, equal and not; timeouts. -/
theorem witness_WordWaits : (plain.cur.rs 0).toNat % 8 = 0 ∧ Translates plain (plain.cur.rs 0) 8 .read 0x100000 3 ∧
    (sharesFor 0x100000 8 0).all (fun p => plain.curCore.resCache.contains p.1) = true ∧ plain.cur.ops = [] :=
  ⟨by decide, by unfold Translates; decide, by decide, by decide⟩

/-- A wait on a word of package memory, or of a window of the host: with a trap raised since, and with no time left. -/
def watch (ia : Nat) : Watch :=
  { d := 5, va := 0, ia := ia, attr := 3, expect := 1, left := some 0, last := 0, poll := 0, sent := none, pend := 0 }

def watching (w : Watch) : State :=
  (plain.updHub (fun h => { h with hlstat := 0x24B })).updCur (fun x => { x with wait := .addr w, pending := [{ cause := 6, tval := 0 }] })

theorem witness_WordWaits_wake : let s := watching (watch 0x100000)
    (s.stream 1 false).wait = .addr (watch 0x100000) ∧ (watch 0x100000).pend < (s.stream 1 false).pending.length ∧
      watched (regionOf (watch 0x100000).ia) = true ∧ (s.watchServe 1 (watch 0x100000)).watchRead 1 (watch 0x100000) = some 0 ∧ (0 : Word) ≠ (watch 0x100000).expect ∧
      (s.watchServe 1 { watch 0x100000 with expect := 0 }).watchRead 1 { watch 0x100000 with expect := 0 } = some 0 ∧
      ((({ s with fatals := [0x100000] }).watchServe 1 (watch 0x100000)).watchRead 1 (watch 0x100000)).isNone = true ∧
      s.cur.halted = false ∧ s.cur.stopped = none ∧
      watched (regionOf (watch hostBase).ia) = false ∧ (watching (watch hostBase)).linkUp (regionOf (watch hostBase).ia) = true ∧
      { watch hostBase with sent := some (9, 0) }.sent ≠ none ∧ (watch hostBase).poll = 0 ∧ (watch hostBase).left = some 0 := by decide +kernel

/-- YieldsAndSwaps: a secondary dead and live, targets aligned and not, a header with and without a secondary, a yield on one
core and on two. -/
theorem witness_StartAndYield : base.curCtx.sec.live = false ∧ base.curCtx.sec.stopped = none ∧ (base.cur.rs 3).toNat % 32 = 0 ∧ base.curCtx.hdrFlags.getLsbD 3 = false ∧
    (onCtx (fun x => { x with hdrFlags := 8 })).curCtx.hdrFlags.getLsbD 3 = true ∧ base.curCtx.secEntry.toNat % 32 = 0 ∧
    (onCtx (fun x => { x with sec := { x.sec with live := true } })).curCtx.sec.live = true ∧ ((on (regs [(3, 8)])).cur.rs 3).toNat % 32 ≠ 0 ∧
    Handles (on (regs [(3, 8)])).cur ∧ (on (fun x => { x with wait := .yield 4 40 })).cur.wait = .yield 4 40 ∧
    1 < (coresOf (onCtx (fun x => { x with placed := 3 })).curCtx.placed).length ∧ (coresOf base.curCtx.placed).length ≤ 1 ∧ base.taskOf 1 = none :=
  ⟨by decide, by decide, by decide, by decide, by decide, by decide, by decide, by decide, ⟨by decide, by decide⟩, by decide, by decide, by decide, by decide⟩

/-- A context placed on cores 0 to 2 that a group is granted to. -/
def member : State :=
  ((onCtx (fun x => { x with placed := 7, taskId := 9 })).updHub (fun h =>
    { h with groups := [{ number := 5, ranks := [(0, 0, 1)], formed := true, closed := false, grants := [9], counts := [], barrier := 0, joined := 0, rewind := none, gone := false }] })).updCur
      (regs [(2, 5), (3, 0x17), (4, 6)])

/-- DomainsAndPhases: levels 2 to 5; cores inside and outside the placement; a group granted and one not. -/
theorem witness_DomainJoins : 2 ≤ (2 : BitVec 3).toNat ∧ (5 : BitVec 3).toNat ≤ 5 ∧ member.curCtx.prim.atPhase 3 = false ∧ member.curCtx.sec.atPhase 3 = false ∧
    ((member.cur.rs 2).toNat < 256 ∧ ((member.cur.rs 2).setWidth 8 ||| (1#8 <<< member.issue.core.val)) &&& ~~~member.curCtx.placed = 0) ∧
    ((member.cur.rs 3).setWidth 8 ||| (1#8 <<< member.issue.core.val)) &&& ~~~member.curCtx.placed ≠ 0 ∧
    (∃ g ∈ member.hub.groups, g.number = (member.cur.rs 2).toNat ∧ member.curCtx.taskId ∈ g.grants) ∧
    ¬∃ g ∈ member.hub.groups, g.number = (member.cur.rs 4).toNat ∧ member.curCtx.taskId ∈ g.grants := by decide

/-- A stream at a boundary of its own level. -/
def atPhase (chk arrived : Bool) (r : Option Word) : State := on (fun x => { x with hold := .phase 1 chk arrived r })

theorem witness_PhaseReleaseAcquire : (atPhase false true (some 0)).cur.hold = .phase 1 false true (some 0) ∧ base.cur.hold = .none ∧ base.cur.passed = none ∧ base.cur.reporting true = false ∧
    (atPhase false false none).mayArrive 1 false = true ∧ effectiveLevel (atPhase false false none).curCtx.domain 1 ≤ 3 ∧
    (atPhase false true none).boundaryReady 1 false = 1 ∧ (atPhase false true none).released 1 1 0 = [(1, false)] ∧
    (base.cur.ld = 0 ∧ base.cur.st = 0 ∧ base.cur.at_ = 0 ∧ base.cur.checks ≤ base.now) ∧ (on (fun x => { x with st := 1 })).cur.st ≠ 0 ∧
    (on (fun x => { x with hold := .rel true false })).cur.hold = .rel true false := by decide

theorem witness_PhaseReleaseAcquire_members : ∀ m ∈ (atPhase false true none).released 1 1 0, ∀ l k a,
    ((atPhase false true none).stream m.1 m.2).hold = .phase l k a none → k = false := by
  rw [witness_PhaseReleaseAcquire.2.2.2.2.2.2.2.1]
  intro m hm l k a h
  rw [List.mem_singleton.1 hm] at h
  exact (Hold.phase.inj h).2.1.symm

/-- A task whose checkpoint is being copied. -/
def aTask : Task :=
  { key := 7, taskId := 9, state := .running, prio := 0, n := 1, shape := 0, rcls := 0, cores := [1], queue := none, seq := 0, slot := 0, packet := 0
    scratch := 0, order := 0, saved := [], sliced := [], place := 0, started := true, protectedFrom := none, ended := none, checkpoints := [], copying := 0, start := Ctx.reset }

def checkpointing : State :=
  { (onCtx (fun x => { x with task := 7, placed := 2, chk := 1 })).updCur (fun x => { x with hold := .phase 3 true true none }) with
    tasks := [{ aTask with copying := 1 }] }

theorem witness_checkpoint : checkpointing.checkpointAt 7 = some (1, false) ∧ checkpointing.copyingOf 1 = 1 ∧
    effectiveLevel (checkpointing.ctx 1).domain (((checkpointing.stream 1 false).boundary.map (·.1)).getD 3) ≤ 3 := by decide

/-- A privileged stream with two 2 MiB areas in package memory, mapped by window 0. -/
def areas : State := (onCtx (fun x => { x with win := (((x.win.set 0 0).set 1 0x40).set 2 0x400000).set 3 3 })).updCur
  (fun x => regs [(3, 0x200000)] { x with stat := 1 })

/-- The same with a staged context in the bank. -/
def stagedArea : State := areas.updCore 1 (fun k => { k with bank := .staged, bankByTask := true })

/-- ProgramSwaps: an empty bank and one in use; a staging that ends; a swap on one core and on two. -/
theorem witness_ProgramSwaps : areas.cur.priv = true ∧ (areas.cur.rs 0).toNat % 2 ^ 21 = 0 ∧ (areas.cur.rs 3).toNat % 2 ^ 21 = 0 ∧
    translate areas.curCtx.win (areas.cur.rs 0) (2 ^ 21) .read = some (0x400000, 3) ∧
    translate areas.curCtx.win (areas.cur.rs 3) (2 ^ 21) .write = some (0x600000, 3) ∧ inPackage 0x400000 = true ∧ inPackage 0x600000 = true ∧
    areas.curCore.bank = .empty ∧ stagedArea.curCore.bank = .staged ∧ stagedArea.curCore.bankFor = none ∧ base.cur.priv = false ∧ stagedArea.curCore.bankByTask = true ∧
    stagedArea.curCore.live = true ∧ (coresOf stagedArea.curCtx.placed).length ≤ 1 ∧ areas.curCore.bank ≠ .staged ∧
    1 < (coresOf (stagedArea.updCtx 1 (fun x => { x with placed := 6 })).curCtx.placed).length := by decide

/-- Where no image was ever written, none can be staged. -/
theorem stageImage_none {s : State} (c : CoreId) (a : Nat) (h : s.readRange a (a + areaBytes) = s) (hi : s.hub.images = []) :
    (s.stageImage c a).2.2 = none := by
  unfold State.stageImage
  simp only [h, (s.noteWalks_frame (areaPieces a)).1, hi, List.find?_nil]
  split
  · rfl
  · split
    · rfl
    · split <;> rfl

theorem witness_ProgramSwaps_staging : (on (fun x => { x with wait := .staging 5 0x400000 0x600000 0x200000 })).cur.wait = .staging 5 0x400000 0x600000 0x200000 ∧
    (base.core 1).bank = .empty ∧ (base.stageImage 1 0x400000).2.2 = none :=
  ⟨by decide, by decide, stageImage_none _ _ (State.readRange_clean _ _ rfl rfl rfl) rfl⟩

/-- Package memory at address 0 with room for atomics, and one confirmed share. -/
def both : State := plain

/-- LoadsStoresAndAtomicsIssue: an aligned, translated and confirmed address in package memory and in the own slice; a
misaligned one; one without a window; a request with and without its attribute. -/
theorem witness_Checked : Checked both (both.cur.rs 0) 8 .read 0x100000 3 ∧ Checked both (both.cur.rs 0) 8 .write 0x100000 3 ∧
    Checked both (both.cur.rs 0) 8 .rmw 0x100000 3 ∧ Checked sliced (sliced.cur.rs 0) 8 .read (sliceBase 1) 3 ∧
    Checked sliced (sliced.cur.rs 0) 8 .write (sliceBase 1) 3 :=
  ⟨⟨by decide, by unfold Translates; decide, by unfold Confirmed; decide⟩, ⟨by decide, by unfold Translates; decide, by unfold Confirmed; decide⟩,
   ⟨by decide, by unfold Translates; decide, by unfold Confirmed; decide⟩, ⟨by decide, by unfold Translates; decide, by unfold Confirmed; decide⟩,
   ⟨by decide, by unfold Translates; decide, by unfold Confirmed; decide⟩⟩

theorem witness_LoadsStoresAndAtomicsIssue : both.cur.ops = [] ∧ regionOf 0x100000 ≠ .slice both.issue.core.val ∧ both.cur.ld < 32 ∧ both.cur.st < 32 ∧
    both.cur.at_ < 16 ∧ regionOf (sliceBase 1) = .slice sliced.issue.core.val ∧
    (sliced.bankClash (sliced.placesAt (addrs (sliceBase 1) 8)) true).isNone = true ∧ sliced.agedAt (sliced.placesAt (addrs (sliceBase 1) 8)) false = false ∧
    sliced.curCore.spdiag.getLsbD 2 = false ∧ (sliced.noteReads (addrs (sliceBase 1) 8)).firstPoison (addrs (sliceBase 1) 8) = none ∧
    ((on (regs [(2, 4)])).cur.rs 2).toNat % 8 ≠ 0 ∧ Handles (on (regs [(2, 4)])).cur ∧ translate base.curCtx.win 0 8 .read = none ∧
    (1 : Nat) ≤ 2 ^ 30 ∧ translate both.curCtx.win 0 1 .probe = some (0x100000, 3) ∧ (3 : BitVec 6).getLsbD 0 = true ∧
    ((3 : BitVec 6).getLsbD 1 && !(3 : BitVec 6).getLsbD 3) = true ∧
    translate (onCtx (mapped 0x100000 1)).curCtx.win 0 1 .probe = some (0x100000, 1) ∧ ((1 : BitVec 6).getLsbD 1 && !(1 : BitVec 6).getLsbD 3) = false :=
  ⟨by decide, by decide, by decide, by decide, by decide, by decide, by decide, by decide, by decide, by decide, by decide, ⟨by decide, by decide⟩, by decide,
   by decide, by decide, by decide, by decide, by decide, by decide⟩

/-- Element 0 alone enabled: m1 holds its eight bits. -/
def oneElem (s : State) : State := s.updCtx 1 (fun x => { x with m := x.m.set 1 0xF })

/-- VectorAccesses: no element enabled; one enabled element in package memory and in the own slice. -/
theorem witness_VectorAccesses_none : (base.vecAccess 0 8 2 3).elems = [] ∧ (2 : BitVec 3) ≠ 0 := by decide +kernel

theorem witness_VectorAccesses : ((oneElem both).vecAccess 0 8 1 3).elems = [0] ∧
    VecReaches (oneElem both) ((oneElem both).vecAccess 0 8 1 3) { (oneElem both).vecAccess 0 8 1 3 with shift := 0x100000 } .read 3 ∧
    VecReaches (oneElem both) ((oneElem both).vecAccess 0 8 1 3) { (oneElem both).vecAccess 0 8 1 3 with shift := 0x100000 } .write 3 ∧
    VecReaches (oneElem sliced) ((oneElem sliced).vecAccess 0 8 1 3) { (oneElem sliced).vecAccess 0 8 1 3 with shift := sliceBase 1 } .read 3 := by
  refine ⟨by decide +kernel, ⟨by decide +kernel, by decide +kernel, ⟨0x100000, by decide +kernel, by decide +kernel⟩⟩, ⟨by decide +kernel, by decide +kernel, ⟨0x100000, by decide +kernel, by decide +kernel⟩⟩,
    ⟨by decide +kernel, by decide +kernel, ⟨sliceBase 1, by decide +kernel, by decide +kernel⟩⟩⟩

theorem witness_VectorAccesses_places : let b := { (oneElem sliced).vecAccess 0 8 1 3 with shift := sliceBase 1 }
    let p := { (oneElem both).vecAccess 0 8 1 3 with shift := 0x100000 }
    regionOf (b.ia 0) = .slice 1 ∧ (firstPass ((oneElem sliced).placesAt b.bytes)).length = ((oneElem sliced).placesAt b.bytes).length ∧
    ((oneElem sliced).bankClash (firstPass ((oneElem sliced).placesAt b.bytes)) true).isNone = true ∧
    regionOf (p.ia 0) = .pkg ∧ p.shares.all (fun q => (oneElem both).curCore.resCache.contains q.1) = true := by decide +kernel

/-- Two enabled elements 8 KiB apart lie in one sub-bank: the access takes two passes. -/
def twoElems : State := sliced.updCtx 1 (fun x => { x with m := x.m.set 1 0xF })

theorem witness_VectorAccesses_passes : let b := { twoElems.vecAccess 0 8192 1 2 with shift := sliceBase 1 }
    b.elems = [0, 1] ∧ (firstPass (twoElems.placesAt b.bytes)).length ≠ (twoElems.placesAt b.bytes).length ∧
    (twoElems.bankClash (firstPass (twoElems.placesAt b.bytes)) false).isNone = true ∧
    twoElems.agedAt (firstPass (twoElems.placesAt b.bytes)) false = false ∧ 2 ^ 30 < Nat.max (2 ^ 31) 1 := by decide +kernel

/-- A load, a vector load and a page request outstanding. -/
def op (k : OpKind) : Op := { id := 9, kind := k, cls := 0, snap := 0, own := [], nt := false, rep := false, z := false, waits := [], half := none, sentAt := 0, ports := [] }

def waiting (k : OpKind) : State := both.updCur (fun x => { x with ops := [op k], ld := 1, st := 1, at_ := 1 })

/-- LoadsReturn, StoresApply, AtomicsPerform: what returns, an operation that awaits a grant, an own write that does not meet it. -/
theorem witness_LoadsReturn : ((waiting (.load 5 0x100000 8 0 false)).core 1).opBank 9 = some (false, false, op (.load 5 0x100000 8 0 false)) ∧
    ((waiting (.load 5 0x100000 8 0 false)).serveRead 1 (op (.load 5 0x100000 8 0 false))).firstPoison
      ((addrs 0x100000 8).map ((waiting (.load 5 0x100000 8 0 false)).servedAt 1 false)) = none ∧
    ((waiting (.load 5 0x100000 8 0 false)).stream 1 false).own = [] ∧ (op (.load 5 0x100000 8 0 false)).waits = [] ∧
    (let o := { op (.load 5 (sliceBase 2) 8 0 false) with waits := [(2, 0)] }
     ((both.updCur (fun x => { x with ops := [o], ld := 1 })).core 1).opBank 9 = some (false, false, o) ∧ o.waits ≠ []) ∧
    ((waiting (.page 5 hostBase 8)).core 1).opBank 9 = some (false, false, op (.page 5 hostBase 8)) ∧ (8 : Nat) ≤ 2 ^ 30 ∧
    ((waiting (.page 5 0x100000 8)).core 1).opBank 9 = some (false, false, op (.page 5 0x100000 8)) ∧ logged (regionOf 0x100000) = true ∧
    logged (regionOf hostBase) = false ∧ (on (fun x => { x with hold := .residency 0x100000 false })).cur.hold = .residency 0x100000 false := by decide

theorem witness_LoadsReturn_vector : let a : VecAccess := { base := 0, stride := 8, sz := 3, en := 0xF, mask := 0, shift := 0x100000 }
    ((waiting (.vload 5 a)).core 1).opBank 9 = some (false, false, op (.vload 5 a)) ∧ a.mask = 0 := by decide +kernel

theorem witness_StoresApply : ((waiting (.store [(0x100000, 1)] false false)).core 1).opBank 9 = some (false, false, op (.store [(0x100000, 1)] false false)) ∧
    ((waiting (.store [(0x100000, 1)] false false)).writeReady (.storeApplied 1 9) [0x100000]).2 = true ∧
    Memory.wf (waiting (.store [(0x100000, 1)] false false)).mem = true ∧ both.spdiagOf 0x100000 = 0 ∧ both.linkUp (regionOf 0x100000) = true ∧
    both.placed [(0x100000, 1)] = [(0x100000, 1)] ∧ both.poison = [] ∧ both.fatals = [] := by decide

/-- A write to the package memory of pod device 1, sent on no port, on port 3 that is up, and on one that has fallen; one that
its home holds. -/
def sending (ports : List (Nat × Option Nat)) : State := (waiting (.page 0 0 0)).updCur (fun x =>
  { x with ops := [{ op (.store [(0xA000000000000, 1)] false false) with ports := ports }] })

theorem witness_StoresApply_ports : let o := fun l => { op (.store [(0xA000000000000, 1)] false false) with ports := l }
    regionOf 0xA000000000000 = .peerPkg 256 ∧
    ([[], [(0xA0000000000, none)], [(0xA0000000000, some 3)]] : List (List (Nat × Option Nat))).all (fun l =>
      ((sending l).core 1).opBank 9 == some (false, false, o l) && ((sending l).writeReady (.storeApplied 1 9) [0xA000000000000]).2) = true ∧
    ((sending []).updHub (fun h => { h with ulstat := Vector.replicate 18 2 })).portUp 3 = true ∧ (sending []).portUp 3 = false ∧
    0xA000000000000 / 256 = 0xA0000000000 ∧
    (let s := waiting (.store [(0x100000, 1)] false false)
     ((s.updHome (homeOf 0x100000) (fun m => { m with invalidating := [(0x100000, 2)] })).writeReady (.storeApplied 1 9) [0x100000]).2) = false := by
  decide

theorem witness_AtomicsPerform : let k := OpKind.atomic 5 0x100000 0 (.op 0) true 1 3
    ((waiting k).core 1).opBank 9 = some (false, false, op k) ∧ (5 : BitVec 6) ≠ 0 ∧ 0x100000 % 8 = 0 ∧ pagedHere (regionOf 0x100000) = true ∧
    ((waiting k).writeReady (.atomicPerformed 1 9) (addrs 0x100000 8)).2 = true ∧ (waiting k).poison = [] ∧ (waiting k).fatals = [] ∧
    (waiting k).canonical := ⟨by decide, by decide, by decide, by decide, by decide, by decide, by decide, by unfold State.canonical; decide⟩

/-- HomesAndBanks: a share that may be unmapped; a resident page of a stack; a page with copies to withdraw; a snoop. -/
def mappedHome : State := (base.mapPointers 0x20000).mapShare 0x20000 false

theorem witness_HomesAnswer : homeOf 0x20000 = 0 ∧ mappedHome.mayUnmap 0x20000 = true ∧ mappedHome.shareInUse (shareOf 0x20000) = false ∧
    regionOf 0x1000000000000 = .stack 0 ∧ homeOf 0x1000000000000 = 0 ∧ ((base.mapPointers 0x1000000000000).mapShare 0x1000000000000 false).resident 0x1000000000000 = true ∧
    aget ((base.updHome 0 (fun m => { m with invalidating := [(0x1000000000000, 6)] })).home 0).invalidating 0x1000000000000 = some 6 ∧
    (6 : BitVec 8) &&& ~~~(1#8 <<< 1) ≠ 0 ∧ (2 : BitVec 8) &&& ~~~(1#8 <<< 1) = 0 ∧ (6 : BitVec 8).getLsbD 1 = true ∧
    aget ((base.updHome (homeOf 0x40) (fun m => { m with snoops := [(0x40, false)] })).home (homeOf 0x40)).snoops 0x40 = some false := by decide +kernel

/-- The memory of a state and its page tables are in their one form. -/
theorem canonical_of (s : State) (h : (Memory.wf s.mem && allCores.all (fun c => twf 0 (s.home c).pte)) = true) : s.canonical := by
  simp only [Bool.and_eq_true, List.all_eq_true] at h
  exact ⟨h.1, fun c => h.2 c (by revert c; decide)⟩

/-- HomesAnswer, PatrolsAndBanks: a page that may have copies; a copy's home that differs; a firmware write that waits for the host. -/
def copyable : State := ((onCtx (mapped 0x1000000000000 0x13)).mapPointers 0x1000000000000).mapShare 0x1000000000000 false

theorem witness_HomesAnswer_copies : (copyable.leafOf 0x1000000000000).map (·.1) = some 4 ∧ copyable.replicable 0x1000000000000 = true ∧
    (1 : CoreId) ≠ homeOf 0x1000000000000 ∧
    (base.updHub (fun h => { h with fwWrites := [(0x40, [1, 2], none)] })).hub.fwWrites = [(0x40, [1, 2], none)] ∧ 0x40 % 64 = 0 ∧
    regionOf 0x40 = .pkg ∧ ([1, 2] : List Byte).length ≤ 64 ∧ base.hub.fwWrites = [] := by decide +kernel

theorem witness_canonical : copyable.canonical ∧ mappedHome.canonical :=
  ⟨canonical_of _ (by decide +kernel), canonical_of _ (by decide +kernel)⟩

theorem witness_PatrolsAndBanks : pagedHere (regionOf 0x100000) = true ∧ base.poison = [] ∧ ({ base with fatals := [0x100000] }).fatals = [0x100000] ∧
    ({ base with flips := [0x100000, sliceBase 1] }).flips = [0x100000, sliceBase 1] ∧ 0x100038 / 64 * 64 = 0x100000 ∧
    0x100000 ∈ (List.range 8).map (fun i => 0x100000 + 8 * i) ∧ base.bankTaken 1 (slicePlace 0).index = false ∧ 3 ≠ 1 ∧ 8 * 0 < sliceBytes ∧
    (base.core 1).spdiag = 0 ∧ base.fatals = [] ∧ sliceBase 1 + 8 * 0 ∈ ((onCore (fun k => { k with writeback := [sliceBase 1] })).core 1).writeback ∧
    (base.core 1).remote = [] ∧ (onCore (fun k => { k with remote := [{ bank := 3, requester := 8, arrived := 0 }] })).mayGrant 1 3 = true := by decide

/-- VectorOperands, VectorFloatingPoint, VectorComparesAndReductions, VectorMovesAndConversions: operands of every range. -/
theorem witness_vector_ranges : 0 < 64 ∧ 64 * (127 + 1) ≤ 8192 ∧ (63 : BitVec 7).toNat < 64 ∧ base.issue.pushed = 0 ∧
    7 < (on (fun x => { x with pushes := 8 })).cur.pushes ∧ 0x7F800000 < 0xFFC00001 % 2 ^ 31 ∧ 0xFFC00001 < 2 ^ 32 ∧
    (0x7F800001 : Nat).testBit 22 = false ∧ (3 : BitVec 2) ≠ 0 ∧ ((1 : BitVec 5).toNat ≤ 1 ∨ 8 ≤ (1 : BitVec 5).toNat ∧ (1 : BitVec 5).toNat ≤ 11) ∧
    (2 : BitVec 2).toNat ≤ 2 ∧ (15 : BitVec 6).toNat < 1024 / (16 * 2 ^ (2 : BitVec 2).toNat) ∧ unpkWidth 6 ≠ 0 ∧
    [some 3, none].length = 2 ^ 1 ∧ ([some 3, none] : List (Option Nat)) ≠ [some 3, none].map (fun _ => none) := by decide

/-- VectorBlocksAndResidues: an accumulator that no operation names; equal elements; unequal ones with DUP set. -/
theorem witness_VectorBlocks : (4 : BitVec 3).toNat ≤ 4 ∧ base.accBusy 4 = false ∧ base.curCtx.badInBlock 4 0 = [] ∧ base.cur.dup = false ∧
    (on (fun x => { x with stat := 0x40 })).cur.dup = true ∧ base.vsrc 72 .int 64 0 ≠ base.vsrc 73 .int 64 0 ∧ base.ven 0 64 0 = true ∧
    8 ≤ (15 : BitVec 5).toNat := by decide +kernel

/-- A tile of one element: M, N, K and the mask in s2 to s5, A in st1 of the west, B in st2 of the north group. -/
def aStream : BitVec 512 := BitVec.ofNat 512 (2 * 2 ^ 28 + 2 * 2 ^ 33 + 2 ^ 64 + 2 ^ 96 + 2 * 2 ^ 192 + 2 * 2 ^ 224)
def bStream : BitVec 512 := BitVec.ofNat 512 (0x3000000 + 2 ^ 27 + 2 * 2 ^ 28 + 2 * 2 ^ 33 + 2 ^ 64 + 2 ^ 96 + 2 * 2 ^ 192 + 2 * 2 ^ 224)

def tiling (m n k mask : Word) : State :=
  (onCtx (fun x => { x with str := (x.str.set 1 aStream).set 2 bStream })).updCur (regs [(2, m), (3, n), (4, k), (5, mask)])

def mmaReq : TileReq := { kind := .mma, acc := 0, a := 1, b := 2, sg := 2, fmt := 0, g := false, adv := false, z := true, hold := false, instr := .mma 0 1 2 2 0 false false true }

/-- TileOperations: an operation that passes every condition; one that fails each operand check. -/
theorem witness_TileMayIssue : TileMayIssue (tiling 1 1 1 1) mmaReq :=
  { solo := Or.inl rfl, drained := by decide, bound := by decide, banks := by decide +kernel, free := by decide +kernel, late := by decide +kernel
    checks := by
      simp only [tileChecks, List.forall_mem_cons]
      refine ⟨by decide, by decide, ⟨fun _ => by decide, fun h => absurd h (by rintro ⟨_, h⟩; cases h)⟩, by decide +kernel,
        fun _ => by unfold StreamPasses; decide +kernel, fun _ => by unfold StreamPasses; decide +kernel, fun h => absurd h (by decide), fun h => absurd h (by decide),
        fun h => absurd h (by decide), fun h => absurd h (by decide), fun _ h => nomatch h⟩ }

theorem witness_TileOperandChecks :
    (tiling 0 1 1 1).tileCheck mmaReq ((tiling 0 1 1 1).tileOf mmaReq) = some 1 ∧ (tiling 129 1 1 1).tileCheck mmaReq ((tiling 129 1 1 1).tileOf mmaReq) = some 1 ∧
    (tiling 1 193 1 1).tileCheck mmaReq ((tiling 1 193 1 1).tileOf mmaReq) = some 2 ∧
    (tiling 1 1 0x1000001 1).tileCheck mmaReq ((tiling 1 1 0x1000001 1).tileOf mmaReq) = some 3 ∧
    (tiling 1 1 1 0).tileCheck mmaReq ((tiling 1 1 1 0).tileOf mmaReq) = some 4 ∧
    (tiling 2 1 1 1).tileCheck mmaReq ((tiling 2 1 1 1).tileOf mmaReq) = some 5 ∧
    (tiling 1 2 1 1).tileCheck mmaReq ((tiling 1 2 1 1).tileOf mmaReq) = some 6 ∧ Handles (tiling 1 1 1 0).cur ∧
    encode mmaReq.instr = some 0x04120801 :=
  ⟨by decide +kernel, by decide +kernel, by decide +kernel, by decide +kernel, by decide +kernel, by decide +kernel, by decide +kernel, ⟨by decide, by decide⟩, by decide⟩

/-- The operation at the head of the feed, two cycles after its issue. -/
def tile (k : TileKind) (st : TileStage) : TileOp :=
  { id := 9, sec := false, kind := k, acc := 0, astr := aStream, bstr := bStream, anum := 1, bnum := 2, aCore := 1, bCore := 1, rows := 1, cols := 1, k := 1
    mask := 1, fmt := 0, z := true, g := false, cfg := 0, gn := 0, hold := false, deg := false, mode := false, ox := 0, oy := 0, steps := 1, done := 0
    stage := st, ready := 0, events := 0, poison := none, inj := none, shadow := none, bnd := 2, waits := none }

def feeding (k : TileKind) (st : TileStage) : State := onCtx (fun x => { x with tiles := [tile k st] })

/-- CubeAndPlaneSteps: a step that may go, one that the current balance withholds, one of a plane operation. -/
theorem witness_CubeSteps : ((feeding .mma .feed).feedHead 1).map (·.id) = some 9 ∧ (tile .mma .feed).cfg = 0 ∧ (tile .mma .feed).ready ≤ base.now ∧
    (feeding .mma .feed).layerLost 1 (tile .mma .feed) = false ∧ (feeding .mma .feed).stepBlocked 1 (tile .mma .feed) = false ∧
    ((feeding .mma .feed).updCore 1 (fun k => { k with balance := 0 })).stepBlocked 1 (tile .mma .feed) = true ∧
    ((feeding .mmi .feed).feedHead 1).map (·.kind) = some .mmi ∧ (feeding .mmi .feed).stepBlocked 1 (tile .mmi .feed) = false ∧
    twf 0 (base.ctx 1).acc = true ∧ twf 0 (base.ctx 1).plane.sums = true ∧ channelOf (base.ctx 1).rns false 0 = some 0 := by decide +kernel

/-- TilesAndDrainsComplete, ResidueExtraction. -/
theorem witness_TilesComplete : (((feeding .mma .settle).core 1).tileBank 9).map (·.1) = some false ∧ (tile .mma .settle).stage ≠ .feed ∧
    (((feeding (.xdot 14) .settle).core 1).tileBank 9).map (·.2.kind) = some (.xdot 14) ∧ (2 ^ 24 : Word).getLsbD 24 = true ∧
    base.now ≤ base.cur.checks ∧ base.cur.hold = .none ∧
    ((onCtx (fun x => { x with tiles := [{ tile .mma .feed with done := 1 }] })).ctx 1).tiles.any (fun t => t.sec == false && t.kind = .mma && 0 < t.done) = true ∧
    (tile .mma .feed).mask.getLsbD (getBits 0 15 4) = true ∧ (tile .mma .feed).shadow = none := by
  decide +kernel

theorem witness_TilesComplete_shadow : ((onCtx (fun x => { x with tiles := [{ tile .mma .feed with done := 1 }] })).ctx 1).tiles.find?
      (fun t => t.sec == false && t.kind = .mma && 0 < t.done) = some { tile .mma .feed with done := 1 } ∧
    (((onCtx (fun x => { x with tiles := [{ tile .mma .feed with done := 1 }] })).core 1).tileBank 9).map (·.1) = some false := by decide +kernel

theorem witness_DrainsComplete_row : let o := tile (.mdrn 1 0 false false) .drain
    (rowBytes 1 o 1 0 false [] 0).all (fun p => regionOf p.1 == .slice 1) = true ∧ (rowBytes 1 o 1 0 false [] 0).length = elemSize (storeFmt 1) ∧
    (feeding (.mdrn 1 0 false false) .drain).poison = [] ∧ (feeding (.mdrn 1 0 false false) .drain).fatals = [] := by decide +kernel

theorem witness_DrainsComplete : let s := feeding (.mdrn 1 0 false false) .drain
    ((s.core 1).tileBank 9).map (·.2.kind) = some (.mdrn 1 0 false false) ∧ (s.ctx 1).tiles.any (fun u => u.acc = 0 && u.id < 9) = false ∧
    (s.core 1).spdiag = 0 ∧ (s.ctx 1).accBad = [] ∧ regionOf (sliceBase 1) = .slice 1 ∧
    ((onCtx (fun x => { x with tiles := [{ tile .mma .feed with id := 3 }, tile (.mdrn 1 0 false false) .drain] })).ctx 1).tiles.any
      (fun u => u.acc = 0 && u.id < 9) = true ∧
    (((feeding (.xfin false 0 0) .drain).core 1).tileBank 9).map (·.2.kind) = some (.xfin false 0 0) := by decide +kernel

/-- A plane set of one element whose eight residues are right, and one of which two are wrong. -/
def extracting (v : BitVec 16) (done : Nat) : State := onCtx (fun x =>
  { x with tiles := [{ tile (.rnsx 4 0) .settle with acc := 4, done := done, z := false }], rns := 1
           plane := { PlaneSet.reset with held := true, rows := 1, cols := 1, mask := 0xFF, bound := 8, sums := [(0, v), (24576, v)] } })

theorem witness_ResidueExtraction : (((extracting 0 0).core 1).tileBank 9).map (·.2.kind) = some (.rnsx 4 0) ∧ ((extracting 0 0).ctx 1).plane.magx = false ∧
    ((classifyAll ((extracting 0 0).ctx 1).rns ((extracting 0 0).ctx 1).plane).filter (fun e => e.bandE)).length = 0 ∧
    ((classifyAll ((extracting 7 0).ctx 1).rns ((extracting 7 0).ctx 1).plane).filter (fun e => e.bandE)).length = 1 ∧
    (classifyAll ((extracting 7 9).ctx 1).rns ((extracting 7 9).ctx 1).plane).any (fun e => e.unc) = true ∧ twf 0 ((extracting 0 0).ctx 1).accw = true := by
  decide +kernel

/-- ResidueExtraction: the writes begin, of a set that is right and of one with an uncorrectable element. -/
theorem witness_ResidueExtraction_writes : [TileStage.write true [], .write false (classifyAll ((extracting 7 0).ctx 1).rns ((extracting 7 0).ctx 1).plane)].all (fun st =>
      (((onCtx (fun x => { x with tiles := [{ tile (.rnsx 4 0) st with acc := 4, z := false }] })).core 1).tileBank 9).any (fun p => p.2.stage == st && p.2.done == 0)) = true ∧
    ((classifyAll ((extracting 7 0).ctx 1).rns ((extracting 7 0).ctx 1).plane).find? (fun e => e.bandE)).isSome = true ∧
    (tile (.rnsx 4 0) (.write false [])).poison = none ∧ base.cur.stopped = none ∧ base.cur.halted = false ∧ base.cur.pending = [] := by decide +kernel

/-- ResidueCorrection: a value within both bounds; a wrong residue. -/
theorem witness_ResidueCorrection : 2 * (-5 : Int).natAbs < modInfo ∧ 2 * 5 < modInfo ∧ (-5 : Int).natAbs ≤ 5 ∧ 7 < 8 ∧
    0 ≠ ((-5 : Int) % (modulus 7 : Int)).toNat := by decide

/-- DrainsIssue: a plane set held, one not, one with MAGX; shapes and destinations that pass; privilege. -/
def heldSet (magx : Bool) : State := onCtx (fun x => { x with plane := { PlaneSet.reset with held := true, magx := magx, rows := 1, cols := 1 } })

def draining (fmt size : Nat) : State := (onCtx (fun x => { x with str := x.str.set 3 (BitVec.ofNat 512
  (fmt * 2 ^ 28 + 2 * 2 ^ 33 + 192 * 2 ^ 64 + 128 * 2 ^ 96 + size * 2 ^ 192 + size * 2 ^ 224)) })).updCur (regs [(2, 1 + 256)])

theorem witness_DrainsIssue : (heldSet false).planeDraining = false ∧ (heldSet false).curCtx.plane.held = true ∧ (heldSet false).curCtx.plane.magx = false ∧
    (heldSet true).curCtx.plane.magx = true ∧ base.curCtx.plane.held = false ∧ (heldSet false).cubeFreeze 4 true = none ∧ (heldSet false).cubeFreeze 5 true = none ∧
    (8 : BitVec 4).toNat ≤ 8 ∧ (on (fun x => { x with stat := 1 })).cur.priv = true ∧ base.curCtx.tiles = [] ∧
    (draining 2 2).cur.rs 2 = BitVec.ofNat 64 (1 + 256 * 1) ∧ destOk ((draining 2 2).curCtx.rstr 3) 2 2 1 1 = true ∧
    destConflict ((draining 2 2).curCtx.rstr 3) 2 1 1 = none ∧ destOk ((draining 1 8).curCtx.rstr 3) 1 8 1 1 = true ∧
    destConflict ((draining 1 8).curCtx.rstr 3) 1 1 1 = none ∧ arrayOk 0 1 = true ∧ (draining 2 2).cubeFreeze 0 false = none ∧
    (draining 1 8).cubeFreeze 4 false = none := by decide +kernel

/-- CubeManagement: a slab; a gang allowed and one not; a rendezvous of two cores. -/
def ganging : State :=
  ((onCtx (fun x => { x with placed := 6, shape := 1, gang := 1, task := 7 })).updCore 2 (fun k => { k with live := true, ctx := { k.ctx with placed := 6, shape := 1, gang := 1, task := 7 } })).updStream 1 false
    (fun x => { x with hold := .gang [0, 1] (0, 0) 0 })

theorem witness_CubeManagement : (onCtx (fun x => { x with slab := some { h := 15, n := 1, k := 1, mask := 1, fmt := 0, g := false, cfg := 0, ox := 0, oy := 0 } })).curCtx.slab.isSome = true ∧
    base.curCtx.gangAllowed 0 = true ∧ base.curCtx.gangAllowed 1 = false ∧
    ((ganging.updStream 2 false (fun x => { x with live := true, hold := .gang [0, 1] (0, 0) 0 })).gangMeeting 1 false).isSome = true := by decide +kernel

/-- CopyJobsIssue: a free and a used tag; descriptors bad, empty, and of one byte that translates and does not. -/
def copying (l : List (BitVec 6 × Word)) : State := plain.updCur (regs l)

theorem witness_CopyJobsIssue : (plain.curCtx.tagBusy ||| plain.issue.tagsNamed) &&& (BitVec.ofNat 64 (2 ^ (63 : BitVec 6).toNat)) = 0 ∧
    plain.curCtx.jobs.length + Nat.max 1 plain.issue.jobs ≤ 64 ∧ plain.cur.cp < 64 ∧
    (onCore (fun k => { k with endWrites := [.tagClear 2] })).curCore.endWrites = [.tagClear 2] ∧ ((onCtx (fun x => { x with tagBusy := 2 })).curCtx.tagBusy ||| base.issue.tagsNamed) &&& 2 ≠ 0 ∧
    (let s := copying [(11, 0x8000), (12, 0x100000001)]
     let len := getBits (s.cur.rs 12) 0 32
     let rows := getBits (s.cur.rs 12) 32 32
     len * rows ≤ 2 ^ 40 ∧ ¬1 < rows ∧ 0 < len ∧ 0 < rows ∧ translate s.curCtx.win (s.cur.rs 11) 1 .write = some (0x108000, 3) ∧
     translate s.curCtx.win (s.cur.rs 10) 1 .read = some (0x100000, 3) ∧ (0x108000 + 1 ≤ 0x100000 ∨ 0x100000 + 1 ≤ 0x108000)) ∧
    translate plain.curCtx.win 0x10000 1 .write = none ∧ gatherBad (plain.curCtx.e.set 4 1) = false ∧ gatherBad plain.curCtx.e = true ∧
    translate plain.curCtx.win 0 128 .read = some (0x100000, 3) := by decide

/-- A job that waits, of a plain copy of one byte between two slices. -/
def extentOf (ia : Nat) (wr : Bool) : Extent := { va := 0, ia := ia, len := 1, wr := wr, attr := 3 }
def job (k : JobKind) : Job :=
  { id := 9, tag := 3, sec := false, kind := k, cls := 0, span := false, nt := false, snap := 0, own := [], regions := [], edges := [], stores := []
    started := false, depFailed := false, engine := none, cursor := { done := 0, bit := 0, entry := none }, wrote := [], sentAt := 0, addr := 0, waits := none }
def byteCopy : JobKind := .copy (extentOf (sliceBase 1) false) (extentOf (sliceBase 2) true) 0 0 1 1 0 0 false
def jobbing (k : JobKind) : State := onCtx (fun x => { x with jobs := [job k], tagBusy := 8 })

/-- Package memory at address 0 and the own slice at 0x10000. -/
def twoWindows (l : List (BitVec 6 × Word)) : State :=
  ((onCtx (fun x => { (mapped 0x100000 3 x) with win := (((((mapped 0x100000 3 x).win.set 4 0x10000).set 5 1).set 6 (BitVec.ofNat 64 (sliceBase 1))).set 7 3) })).updCur
    (regs l))

/-- CopyJobsIssue: a CPYD and a CPYS into the own slice, into package memory, and onto their own source; a gather whose regions are
apart, one whose regions meet, one with no window; a full scheduler. -/
def decoding (dst : Word) : State := twoWindows [(10, 0), (11, dst), (12, 0x100000001), (13, 0)]
def expanding (dst : Word) : State := twoWindows [(10, 0), (11, dst), (12, 1), (13, 0x800)]
def gathering (dst : Word) : State := (twoWindows []).updCtx 1 (fun x =>
  { x with e := ((((((x.e.set 3 1).set 4 1).set 8 0).set 9 (BitVec.ofNat 64 (2 ^ 63 + 16))).set 10 dst).set 11 (BitVec.ofNat 64 (2 ^ 62 + 16))) })

def apart (s : State) (n k m : Nat) (home : Bool) : Bool :=
  match s.extent (s.cur.rs 10) n false, s.extent (s.cur.rs 11) k true, s.extent (s.cur.rs 13) m false with
  | some x, some y, some z => (x.meets y || z.meets y) == false && (regionOf y.ia == .slice 1) == home
  | _, _, _ => false

theorem witness_CopyJobsIssue_places : apart (decoding 0x10000) 1 1 0 true = true ∧ apart (decoding 0x8000) 1 1 0 false = true ∧
    apart (decoding 0) 1 1 0 false = false ∧ ((decoding 0x20000).extent 0x20000 1 true).isNone = true ∧ (decoding 0).cur.rs 13 = 0 ∧
    apart (expanding 0x10000) 2 4 1 true = true ∧ apart (expanding 0x8000) 2 4 1 false = true ∧ apart (expanding 0) 2 4 1 false = false ∧
    (getBits ((expanding 0x10000).cur.rs 12) 32 32 = 0 ∧ ((expanding 0x10000).cur.rs 10).toNat % 2 ^ (0 : BitVec 2).toNat = 0) ∧
    (onCtx (fun x => { x with jobs := List.replicate 64 (job (.settled 0 0)) })).curCtx.jobs.length = 64 := by decide +kernel

theorem witness_Gathers : gatherBad (gathering 0x10000).curCtx.e = false ∧ 0 < getBits (gathering 0x10000).curCtx.e[3] 0 32 ∧
    (((gatherRegions (gathering 0x10000).curCtx.e).mapM (fun r => (gathering 0x10000).extent r.1 r.2.1 r.2.2)).map
      (fun l => l.all (fun a => l.all (fun b => a.wr || !b.wr || !a.meets b)))) = some true ∧
    (((gatherRegions (gathering 0).curCtx.e).mapM (fun r => (gathering 0).extent r.1 r.2.1 r.2.2)).map
      (fun l => l.all (fun a => l.all (fun b => a.wr || !b.wr || !a.meets b)))) = some false ∧
    ((gatherRegions (gathering 0x20000).curCtx.e).mapM (fun r => (gathering 0x20000).extent r.1 r.2.1 r.2.2)) = none ∧
    gatherBad base.curCtx.e = true ∧ gatherBad (base.curCtx.e.set 4 1) = false ∧ getBits (base.curCtx.e.set 4 1)[3] 0 32 = 0 := by
  decide +kernel

/-- JobsRun: a copy of two lines at its first, one of a byte at its last. -/
def lineCopy : JobKind := .copy { extentOf (sliceBase 1) false with len := 128 } { extentOf (sliceBase 2) true with len := 128 } 0 0 128 1 0 0 false

theorem witness_JobsRun_lines : ((jobbing byteCopy).core 1).packetJob 9 = none ∧ ((jobbing byteCopy).core 1).live = true ∧
    ((jobbing byteCopy).core 1).swapEnd ≤ (jobbing byteCopy).now ∧ ((jobbing byteCopy).core 1).sliceBusy = false ∧ (job byteCopy).edges = [] ∧
    [byteCopy, lineCopy].all (fun k =>
      let s := onCtx (fun x => { x with jobs := [{ job k with started := true, waits := some [] }], tagBusy := 8 })
      ((s.ctx 1).findJob 9).any (fun j => j.started && j.cursor.done == 0) && ((s.jobTakes 1 { job k with started := true, waits := some [] } ((addrs (sliceBase 1) 64).reverse ++ (addrs (sliceBase 2) 64).reverse)).2) &&
        (s.writeReady (.jobComplete 1 9) (addrs (sliceBase 2) 64)).2) = true ∧
    0 + Nat.min (1 - 0) 64 = 1 ∧ 0 + Nat.min (128 - 0) 64 < 128 ∧ (addrs (sliceBase 2) 64).all (fun a => regionOf a == .slice 2) = true := by
  decide +kernel

theorem witness_JobsRun_canonical : (jobbing byteCopy).canonical := canonical_of _ (by decide +kernel)

theorem witness_JobsRun : (((jobbing byteCopy).ctx 1).findJob 9) = some (job byteCopy) ∧ byteCopy.needsEngine = true ∧
    (jobbing byteCopy).freeEngine 1 = some 0 ∧ ((jobbing (.settled 4 0)).ctx 1).findJob 9 = some (job (.settled 4 0)) ∧
    regionOf (sliceBase 1) = .slice 1 ∧ regionOf (sliceBase 2) = .slice 2 ∧ (jobbing byteCopy).spdiagOf (sliceBase 1) = 0 ∧
    ((jobbing byteCopy).writeReady (.jobComplete 1 9) [sliceBase 2]).2 = true ∧ (jobbing byteCopy).poison = [] ∧ (jobbing byteCopy).fatals = [] := by decide

/-- A granted group of two ranks on this device, open and closed. -/
def pairGroup (closed : Bool) : Group :=
  { number := 5, ranks := [(0, 0, 1), (0, 0, 2)], formed := true, closed := closed, grants := [9], counts := [], barrier := 0, joined := 0, rewind := none, gone := false }
def grouped (closed : Bool) : State :=
  ((plain.updCtx 1 (fun x => { x with taskId := 9 })).updHub (fun h => { h with groups := [pairGroup closed] })).updCur
    (regs [(11, 0x8000), (12, 0x500000001), (13, 8)])

/-- CollectivesIssue: an all-reduce of one byte; a group not granted; a collective on a tag. -/
theorem witness_CollectivesIssue : let s := grouped false
    s.group (getBits (s.cur.rs 12) 32 12) = some (pairGroup false) ∧ (pairGroup false).grantedTo s.curCtx = true ∧ s.rankOf (pairGroup false) 1 = some 0 ∧
    colBad 0 1 8 0 0 2 false = false ∧ colBad 0 0 8 0 0 2 true = true ∧ (s.extent 0 1 false).isSome = true ∧ (s.extent 0x8000 1 true).isSome = true ∧
    (pairGroup true).closed = true ∧ base.group 0 = none ∧ base.curCtx.collectiveOn 3 = none ∧
    (jobbing (.collective 0 5 0 0 2 none none 1 8 0 0)).curCtx.collectiveOn 3 = some (5, 0) := by decide

/-- A pair at its striker in a state, with requests. -/
def desc : StrikeDesc := { op := 0, fmt := 8, red := 0, n := 1, root := 0, failed := false }
def pairOf (st : PairState) (rs : List (Nat × StrikeDesc)) : Pair := { group := 5, index := 0, strike := 0, state := st, requests := rs, done := [], status := 0, ackAt := 0 }
def striking (st : PairState) (rs : List (Nat × StrikeDesc)) : State :=
  (grouped false).updHub (fun h => { h with strikers := [(0, { next := 1, acked := 1, standby := false, pairs := [pairOf st rs] })] })

/-- StrikesAndReductions: a started pair at its head with its rank on this device, the rank's job between two slices; a barrier. -/
def rankJob (failed : Bool) : Job :=
  { job (.collective 0 5 0 0 2 (some (extentOf (sliceBase 1) false)) (some (extentOf (sliceBase 2) true)) 1 8 0 0) with depFailed := failed }

def colliding (failed : Bool) : State := (striking .started [(0, desc)]).updCtx 1 (fun x => { x with jobs := [rankJob failed], tagBusy := 8 })

theorem witness_CollectivesRun : [false, true].all (fun f => ((colliding f).striker (pairGroup false).striker).head == some (pairOf .started [(0, desc)]) &&
      (colliding f).pairJobs 5 0 == [(1, 9)] && ((colliding f).ctx 1).findJob 9 == some (rankJob f) &&
      (colliding f).localRanks 5 0 == [{ core := 1, id := 9, rank := 0, job := rankJob f, src := some (extentOf (sliceBase 1) false), dst := some (extentOf (sliceBase 2) true) }] &&
      ((colliding f).localRanks 5 0).all (colliding f).rankReady) = true ∧
    1 % elemSize 8 = 0 ∧ ((colliding false).writeReady (.collectiveStart (pairGroup false).striker) (addrs (sliceBase 2) 1)).2 = true ∧
    regionOf (sliceBase 1) = .slice 1 ∧ regionOf (sliceBase 2) = .slice 2 ∧ (colliding false).spdiagOf (sliceBase 1) = 0 ∧ (colliding false).poison = [] ∧
    ((striking .active [(0, desc)]).striker 0).head = some (pairOf .active [(0, desc)]) ∧
    isBarrier ({ pairOf .started [] with index := 2 ^ 32 } : Pair).index = true := by decide +kernel

/-- GroupsRollBack: what a checkpoint recorded; a member that is not reached, and a task of its own. -/
def recorded (rewind : Option (Bool × Bool)) : State := { ((striking .started [(0, desc)]).updHub (fun h =>
    { h with groups := [{ pairGroup false with rewind := rewind }], marks := [{ group := 5, interval := 1, next := 1, indices := [] }] })) with
  tasks := [aTask] }

theorem witness_GroupsRollBack : let g := { pairGroup false with rewind := some (false, false) }
    (recorded none).group 5 = some (pairGroup false) ∧ (pairGroup false).reached = true ∧ (pairGroup false).older = false ∧
    pick (pairGroup false).older ((recorded none).hub.marks.filter (fun m => m.group = 5)) = some { group := 5, interval := 1, next := 1, indices := [] } ∧
    (recorded (some (false, false))).group 5 = some g ∧ g.reached = false ∧ aTask.taskId ∈ g.grants ∧
    aTask.state ≠ .retired ∧ aTask.ended = none ∧ aTask.started = true := by decide

theorem witness_GroupsRollBack_task : aTask ∈ (recorded (some (false, false))).tasks := List.mem_cons_self

/-- StrikesAndReductions: no pair; an active one with one request of two; one with both; a started one. -/
theorem witness_Strikes : (grouped false).group 5 = some (pairGroup false) ∧ (grouped false).pair 5 0 = none ∧ 0 < (pairGroup false).parties 0 ∧
    1 < (pairGroup false).parties 0 ∧ ((grouped false).striker (pairGroup false).striker).outstanding < 2 ^ 30 ∧
    (striking .active [(0, desc)]).pair 5 0 = some (pairOf .active [(0, desc)]) ∧ (striking .active [(0, desc)]).hub.strikers.length = 1 ∧
    (pairOf .active [(0, desc)]).requests.length + 1 = (pairGroup false).parties 0 ∧ { desc with n := 2 } ≠ desc ∧
    (pairOf .active [(0, desc), (1, desc)]).agreed 2 = true ∧
    ((striking .started [(0, desc), (1, desc)]).striker 0).head = some (pairOf .started [(0, desc), (1, desc)]) ∧ isBarrier 0 = false ∧
    isBarrier (2 ^ 32) = true ∧ ((striking .started [(0, desc), (1, desc)]).localRanks 5 0).all (striking .started [(0, desc), (1, desc)]).rankReady = true := by decide

theorem witness_Reductions : 8 ≤ 15 ∧ 15 ≤ 15 ∧ ([1, 2, 3] : List Nat) ≠ [] ∧ [1, 2, 3].length ≤ 2 ^ 24 ∧ ∀ x ∈ [1, 2, 3], x < 2 ^ fmtWidth 8 := by decide

/-- TasksArePlaced: a READY task with a core free; staged; with its context staged. -/
def tasked (st : TaskState) : State := { State.reset with tasks := [{ aTask with state := st, started := false, cores := if st = .ready then [] else [1] }] }

theorem witness_TasksArePlaced : (tasked .ready).task 7 = some { aTask with state := .ready, started := false, cores := [] } ∧
    (tasked .ready).restarting = false ∧ (tasked .ready).hub.devstat.getLsbD 1 = false ∧
    (tasked .ready).placement { aTask with state := .ready, started := false, cores := [] } = some [0] ∧ ((tasked .ready).core 1).bank = .empty ∧
    (((tasked .staged).updCore 1 (fun k => { k with bank := .staged })).core 1).bank = .staged ∧ (tasked .staged).victims { aTask with state := .staged, started := false } = [] ∧
    ((on (fun x => x)).updStream 1 true (fun x => { x with waitCount := 15 })).cur.waitCount = 0 ∧
    (((on (fun x => x)).updStream 1 true (fun x => { x with waitCount := 15 })).stream 1 true).waitCount = 15 := by decide +kernel

/-- TasksArePlaced: a started task with its context saved; its swap, with a bank not yet staged and with a task that makes way. -/
def leaving (st : TaskState) : Task := { aTask with state := st, saved := [(1, Ctx.reset)] }

def staging (st : TaskState) (b : BankState) : State :=
  { ((onCtx (fun x => { x with task := 8 })).updCore 1 (fun k => { k with bank := b, bankFor := if b = .staged then some (7, false) else none })) with
    tasks := [leaving st, { aTask with key := 8 }] }

theorem witness_TasksArePlaced_swap : (staging .ready .empty).task 7 = some (leaving .ready) ∧ (staging .staged .empty).task 7 = some (leaving .staged) ∧
    aget (leaving .ready).saved 1 = some Ctx.reset := ⟨rfl, rfl, rfl⟩

theorem witness_TasksArePlaced_cores : (staging .ready .empty).swapCores (leaving .ready) = [1] ∧ (leaving .ready).cores.Nodup ∧
    ((staging .ready .empty).core 1).bank = .empty ∧ (leaving .ready).ended = none ∧
    (staging .staged .empty).swapCores (leaving .staged) = [1] ∧ ((staging .staged .empty).core 1).bank ≠ .staged ∧
    ((staging .staged .staged).victims (leaving .staged)).map (fun h => (h.key, (staging .staged .staged).draining h, h.copying)) = [(8, false, 0)] ∧
    (((staging .staged .staged).core 1).bank = .staged ∧ ((staging .staged .staged).core 1).bankFor = some (7, decide ((1 : CoreId) ∉ (leaving .staged).cores))) ∧
    (tasked .ready).agenda.any (fun e => e.2 = .contextStage 7) = false := by decide +kernel

/-- SpillsAndSlices: a bank that spills, ready and not, for its task and for a program; a page absent; a held bank; zeros after another queue's task. -/
def spilling (byTask : Bool) : State := { (onCore (fun k => { k with bank := .spilling, bankByTask := byTask, saveArea := 0x400000, shadow := { k.shadow with task := 7 } })) with tasks := [aTask] }

theorem witness_SpillsAndSlices : ((spilling false).core 1).spillReady = true ∧
    (((spilling false).updCore 1 (fun k => { k with cubeDrain := true })).core 1).spillReady = false ∧ (spilling false).task ((spilling false).core 1).shadow.task = some aTask ∧
    ((spilling true).core 1).bankByTask = true ∧ ((spilling true).absentIn 0x400000).head? = some 0x400000 ∧
    ((onCore (fun k => { k with bank := .held })).core 1).bank = .held ∧ (base.core 1).bank ≠ .spilling ∧ Memory.wf base.mem = true := by decide +kernel

/-- A 2 MiB page of package memory at an address, resident in every home. -/
def withPage (ia : Nat) (s : State) : State :=
  [(0 : CoreId), 1, 2, 3, 4, 5, 6, 7].foldl (fun s h => s.updHome h (fun m =>
    { ((m.pointer ia 1).pointer ia 2) with pte := tput 0 ((m.pointer ia 1).pointer ia 2).pte (pteKey 3 ia) 0x80003 })) s

theorem witness_SpillsAndSlices_area : ((spilling false).core 1).saveArea = 0x400000 ∧
    (withPage 0x400000 (spilling false)).spillStop 0x400000 imageStart = none ∧
    ((spilling false).spillStop 0x400000 imageStart).isSome = true ∧ ((spilling false).core 1).spill = none ∧
    ((onCore (fun k => { k with bank := .spilling, spill := some (2, 4096) })).core 1).spill.isSome = true := by decide +kernel

/-- A held context on a core where nothing stands in its way, and on one where another task does not yet stand still. -/
def holding (st : Nat) : State := { (onCore (fun k => { k with bank := .held, shadow := { k.shadow with task := 7 }, ctx := { k.ctx with task := 8, prim := { k.ctx.prim with st := st } } })) with
  tasks := [aTask, { aTask with key := 8 }] }

theorem witness_HeldContexts : ((holding 0).core 1).bank = .held ∧ (holding 0).task ((holding 0).core 1).shadow.task = some aTask ∧
    ((holding 0).core 1).bank ≠ .spilling ∧ ((holding 0).inWay aTask).all (holding 0).settled = true ∧
    ((holding 1).inWay aTask).all (holding 1).settled = false := by decide +kernel

/-- A slice transfer: not begun, at its end, at a part; a save area absent and resident. -/
def moving (xfer : Option (List XferPart)) : State := { (onCore (fun k => { k with sliceBusy := true, xfer := xfer, ctx := { k.ctx with task := 7 } })) with
  tasks := [{ aTask with queue := some 3, scratch := 4 }] }

def part (kind : XferKind) : XferPart := { kind := kind, task := 7, lo := 0, hi := 4 }

theorem witness_SliceTransfers : ((moving none).core 1).sliceBusy = true ∧ ((moving none).core 1).xferHeld = false ∧ ((moving none).core 1).bank = .empty ∧
    (((moving none).updCore 1 (fun k => { k with bank := .held })).core 1).bank = .held ∧
    ((moving (some [])).core 1).xfer = some [] ∧ ((moving (some [])).holder 1).map (·.key) = some 7 ∧ ((moving (some [])).core 1).sliceTask = none ∧
    [XferKind.save, .restore, .zero].all (fun k => ((moving (some [part k])).core 1).xfer == some [part k]) = true ∧
    (moving none).xferStop 1 (part .zero) = none ∧ (moving none).xferStop 1 (part .save) = some 0 ∧
    (((moving none).mapPointers (sliceArea 0 1)).mapShare (sliceArea 0 1) false).xferStop 1 (part .restore) = none ∧ (part .zero).lo ≤ (part .zero).hi ∧
    ((moving none).core 1).lastQueue ≠ some 3 ∧ 3 < Nat.max (4096 / 1024) ((((moving none).core 1).highWater + 1023) / 1024) := by decide +kernel

/-- TasksEndAndRollBack: halted, drained, ended, with and without a checkpoint; during a restart. -/
def running7 : State := { (onCtx (fun x => { x with task := 7, chk := 3, prim := { x.prim with live := false, halted := true } })) with tasks := [aTask] }

/-- A task whose checkpoint was taken at a boundary of level 4 with group 5. -/
def podTask : Task := { aTask with checkpoints := [(1, [(1, { Ctx.reset with chk := 3, domain := BitVec.ofNat 64 (2 ^ 40 + 5 * 2 ^ 16), prim := { Ctx.reset.prim with hold := .phase 4 true true none } })])] }

theorem witness_TasksEnd : running7.task 7 = some aTask ∧ running7.taskHalted aTask = true ∧
    ({ running7 with tasks := [{ aTask with state := .draining }] }).taskDone { aTask with state := .draining } = true ∧ aTask.ended = none ∧
    running7.restarting = false ∧ (running7.updHub (fun h => { h with devstat := 4 })).restarting = true ∧ running7.canRollBack aTask = false ∧
    running7.canRollBack { aTask with checkpoints := [(1, [(1, { Ctx.reset with chk := 3 })])] } = true ∧ 16 < 17 ∧
    ({ aTask with checkpoints := [(1, [(1, { Ctx.reset with chk := 3 })])] } : Task).checkpointGroup = none ∧
    running7.canRollBack podTask = true ∧ podTask.checkpointGroup = some 5 ∧ (running7.group 5).all (fun p => p.rewind.isNone) = true := by decide +kernel

theorem witness_HostQuiet : HostQuiet running7 ∧ ¬HostQuiet (running7.updHub (fun h => { h with hlstat := 0x200 })) :=
  ⟨⟨by decide, by decide⟩, fun h => absurd h.2 (by decide)⟩

/-- A queue whose descriptor stands in memory: ring at 0x2000, completion ring at 0x3000, 16 entries, enabled, priority 5; and a packet of it. -/
def queue : State := { (onHub (fun h => { h with devstat := 1 })) with
  mem := Memory.putAll [] (atAddr 0xC0 (bytesOfNat 8 0x2000 ++ bytesOfNat 8 0x3000 ++ [4, 3, 5, 0])) }

def packetOf (bits : Nat) (st : PacketState) : Packet :=
  { key := 6, queue := 3, serial := 0, bits := BitVec.ofNat 512 bits, state := st, order := 1, bell := 0, deadline := none, last := 0, access := none }

def packeted (bits : Nat) (st : PacketState) : State := queue.updHub (fun h => { h with packets := [packetOf bits st] })

def mayBegin (bits kind : Nat) : Bool :=
  let s := packeted bits .waiting
  let p := packetOf bits .waiting
  decide (s.packet p.key = some p) && p.kind == kind && p.state == .waiting && s.mayBegin p && s.serving && s.firstReady.map (fun q => q.key) == some p.key && p.firstBad == none &&
    decide (p.prio.toNat ≤ s.descField p.queue 0x12 1)

theorem mayBegin_spec {bits kind : Nat} (h : mayBegin bits kind = true) : MayBegin (packeted bits .waiting) (packetOf bits .waiting) kind := by
  simp only [mayBegin, Bool.and_eq_true, decide_eq_true_eq, beq_iff_eq] at h
  obtain ⟨⟨⟨⟨⟨⟨⟨h1, h2⟩, h3⟩, h4⟩, h5⟩, h6⟩, h7⟩, h8⟩ := h
  exact ⟨⟨h1, h3, rfl, h4, h5, h6⟩, h2, h7, h8⟩

/-- QueuesAreConsumed: latches in form; a doorbell ahead; a gated device; a published packet and one not yet; a bad field; one too urgent. -/
theorem witness_Queues : twf 0 queue.hub.latches = true ∧ serialAhead 1 0 = true ∧ serialAhead 0 0 = false ∧ (onHub (fun h => { h with devstat := 3 })).hub.devstat.getLsbD 1 = true ∧
    queue.serving = true ∧ queue.descOk 3 = true ∧ queue.hub.ignored = [] ∧
    serialAhead (tget 0 (queue.updHub (fun h => { h with latches := [(3, 1)] })).hub.latches 3) (queue.cons 3) = true ∧
    queue.published 3 = true ∧ ({ queue with mem := Memory.put queue.mem 0x2004 1 }).published 3 = false ∧
    (packetOf 0x8001 .waiting).firstBad = some 1 ∧ (packetOf 0x0604 .waiting).firstBad = none ∧
    queue.descField 3 0x12 1 < (packetOf 0x0604 .waiting).prio.toNat := by decide +kernel

/-- QueuesAreConsumed: a doorbell while the device sleeps, and of a queue whose descriptor is bad; a packet that another precedes. -/
def twoPackets : State := queue.updHub (fun h => { h with
  packets := [packetOf 0x02 .waiting, { packetOf 0x3F02 .waiting with key := 7, queue := 4, order := 2 }] })

theorem witness_Queues_order : twoPackets.packet 6 = some (packetOf 0x02 .waiting) ∧ twoPackets.mayBegin (packetOf 0x02 .waiting) = true ∧
    twoPackets.serving = true ∧ (twoPackets.firstReady.map (fun e => e.key)) = some 7 ∧
    (packeted 0x02 .waiting).firstReady.map (fun e => e.key) = some 6 ∧ queue.descOk 4 = false ∧
    ((queue.updHub (fun h => { h with devstat := 3, rung := [3] })).serving = false ∧ (queue.updHub (fun h => { h with devstat := 3, rung := [3] })).descOk 3 = true) ∧
    (∀ e ∈ queue.agenda, e.2 ≠ .packetConsume 3 ∧ e.2 ≠ .packetPoll 3 ∧ e.2 ≠ .wakeComplete) ∧
    serialAhead (tget 0 (queue.updHub (fun h => { h with latches := [(3, 2)] })).hub.latches 3) (queue.cons 3 + 1) = true := by decide +kernel

/-- The packets of every type that may begin: invoke, load, unload, copy, signal, wait, form, grant, reopen, release. -/
theorem witness_MayBegin : mayBegin (0x01 + 2 ^ 96) 1 = true ∧ mayBegin 0x02 2 = true ∧ mayBegin 0x03 3 = true ∧ mayBegin (0x04 + 2 ^ 192) 4 = true ∧
    mayBegin (0x05 + 2 ^ 17 * 2 ^ 64) 5 = true ∧ mayBegin (0x06 + 2 ^ 17 * 2 ^ 64) 6 = true ∧ mayBegin (0x07 + 2 ^ 64 + 2 ^ 96) 7 = true ∧
    mayBegin (0x07 + 2 ^ 64 + 2 ^ 80) 7 = true ∧ mayBegin (0x07 + 2 ^ 64 + 2 * 2 ^ 80) 7 = true ∧ mayBegin (0x07 + 2 ^ 64 + 3 * 2 ^ 80) 7 = true := by decide +kernel

/-- SlotAndGroupPackets: slots in each state; a task of a slot and none; packets started; a group known and unknown. -/
def slotted (st : SlotState) : State := (packeted 0x03 .waiting).updHub (fun h => { h with gallery := [(0, { (State.reset.slot 0) with state := st })] })

theorem witness_Slots : ((slotted .loaded).slot 0).state = .loaded ∧ ((slotted .loaded).slot 0).version.toNat = (packetOf 0x03 .waiting).field 0x0A 2 ∧
    ((slotted .loaded).slot 0).bufMask = (packetOf (0x01 + 2 ^ 96) .waiting).field 0x14 1 ∧ badBuffer ((slotted .loaded).slot 0 |>.winOf (packetOf (0x01 + 2 ^ 96) .waiting)) = none ∧
    ((slotted .loading).slot 0).state ≠ .empty ∧ (State.reset.slot 0).state = .empty ∧ (slotted .loaded).slotBusy 0 = false ∧
    (packeted 0x02 .started).packet 6 = some (packetOf 0x02 .started) ∧ (packetOf 0x02 .started).last = 0 ∧
    ((slotted .loaded).updHub (fun h => h)).group 5 = none ∧ ((grouped false).group 5).isSome = true ∧ (grouped false).groupJobs 5 = false ∧
    (packeted 0x07 .started).packet 6 = some (packetOf 0x07 .started) := by decide +kernel

/-- DataPackets: a copy of one byte between slices; a word of a slice; a word absent; a wait that is met. -/
theorem witness_DataPackets : (0x3000 : Nat) + 16 ≤ 2 ^ 48 ∧ (packetOf (0x04 + 2 ^ 192) .waiting).field 0x18 8 = 1 ∧
    regionOf (sliceBase 1) = .slice 1 ∧ queue.spdiagOf (sliceBase 1) = 0 ∧ (queue.writeReady (.signalPacket 6) (addrs (sliceBase 2) 8)).2 = true ∧
    (queue.core (copyCore (sliceBase 1) (sliceBase 2))).sliceBusy = false ∧ queue.resident 0x20000 = false ∧ queue.wordStop (sliceBase 1) = none ∧
    queue.wordStop 0x20000 = some 2 ∧ queue.wordNow (sliceBase 1) 8 = 0 ∧ Memory.wf queue.mem = true := by decide +kernel

/-- DataPackets: the job of a copy packet at its core, not begun and ended. -/
def copyPacket (last : Word) : Packet := { packetOf (0x04 + 2 ^ 192) .started with last := last }

def copyingPacket (last : Word) : State :=
  (queue.updHub (fun h => { h with packets := [copyPacket last] })).updCore (copyCore 0 0) (fun k => { k with packetJobs := [(copyPacket last).copyJob] })

theorem witness_CopyPackets : ((copyingPacket 0).core (copyCore 0 0)).packetJob 6 = some (copyPacket 0).copyJob ∧
    ((copyingPacket 0).engineCtxs (copyCore 0 0)).all (fun x => (x.findJob 6).isNone) = true ∧ ((copyingPacket 0).core (copyCore 0 0)).sliceBusy = false ∧
    ((copyingPacket 0).freeEngine (copyCore 0 0)).isSome = true ∧ (copyingPacket 4).packet 6 = some (copyPacket 4) ∧
    (copyPacket 4).last = BitVec.ofNat 64 (3 + 1) ∧ (copyingPacket 4).serving = true ∧ oneRegion 0 1 = true ∧
    oneRegion (hostBase - 1) 2 = false ∧ (0x100 < 0x100 + 1) ∧ 0x100 + 1 ≤ 0x200 := by decide +kernel

/-- FirmwareAndResets: a restart under way; queues that may open; an idle device; bring-up steps. -/
theorem witness_Firmware : base.restarting = false ∧ (onHub (fun h => { h with devstat := 4 })).restarting = true ∧
    (onHub (fun h => { h with bootstat := 0x1A, hlstat := 0x24B, ulstat := Vector.replicate 18 2, portSettled := BitVec.allOnes 18 })).mayOpen = true ∧
    (State.reset.updHub (fun h => { h with devstat := 1 })).serving = true ∧ (State.reset.updHub (fun h => { h with devstat := 1 })).workless = true ∧
    (onHub (fun h => { h with booting := true, bootstat := 9 })).hub.booting = true ∧ getBits (9 : Word) 0 4 = 9 ∧ getBits (10 : Word) 0 4 = 10 ∧
    base.hub.config.valid = true ∧ base.hub.bootEnd ≠ 8 ∧ (onHub (fun h => { h with bootstat := 0x20 })).hub.bootstat.getLsbD 5 = true ∧
    (onHub (fun h => { h with imageTried := true })).hub.imageTried = true ∧
    (base.home 0).used + base.hub.config.barSize / 8 + 0x1400000 ≤ hbmOpen := by decide

/-- LinksAndHost: links up and down, and recovery mode; a host range within reach and one beyond; accesses that time out. -/
theorem witness_Links : 1 ≤ (3 : BitVec 3).toNat ∧ (3 : BitVec 3).toNat ≤ 3 ∧ getBits (onHub (fun h => { h with hlstat := 0x24B })).hub.hlstat 0 3 ≠ 0 ∧
    getBits (onHub (fun h => { h with ulstat := Vector.replicate 18 2 })).hub.ulstat[17] 0 2 = 2 ∧ getBits base.hub.ulstat[17] 0 2 ≤ 1 ∧
    (onHub (fun h => { h with bootstat := 0x20 })).hub.minimal = true ∧ base.hub.minimal = false ∧
    (onHub (fun h => { h with hlstat := 0x24B, hostMapped := true })).hostReach 0x3FFFFFFF 1 = true ∧
    (onHub (fun h => { h with hlstat := 0x24B, hostMapped := true })).hostReach 0x3FFFFFFF 2 = false ∧
    (0x100 + 0) / 256 = (0x100 + 256 - 1) / 256 ∧ 0x100 % 8 = 0 ∧ ((base.mapPointers 0).mapShare 0 false).resident 0x100 = true ∧
    ((waiting (.load 5 hostBase 8 0 false)).core 1).opBank 9 = some (false, false, op (.load 5 hostBase 8 0 false)) ∧
    ((waiting (.store [(hostBase, 1)] false true)).core 1).opBank 9 = some (false, false, op (.store [(hostBase, 1)] false true)) := by decide +kernel

/-- LinksAndHost: memory of the host and of a peer; a poisoned line of the range; operations on both, 50 ms old and younger, the
write sent on port 17. -/
def aged (a n : Nat) : State := { (waiting (.load 5 a 8 0 false)) with now := n }

theorem witness_HostMemory : base.hostReach hostBase 8 = false ∧ base.foreign hostBase 8 = true ∧ base.foreign 0xA000000000000 8 = true ∧
    (unitOf (0x100 + 3) ∈ ({ base with poison := [0x100] }).poison) ∧
    (onHost (OpKind.load 5 hostBase 8 0 false).addrs = true ∧ onPeer (OpKind.load 5 hostBase 8 0 false).addrs = false) ∧
    onPeer (OpKind.load 5 0xA000000000000 8 0 false).addrs = true ∧
    (op (.load 5 hostBase 8 0 false)).sentAt + 80000000 ≤ (aged hostBase 80000000).now ∧ (aged hostBase 0).now < 0 + 80000000 ∧
    ((sending [(0xA0000000000, some 17)]).core 1).opBank 9 = some (false, false, { op (.store [(0xA000000000000, 1)] false false) with ports := [(0xA0000000000, some 17)] }) ∧
    onPeer (OpKind.store [(0xA000000000000, 1)] false false).addrs = true ∧
    base.hub.portSettled.getLsbD 17 = false ∧ (base.writeReady (.peerAccessRequest 0 (.write 0x100 [1])) (addrs 0x100 1)).2 = true ∧
    ((base.updHome (homeOf 0x100) (fun m => { m with invalidating := [(0x100, 2)] })).writeReady (.peerAccessRequest 0 (.write 0x100 [1])) (addrs 0x100 1)).2 = false := by
  decide +kernel

/-- ErrorsPowerAndHeat: the ninth resend; a page line; a register; messages good and bad; a lease ended; readings on each side of the thresholds. -/
theorem witness_ErrorsPowerAndHeat : (onHub (fun h => { h with d2dResends := Vector.replicate 14 8 })).hub.d2dResends[13] = 8 ∧
    pagedHere (regionOf (0x100000 / 64 * 64)) = true ∧ (63 : BitVec 6) ≠ 0 ∧
    (getBits 0x000A_500_00000001 44 16 ≠ 0 ∧ getBits 0x000A_500_00000001 60 4 = 0 ∧ base.hub.pwrlast = 0) ∧ getBits 0x0000_500_00000001 44 16 = 0 ∧
    (onHub (fun h => { h with lease := some 0 })).hub.lease = some 0 ∧ 0 ≤ base.now ∧ base.restarting = false ∧ (base.core 1).evaluated = false ∧
    (base.core 1).cyc.toNat % 1024 = 0 ∧ (base.core 1).thermalStep ≤ 15 ∧ base.hub.config.ttrip ≤ 115 ∧ 114 < base.hub.config.ttrip ∧
    ((onCore (fun k => { k with tripSince := some 0 })).core 1).tripSince = some 0 ∧ 0 + 16000000 ≤ ({ base with now := 16000000 }).now := by decide

/-- IssueLeavesMemory. -/
theorem witness_IssueLeavesMemory : (Instr.st 1 0 0 1 0).slot.isSome = true ∧ shows (exec (.st 1 0 0 1 0) plain) (fun _ => true) = true := by decide

/-! ### Witnesses of clauses: a boundary of each that stands beside others -/

/-- ResultsAreRounded: a nonzero value, the formats, finite operands; a sum that is zero. -/
theorem witness_ResultsAreRounded : (0 < 1 ∧ 65535 < 65536) ∧ fp64 ∈ targets ∧ e2m1 ∈ targets ∧
    fp32.operand false 0x3F800000 = (.fin false (2 ^ 23) (-23), 0) ∧ fp32.operand true 0xBF800000 = (.fin true (2 ^ 23) (-23), 0) ∧
    fp64.operand true 0 = (.fin false 0 (-1074), 0) := by decide

/-- ResultsAreRounded: an inexact case and an exact one of the reciprocal; operands that are numbers. -/
theorem witness_VectorSpecial : (match spRcp (.fin false 3 0), spRcp (.fin false 2 0) with | .near n y, .exact _ _ => !n && decide (0 < y.1) | _, _ => false) = true ∧
    (match spRsq (.fin false 2 0), spRsq (.fin false 1 2) with | .near n y, .exact _ _ => !n && decide (0 < y.1) | _, _ => false) = true ∧
    (fp32.operand false 0x40400000).1.isNan = false ∧ (fp32.operand false 0x40400000).2 = 0 := by decide +kernel

/-- VectorMovesAndConversions: an infinity, a NaN and a finite operand; blocks of each kind. -/
theorem witness_ConvertedValues : (fp32.operand false 0x7F800000).1 = .inf false ∧ (fp32.operand false 0x7FC00000).1.isNan = true ∧
    (e4m3.operand false 0x08).1.isFin = true ∧ mxScale [.inf true] = .bad ∧ mxScale [.fin true 0 5] = .zero ∧ mxScale [.fin false 4 0] = .scale 127 := by
  decide

/-- VectorComparesAndReductions: FCMP on numbers and on a NaN. -/
theorem witness_FpCompare : (fpCompare fp32 false 2 0 0x3F800000).1 = true ∧ (fpCompare fp32 false 1 0x7FC00000 0).1 = true ∧
    0x7FC00000 < 2 ^ fp32.width ∧ 5 ≤ 5 := by decide

/-- VectorBlocksAndResidues: a damaged element of the block. -/
theorem witness_VectorBlocks_bad : (onCtx (fun x => { x with accBad := [98304] })).curCtx.badInBlock 4 0 ≠ [] ∧
    (onCtx (fun x => { x with accBad := [98304] })).accBusy 4 = false := by decide

/-- CubeAndPlaneSteps: cells and a last cell; a finite accumulator. -/
theorem witness_ChainOrder : (∀ p ∈ ([[some (fp32.decode 0x3F800000)]] : List (List (Option FVal))), p.length = 1) ∧
    0 < ([none] : List (Option FVal)).length ∧ ([none] : List (Option FVal)).length ≤ 1 ∧ (fp32.decode 0x80000000).isFin = true ∧
    (tile .mma .feed).done < (tile .mma .feed).steps ∧ (tile .mmi .feed).inj = none := by decide

/-- TileOperations: a plane operation whose running bound is at its limit; a stream register of the wrong group; a freeze of the
cube; an L slot that needs a place of the first step. -/
def mmiReq : TileReq := { kind := .mmi, acc := 5, a := 1, b := 2, sg := 2, fmt := 9, g := false, adv := false, z := true, hold := false, instr := .mmi 1 2 2 9 false false true }

theorem witness_TileRefused : overBound (((tiling 1 1 1 1).updCtx 1 (fun x => { x with str := x.str.set 1 (BitVec.allOnes 512) })).tileOf mmiReq).deg (2 ^ 62) = true ∧
    (((tiling 1 1 1 1).updCtx 1 (fun x => { x with str := (x.str.set 1 (aStream ||| 0x3000000)) })).tileOf mmaReq).conflict 1 ≠ none ∧
    (tiling 1 1 1 1).cubeFreeze 0 true = none ∧ (tiling 1 1 1 1).cur.inter = false ∧
    ((onCtx (fun x => { x with prim := { x.prim with inflight := [{ due := 5, dest := .accBlock 0 0 0 }] } })).cubeFreeze 0 true).isSome = true ∧
    ({ tiling 1 1 1 1 with issue := { (tiling 1 1 1 1).issue with late := [(0, 0)] } }.lateClash ((tiling 1 1 1 1).tileOf mmaReq)).isSome = true := by
  decide +kernel

/-- DrainsIssue: a shape that does not pass; exponents at the end of the slice; a destination outside the group named. -/
theorem witness_DrainsIssue_fails : (∀ rows cols, ¬((draining 2 2).cur.rs 3 = BitVec.ofNat 64 (rows + 256 * cols) ∧ 1 ≤ rows ∧ rows ≤ 128 ∧ 1 ≤ cols ∧ cols ≤ 192)) ∧
    (0x5FFFFFE : Nat) % 2 = 0 ∧ 0x5FFFFFE + 2 * 1 ≤ 0x6000000 ∧ ¬(0x6000000 + 2 * 1 ≤ 0x6000000) := by
  refine ⟨fun rows cols h => ?_, by decide, by decide, by decide⟩
  have h2 := congrArg BitVec.toNat h.1
  rw [BitVec.toNat_ofNat, show ((draining 2 2).cur.rs 3).toNat = 0 by decide +kernel] at h2
  omega

/-- DrainsComplete: a row whose sub-banks are free, and one that waits for another core's. -/
theorem witness_DrainsComplete_banks : let o := tile (.mdrn 1 0 false false) .drain
    ((feeding (.mdrn 1 0 false false) .drain).takeBanks false (slicePlaces (o.rowAddrs 1))).2 = [] ∧
    ((((feeding (.mdrn 1 0 false false) .drain).takeBanks false (slicePlaces (o.rowAddrs 1))).1).takeBanks false (slicePlaces (o.rowAddrs 1))).2 ≠ [] := by
  decide +kernel

/-- LoadsStoresAndAtomicsIssue, AtomicsPerform: an atomic on the host window before its write; on a peer; a compare. -/
theorem witness_AtomicsPerform_halves : let k := OpKind.atomic 5 hostBase 0 (.cas 1) true 1 3
    let s := (waiting k).updHub (fun h => { h with hlstat := 0x24B })
    (s.core 1).opBank 9 = some (false, false, op k) ∧ regionOf hostBase = .host ∧ (3 : BitVec 3) ≠ 5 ∧ (op k).half = none ∧
    s.linkUp (regionOf hostBase) = true ∧ (∀ a ∈ addrs hostBase 8, s.place a = a) ∧ s.hub.fwWrites = [] ∧ s.spdiagOf hostBase = 0 ∧
    (s.writeReady (.atomicPerformed 1 9) (addrs hostBase 8)).2 = true := by decide +kernel

/-- DomainsAndPhases: a boundary of level 4 at which the device joins; a checkpoint of level 4. -/
def joining : State := (member.updCtx 1 (fun x => { x with domain := BitVec.ofNat 64 (2 ^ 40 + 5 * 2 ^ 16) })).updCur (fun x => { x with hold := .phase 4 false true none })

theorem witness_DomainsAndPhases_groups : joining.cur.hold = .phase 4 false true none ∧ joining.mayJoin 1 false = true ∧
    effectiveLevel (joining.ctx 1).domain 4 = 4 ∧ (joining.group ((joining.ctx 1).groupOf 4)).isSome = true ∧
    (4 : BitVec 3).toNat ≤ 5 ∧ checkpointing.hub.hlstat.getLsbD 9 = false := by decide +kernel

/-- CopyJobsIssue: footprints that meet, of ranges and of a code table. -/
theorem witness_Footprint : Touch { lo := 0, hi := 64, wr := true, table := none } { lo := 63, hi := 65, wr := false, table := none } ∧
    Touch { lo := 0, hi := 0, wr := true, table := some 3 } { lo := 0, hi := 0, wr := false, table := some 3 } ∧
    Footprint { job byteCopy with regions := [{ lo := sliceBase 1, hi := sliceBase 1 + 1, wr := false, table := none },
                                              { lo := sliceBase 2, hi := sliceBase 2 + 1, wr := true, table := none }] } :=
  ⟨⟨0, 63, by decide, by decide, by decide, by decide, by decide⟩, rfl, rfl⟩

/-- CollectivesIssue: a range that does not translate; a source that meets its destination; an answer that is awaited. -/
theorem witness_CollectivesIssue_fails : (grouped false).extent 0x20000 1 true = none ∧
    (match (grouped false).extent 0 1 false, (grouped false).extent 0 1 true with | some a, some b => a.meets b | _, _ => false) = true ∧
    (on (fun x => { x with asking := some { d := 5, tag := 3, group := 5, index := 0 } })).cur.asking = some { d := 5, tag := 3, group := 5, index := 0 } := by
  decide

/-- StrikesAndReductions: a request that is repeated; an assignment not yet acknowledged. -/
theorem witness_Strikes_acks : ((grouped false).updHub (fun h => { h with asked := [(5, 0, 0, desc)] })).hub.asked.filter (fun a => a.1 = 5 && a.2.1 = 0) = [(5, 0, 0, desc)] ∧
    (striking .active [(0, desc)]).now < { pairOf .active [] with ackAt := 1 }.ackAt ∧ (pairOf .active []).ackAt ≤ (striking .active []).now ∧
    { pairGroup false with gone := true }.gone = true ∧ onHost (rankJob false).ends = false ∧ onPeer (rankJob false).ends = false := by decide +kernel

/-- GroupsRollBack: the indices recorded; nothing to replay; a restart. -/
theorem witness_GroupsRollBack_ready : ((recorded none).replayReady (.groupRollback 5) []).2 = true ∧ (recorded none).restarting = false ∧
    ([(5, 3, [(1, 2)])] : List (Nat × Nat × List (Nat × Nat))).filter (fun q => q.1 = 5) = [(5, 3, [(1, 2)])] ∧
    ((recorded none).updHub (fun h => { h with devstat := 4 })).restarting = true := by decide

/-- TasksArePlaced: a core too hot; a swap whose task is not yet there. -/
theorem witness_TasksArePlaced_hot : ((onCore (fun k => { k with tooHot := true })).core 1).tooHot = true ∧ ((staging .staged .staged).core 1).tooHot = false ∧
    (staging .staged .staged).swappedIn (leaving .staged) 1 = false := by decide

/-- SpillsAndSlices: an area that the host does not hold; one that it may hold; a transfer that a fault has stopped. -/
theorem witness_SpillsAndSlices_ready : ((spilling false).archiveReady (.spillComplete 1) 0x400000 0x200000).2 = true ∧
    ((moving (some [part .zero])).updCore 1 (fun k => { k with xferHeld := true, bank := .empty })).curCore.xferHeld = true ∧
    (moving (some [part .zero])).restarting = false ∧ (moving none).oddWords (sliceBase 1) (sliceBase 1 + 4096) = [] := by decide +kernel

/-- TasksEndAndRollBack: a checkpoint of its own with one line logged; nothing in the way of a die's retirement. -/
def logged7 : State := { running7 with tasks := [{ aTask with checkpoints := [(1, [(1, { Ctx.reset with chk := 3 })])] }] }

def loggedLine : ChkLine := { task := 7, interval := 1, line := 0x40, old := List.replicate 64 1 }

theorem witness_TasksEnd_replay : let s := (logged7.updCore 1 (fun k => { k with live := true })).updHome (homeOf 0x40) (fun m => { m with chkLines := [loggedLine] })
    (s.replayReady (.rollback 7) [(7, 1)]).2 = true ∧ s.toReplay 7 1 = [loggedLine] ∧ loggedLine.old.length = 64 ∧ loggedLine.line % 64 = 0 ∧
    regionOf loggedLine.line = .pkg ∧ (s.core 1).live = true ∧ (s.ctx 1).task = 7 ∧ ({ aTask with checkpoints := [(1, [])] } : Task).saved = [] ∧
    (∀ q ∈ running7.tasks, q.state = .running → q.copying = 0 ∧ ∀ m ∈ running7.liveOn q.key, (running7.core m).bank = .empty) := by decide +kernel

/-- FirmwareAndResets: an image signed and new enough, and none; a device whose tails do not wait; an FLR in recovery. -/
theorem witness_Firmware_images : base.hub.imageOk = true ∧
    (onHub (fun h => { h with flash := [] })).hub.image = none ∧ base.hub.image = some { body := [], signed := true, security := 0 } ∧ base.hub.minimal = false ∧ (onHub (fun h => { h with bootstat := 0x20 })).hub.minimal = true ∧ base.tableHeld = false ∧
    (onHub (fun h => { h with rung := [3] })).tailsWait = true ∧ (onHub (fun h => { h with bootstat := 0x20 })).hub.bootstat.getLsbD 5 = true := by decide

theorem witness_Firmware_tails : (List.range 1024).all (fun q => !(base.descOk q)) = true := by decide +kernel

/-- DataPackets: a word over a link; one of a slice whose grant has come; an access that its link does not complete. -/
theorem witness_DataPackets_links : (queue.updHub (fun h => { h with hlstat := 0x24B })).wordFar hostBase = true ∧ queue.wordFar (sliceBase 1) = false ∧
    ((queue.updHub (fun h => { h with hubWaits := [(.signalPacket 6, [])] })).hubTakes (.signalPacket 6) (addrs (sliceBase 1) 8)).2 = true ∧
    (queue.hubTakes (.signalPacket 6) (addrs (sliceBase 1) 8)).2 = false ∧ { packetOf 0x05 .waiting with access := some true }.access = some true := by
  decide +kernel

/-- LinksAndHost: an access of one unit and one of three; a peer's access to package memory. -/
theorem witness_Links_units : hostUnits 0x100 8 = [(0x100, 8)] ∧ hostUnits 0x104 16 = [(0x104, 4), (0x108, 8), (0x110, 4)] ∧ base.hub.hostAsk = none ∧
    (base.peerReady 0 (.read 0x100 [1].length) (addrs 0x100 1)).2 = true ∧ (base.peerReady 0 (.write 0x100 [1]) (addrs 0x100 1)).2 = true ∧
    base.fatals = [] := by decide

end Sys2Proof.Tests
end

section
/-! What reset leaves in a core (R3, R158, R161, R238) and what a write to a control register changes: the laws of the field
updates (R4), one equation for each register of State.ctlWrite (R163), and the statements of scope that rest on them. -/

namespace Sys2Proof.Machine

open Sys2Proof.Claims

/-! ### The state after reset -/

theorem State.core_reset (c : CoreId) : State.reset.core c = Core.reset := Vector.getElem_replicate ..

theorem State.ctx_reset (c : CoreId) : State.reset.ctx c = Ctx.reset := congrArg Core.ctx (State.core_reset c)

theorem State.stream_reset (c : CoreId) (sec : Bool) :
    State.reset.stream c sec = { Stream.reset with stat := if sec then 4 else 0 } := by
  rw [State.stream, State.ctx_reset]
  cases sec <;> rfl

/-- Settles O5: every core holds Core.reset, and with it the reset context and streams. -/
theorem resetIsAsTheSpecSays : Obligations.ResetIsAsTheSpecSays := by
  refine ⟨rfl, rfl, fun c => ?_, fun c sec => ?_, rfl⟩
  · rw [State.core_reset, State.ctx_reset]
    exact ⟨rfl, rfl, rfl, rfl, rfl, rfl, rfl, rfl, rfl⟩
  · rw [State.stream_reset]
    exact ⟨rfl, rfl, rfl, rfl, rfl, rfl, rfl, rfl, rfl⟩

/-! ### Fields of a word -/

/-- The word whose bits are set in a field of len bits from bit lo: the masks of Core.ctlWrite are made of such fields. -/
def fieldMask (lo len : Nat) : Word := (BitVec.allOnes len).setWidth 64 <<< lo

theorem getLsbD_fieldMask (lo len i : Nat) :
    (fieldMask lo len).getLsbD i = decide (i < 64 ∧ lo ≤ i ∧ i < lo + len) := by
  simp only [fieldMask, BitVec.getLsbD_shiftLeft, BitVec.getLsbD_setWidth, BitVec.getLsbD_allOnes]
  grind

/-- A read-write field takes the bits of the value written. -/
theorem getLsbD_rw (old v mask : Word) (i : Nat) :
    (rw old v mask).getLsbD i = if mask.getLsbD i then v.getLsbD i else old.getLsbD i := by
  have bound : old.getLsbD i = true → i < 64 := BitVec.lt_of_getLsbD
  simp only [rw, BitVec.getLsbD_or, BitVec.getLsbD_and, BitVec.getLsbD_not]
  grind

/-- A sticky field loses the bits that are 1 in the value written. -/
theorem getLsbD_rs (old v mask : Word) (i : Nat) :
    (rs old v mask).getLsbD i = (old.getLsbD i && !(mask.getLsbD i && v.getLsbD i)) := by
  have bound : old.getLsbD i = true → i < 64 := BitVec.lt_of_getLsbD
  simp only [rs, BitVec.getLsbD_and, BitVec.getLsbD_not]
  grind

/-- A write to a register whose one field starts at bit lo. -/
theorem getLsbD_rw_fieldMask (old v : Word) (lo len i : Nat) :
    (rw old v (fieldMask lo len)).getLsbD i = if lo ≤ i ∧ i < lo + len then v.getLsbD i else old.getLsbD i := by
  have bound : i < 64 ∨ (old.getLsbD i = false ∧ v.getLsbD i = false) := by
    by_cases h : i < 64
    · exact .inl h
    · exact .inr ⟨BitVec.getLsbD_of_ge _ _ (by omega), BitVec.getLsbD_of_ge _ _ (by omega)⟩
  simp only [getLsbD_rw, getLsbD_fieldMask]
  grind

/-- A write to a register whose one field starts at its lowest bit. -/
theorem getLsbD_rw_lowField (old v : Word) (len i : Nat) :
    (rw old v (fieldMask 0 len)).getLsbD i = if i < len then v.getLsbD i else old.getLsbD i := by
  simp only [getLsbD_rw_fieldMask, Nat.zero_le, true_and, Nat.zero_add]

/-- A write to a register whose one field reaches its top bit. -/
theorem getLsbD_rw_upperField (old v : Word) {lo len : Nat} (h : lo + len = 64) (i : Nat) :
    (rw old v (fieldMask lo len)).getLsbD i = if i < lo then old.getLsbD i else v.getLsbD i := by
  have bound : v.getLsbD i = true → i < 64 := BitVec.lt_of_getLsbD
  have bound' : old.getLsbD i = true → i < 64 := BitVec.lt_of_getLsbD
  rw [getLsbD_rw_fieldMask]
  grind

/-- Fields may be written one after another. -/
theorem rw_or (old v m m' : Word) : rw old v (m ||| m') = rw (rw old v m) v m' := by
  refine BitVec.eq_of_getLsbD_eq fun i _ => ?_
  simp only [getLsbD_rw, BitVec.getLsbD_or]
  grind

theorem getBits_congr {x y : Word} {lo len : Nat} (h : ∀ i, lo ≤ i → i < lo + len → x.getLsbD i = y.getLsbD i) :
    getBits x lo len = getBits y lo len := by
  refine congrArg BitVec.toNat (BitVec.eq_of_getLsbD_eq fun i hi => ?_)
  simp only [BitVec.getLsbD_extractLsb', h (lo + i) (by omega) (by omega)]

theorem getBits_rw_fieldMask (old v : Word) (lo len : Nat) : getBits (rw old v (fieldMask lo len)) lo len = getBits v lo len :=
  getBits_congr fun i h h' => by rw [getLsbD_rw_fieldMask, if_pos ⟨h, h'⟩]

/-! ### The registers whose fields differ in kind -/

/-- ctl.stat (R162): PRIV can only fall, RND and DUP are replaced. -/
theorem getLsbD_writeStat (old v : Word) (i : Nat) :
    (writeStat old v).getLsbD i =
      if i = 0 then old.getLsbD 0 && v.getLsbD 0 else if 4 ≤ i ∧ i < 7 then v.getLsbD i else old.getLsbD i := by
  have mask : (0x71 : Word) = fieldMask 0 1 ||| fieldMask 4 3 := by decide
  have one : (1 : Word) = fieldMask 0 1 := by decide
  have bound : v.getLsbD i = true → i < 64 := BitVec.lt_of_getLsbD
  simp only [writeStat, mask, one, getLsbD_rw, BitVec.getLsbD_or, getLsbD_fieldMask, apply_ite (BitVec.getLsbD · i),
    BitVec.getLsbD_and, BitVec.getLsbD_not]
  grind

/-- ctl.rnsstat (R287): the counts are replaced, the sticky flags clear on 1, and RVALID clears the record. -/
theorem getLsbD_writeRnsstat (old v : Word) (i : Nat) :
    (writeRnsstat old v).getLsbD i =
      if i < 28 then v.getLsbD i else if i < 35 then old.getLsbD i && !v.getLsbD i else old.getLsbD i && !v.getLsbD 35 := by
  have counts : (0xFFFFFFF : Word) = fieldMask 0 28 := by decide
  have flags : (0x7F0000000 : Word) = fieldMask 28 7 := by decide
  have kept : (0x7FFFFFFFF : Word) = fieldMask 0 35 := by decide
  have bound : old.getLsbD i = true → i < 64 := BitVec.lt_of_getLsbD
  simp only [writeRnsstat, counts, flags, kept, apply_ite (BitVec.getLsbD · i), BitVec.getLsbD_and, getLsbD_rs,
    getLsbD_rw_fieldMask, getLsbD_fieldMask]
  grind

/-- ctl.chk (R372): EN and AREA are replaced, RB and OVF clear on 1. -/
theorem getLsbD_writeChk (old v : Word) (i : Nat) :
    (writeChk old v).getLsbD i =
      if i = 0 ∨ (25 ≤ i ∧ i < 52) then v.getLsbD i
      else if i = 2 ∨ i = 3 then old.getLsbD i && !v.getLsbD i else old.getLsbD i := by
  have fields : (0xFFFFFFE000001 : Word) = fieldMask 0 1 ||| fieldMask 25 27 := by decide
  have flags : (0xC : Word) = fieldMask 2 2 := by decide
  simp only [writeChk, fields, flags, getLsbD_rs, getLsbD_rw, BitVec.getLsbD_or, getLsbD_fieldMask]
  grind

/-- ctl.thr (R398): the reasons clear on 1, FLOOR and RFLOOR are replaced. -/
theorem getLsbD_writeThr (old v : Word) (i : Nat) :
    (writeThr old v).getLsbD i =
      if 12 ≤ i ∧ i < 20 then v.getLsbD i else if 4 ≤ i ∧ i < 9 then old.getLsbD i && !v.getLsbD i else old.getLsbD i := by
  have floors : (0xFF000 : Word) = fieldMask 12 8 := by decide
  have reasons : (0x1F0 : Word) = fieldMask 4 5 := by decide
  simp only [writeThr, floors, reasons, getLsbD_rs, getLsbD_rw_fieldMask, getLsbD_fieldMask]
  grind

theorem reseedOne_ne_zero (seed : Word) (i : Nat) : reseedOne seed i ≠ 0 := by
  unfold reseedOne
  extract_lets z0 z1 z2 z3
  split
  · decide
  · assumption

/-! ### A write to a control register of a core -/

theorem State.pinRange_frame (s : State) (ia len : Nat) :
    (s.pinRange ia len).mem = s.mem ∧ (s.pinRange ia len).cores = s.cores :=
  foldl_keeps (P := fun t => t.mem = s.mem ∧ t.cores = s.cores) (fun t a ht => by
    unfold State.mapShare State.mapPointers
    split <;> exact ht) _ s ⟨rfl, rfl⟩

/-- Writing a control register touches nothing but its core, and page tables where ctl.chk.EN rises (R372). -/
theorem State.ctlWrite_frame (s : State) (c : CoreId) (sec : Bool) (n : Nat) (v : Word) :
    (s.ctlWrite c sec n v).mem = s.mem ∧ (s.ctlWrite c sec n v).cores = (s.updCore c (fun k => k.ctlWrite sec n v)).cores := by
  unfold State.ctlWrite
  extract_lets s1
  split
  · exact State.pinRange_frame s1 _ _
  · exact ⟨rfl, rfl⟩

theorem State.ctlWrite_sameMemory (s : State) (c : CoreId) (sec : Bool) (n : Nat) (v : Word) :
    SameMemory s (s.ctlWrite c sec n v) := fun a => by rw [(s.ctlWrite_frame c sec n v).1]

theorem State.core_ctlWrite (s : State) (c : CoreId) (sec : Bool) (n : Nat) (v : Word) :
    (s.ctlWrite c sec n v).core c = (s.core c).ctlWrite sec n v := by
  have cores := (s.ctlWrite_frame c sec n v).2
  rw [← State.core_updCore s c (fun k => k.ctlWrite sec n v)]
  simp only [State.core, cores]

/-- A register of the context: where Core.ctlWrite is an update of the context, that update is made. -/
theorem State.ctx_ctlWrite {n : Nat} {sec : Bool} {v : Word} (f : Ctx → Ctx)
    (h : ∀ k : Core, k.ctlWrite sec n v = k.updCtx f) (s : State) (c : CoreId) :
    (s.ctlWrite c sec n v).ctx c = f (s.ctx c) := by
  rw [State.ctx, State.core_ctlWrite, h]
  rfl

/-- A register of a stream: where Core.ctlWrite is an update of the stream, that update is made. -/
theorem State.stream_ctlWrite {n : Nat} {sec : Bool} {v : Word} (f : Stream → Stream)
    (h : ∀ k : Core, k.ctlWrite sec n v = k.updCtx (fun x => x.updStream sec f)) (s : State) (c : CoreId) :
    (s.ctlWrite c sec n v).stream c sec = f (s.stream c sec) := by
  rw [State.stream, State.ctx_ctlWrite _ h, Ctx.stream_updStream]
  rfl

section RegisterEquations

variable (s : State) (c : CoreId) (sec : Bool) (v : Word)

theorem State.stream_ctlWrite_stat :
    (s.ctlWrite c sec 0x000 v).stream c sec = { s.stream c sec with stat := writeStat (s.stream c sec).stat v } :=
  State.stream_ctlWrite (fun t => { t with stat := writeStat t.stat v }) (fun _ => rfl) s c

theorem State.stream_ctlWrite_tpc :
    (s.ctlWrite c sec 0x001 v).stream c sec = { s.stream c sec with tpc := rw (s.stream c sec).tpc v (fieldMask 5 59) } :=
  State.stream_ctlWrite (fun t => { t with tpc := rw t.tpc v (fieldMask 5 59) }) (fun _ => rfl) s c

theorem State.stream_ctlWrite_tstat :
    (s.ctlWrite c sec 0x002 v).stream c sec = { s.stream c sec with
      tstat := if (s.stream c sec).priv then v else rw (s.stream c sec).tstat v (fieldMask 1 63) } :=
  State.stream_ctlWrite (fun t => { t with tstat := if t.priv then v else rw t.tstat v (fieldMask 1 63) }) (fun _ => rfl) s c

theorem State.stream_ctlWrite_tcause :
    (s.ctlWrite c sec 0x003 v).stream c sec = { s.stream c sec with tcause := rw (s.stream c sec).tcause v (fieldMask 0 24) } :=
  State.stream_ctlWrite (fun t => { t with tcause := rw t.tcause v (fieldMask 0 24) }) (fun _ => rfl) s c

theorem State.stream_ctlWrite_tval : (s.ctlWrite c sec 0x004 v).stream c sec = { s.stream c sec with tval := v } :=
  State.stream_ctlWrite (fun t => { t with tval := v }) (fun _ => rfl) s c

theorem State.stream_ctlWrite_tvec :
    (s.ctlWrite c sec 0x005 v).stream c sec = { s.stream c sec with
      tvec := rw (s.stream c sec).tvec v (fieldMask 0 1 ||| fieldMask 5 59) } :=
  State.stream_ctlWrite (fun t => { t with tvec := rw t.tvec v (fieldMask 0 1 ||| fieldMask 5 59) }) (fun _ => rfl) s c

theorem State.stream_ctlWrite_fflags :
    (s.ctlWrite c sec 0x008 v).stream c sec = { s.stream c sec with
      fflags := rs (s.stream c sec).fflags v 0x7F ||| (s.stream c sec).fresh.setWidth 64 } :=
  State.stream_ctlWrite (fun t => { t with fflags := rs t.fflags v 0x7F ||| t.fresh.setWidth 64 }) (fun _ => rfl) s c

theorem State.stream_ctlWrite_seed :
    (s.ctlWrite c sec 0x009 v).stream c sec = { (s.stream c sec).reseed v with seed := v } :=
  State.stream_ctlWrite (fun t => { t.reseed v with seed := v }) (fun _ => rfl) s c

theorem State.ctx_ctlWrite_shbound :
    (s.ctlWrite c sec 0x00A v).ctx c = { s.ctx c with shbound := rw (s.ctx c).shbound v (fieldMask 0 4) } :=
  State.ctx_ctlWrite (fun x => { x with shbound := rw x.shbound v (fieldMask 0 4) }) (fun _ => rfl) s c

theorem State.ctx_ctlWrite_domain :
    (s.ctlWrite c sec 0x020 v).ctx c = { s.ctx c with domain := rw (s.ctx c).domain v (fieldMask 0 42) } :=
  State.ctx_ctlWrite (fun x => { x with domain := rw x.domain v (fieldMask 0 42) }) (fun _ => rfl) s c

theorem State.ctx_ctlWrite_rns :
    (s.ctlWrite c sec 0x040 v).ctx c = { s.ctx c with rns := rw (s.ctx c).rns v (fieldMask 0 1) } :=
  State.ctx_ctlWrite (fun x => { x with rns := rw x.rns v (fieldMask 0 1) }) (fun _ => rfl) s c

theorem State.ctx_ctlWrite_rnsstat :
    (s.ctlWrite c sec 0x041 v).ctx c = { s.ctx c with rnsstat := writeRnsstat (s.ctx c).rnsstat v } :=
  State.ctx_ctlWrite (fun x => { x with rnsstat := writeRnsstat x.rnsstat v }) (fun _ => rfl) s c

theorem State.ctx_ctlWrite_chk :
    (s.ctlWrite c sec 0x050 v).ctx c = { s.ctx c with chk := writeChk (s.ctx c).chk v } :=
  State.ctx_ctlWrite (fun x => { x with chk := writeChk x.chk v }) (fun _ => rfl) s c

theorem State.ctx_ctlWrite_tags : (s.ctlWrite c sec 0x0C0 v).ctx c = (s.ctx c).clearTags v :=
  State.ctx_ctlWrite (fun x => x.clearTags v) (fun _ => rfl) s c

theorem State.ctx_ctlWrite_cperr :
    (s.ctlWrite c sec 0x0C1 v).ctx c = { s.ctx c with cperr := if v.getLsbD 63 then 0 else (s.ctx c).cperr } :=
  State.ctx_ctlWrite (fun x => { x with cperr := if v.getLsbD 63 then 0 else x.cperr }) (fun _ => rfl) s c

theorem State.core_ctlWrite_thr :
    (s.ctlWrite c sec 0x030 v).core c = { s.core c with thr := writeThr (s.core c).thr v ||| (s.core c).thrFresh } :=
  s.core_ctlWrite c sec 0x030 v

theorem State.core_ctlWrite_rinj :
    (s.ctlWrite c sec 0x042 v).core c = { s.core c with
      rinj := rw (s.core c).rinj v 0x1FFFFFFF, rinjSet := (s.core c).rinjSet + 1 } :=
  s.core_ctlWrite c sec 0x042 v

theorem State.core_ctlWrite_spstat :
    (s.ctlWrite c sec 0x0D0 v).core c = { s.core c with spstat := rs (s.core c).spstat v (fieldMask 48 1) } :=
  s.core_ctlWrite c sec 0x0D0 v

theorem State.core_ctlWrite_spdiag :
    (s.ctlWrite c sec 0x0D2 v).core c = { s.core c with spdiag := rw (s.core c).spdiag v 0x1FFFFFFFF } :=
  s.core_ctlWrite c sec 0x0D2 v

/-- The registers that only the machine changes (R4, R163): the cycle count, the tag statuses and ctl.spaddr. -/
theorem State.core_ctlWrite_readOnly {n : Nat} (h : n ∈ [0x010, 0x0C4, 0x0C5, 0x0C6, 0x0C7, 0x0D1]) :
    (s.ctlWrite c sec n v).core c = s.core c := by
  rw [State.core_ctlWrite]
  fin_cases h <;> rfl

end RegisterEquations

/-! ### Window registers (R55) -/

theorem Core.ctlWrite_window (k : Core) (sec : Bool) (v : Word) {j : Nat} (h : j < 32) :
    k.ctlWrite sec (0x100 + j) v = k.updCtx (fun x => { x with win := x.win.set j (rw x.win[j] v (winMask (j % 4))) }) := by
  unfold Core.ctlWrite
  extract_lets st cx
  repeat rw [if_neg (by omega)]
  rw [dif_pos (by omega)]
  simp only [cx, Nat.add_sub_cancel_left]

/-- A window register takes the bits of its mask, and the other registers of its window stay. -/
theorem winReg_ctlWrite (s : State) (c : CoreId) (n : Fin 8) (f g : Fin 4) (v : Word) :
    winReg ((s.ctlWrite c false (0x100 + (4 * n.val + f.val)) v).ctx c).win n g =
      if g = f then rw (winReg (s.ctx c).win n g) v (winMask f.val) else winReg (s.ctx c).win n g := by
  rw [State.ctx_ctlWrite _ (fun k => k.ctlWrite_window (j := 4 * n.val + f.val) false v (by omega))]
  have hf : (4 * n.val + f.val) % 4 = f.val := by omega
  by_cases h : g = f
  · subst h
    simp [winReg, hf]
  · have : 4 * n.val + f.val ≠ 4 * n.val + g.val := fun e => h (Fin.ext (by omega))
    simp only [winReg, if_neg h, Vector.getElem_set_ne _ _ this]

/-- WINDOW_WRITE of register f of window n is a write of that control register. -/
theorem exec_windowWrite (s : State) (c : CoreId) (n : Fin 8) (f : Fin 4) (v : Word) :
    exec (.windowWrite c (BitVec.ofNat 12 (0x100 + f.val + 4 * n.val)) v) s =
      .next (s.ctlWrite c false (0x100 + (4 * n.val + f.val)) v) := by
  have reg : (BitVec.ofNat 12 (0x100 + f.val + 4 * n.val)).toNat = 0x100 + (4 * n.val + f.val) := by
    rw [BitVec.toNat_ofNat]
    omega
  change execWindowWrite c _ v s = _
  rw [execWindowWrite, reg, if_pos (by omega)]

/-- The field of a window register after a write of register f of its window. -/
theorem getBits_winReg_ctlWrite (s : State) (c : CoreId) (n : Fin 8) (f g : Fin 4) (v : Word) {lo len : Nat}
    (mask : winMask g.val = fieldMask lo len) :
    getBits (winReg ((s.ctlWrite c false (0x100 + (4 * n.val + f.val)) v).ctx c).win n g) lo len =
      getBits (if g = f then v else winReg (s.ctx c).win n g) lo len := by
  rw [winReg_ctlWrite]
  split
  case isTrue h => rw [← h, mask, getBits_rw_fieldMask]
  case isFalse => rfl

/-- WINDOW_WRITE of register f of window n replaces that field of the window; its three other fields and memory stay. -/
theorem windowWrite_fields (s : State) (c : CoreId) (n : Fin 8) (f : Fin 4) (v : Word) :
    let w := (s.ctx c).win
    ∃ t, exec (.windowWrite c (BitVec.ofNat 12 (0x100 + f.val + 4 * n.val)) v) s = .next t ∧
      winBase (t.ctx c).win n = getBits (if 0 = f then v else winReg w n 0) 16 41 * 2 ^ 16 ∧
      winSize (t.ctx c).win n = getBits (if 1 = f then v else winReg w n 1) 0 41 * 2 ^ 16 ∧
      winOff (t.ctx c).win n = getBits (if 2 = f then v else winReg w n 2) 16 36 * 2 ^ 16 ∧
      winAttr (t.ctx c).win n = (if 3 = f then v else winReg w n 3).extractLsb' 0 6 ∧ SameMemory s t := by
  have field := fun (g : Fin 4) {lo len : Nat} => getBits_winReg_ctlWrite s c n f g v (lo := lo) (len := len)
  refine ⟨_, exec_windowWrite s c n f v, ?base, ?size, ?off, ?attr, s.ctlWrite_sameMemory _ _ _ _⟩
  case base => exact congrArg (· * 2 ^ 16) (field 0 (by decide))
  case size => exact congrArg (· * 2 ^ 16) (field 1 (by decide))
  case off => exact congrArg (· * 2 ^ 16) (field 2 (by decide))
  case attr => exact BitVec.eq_of_toNat_eq (field 3 (by decide))

/-! ### The writes as instructions -/

/-- Settles O13: each clause is the equation of its register with the law of its fields; that memory stays is
State.ctlWrite_sameMemory. -/
theorem registerWritesApply : Obligations.RegisterWritesApply := by
  intro s c sec v x
  have same := fun (b : Bool) (n : Nat) => s.ctlWrite_sameMemory c b n v
  refine ⟨⟨s.ctlWrite c sec 0x009 v, rfl, ?seed⟩, ⟨s.ctlWrite c false 0x0C0 v, rfl, ?tags⟩,
    ⟨s.ctlWrite c false 0x0C1 v, rfl, ?cperr⟩, ⟨s.ctlWrite c false 0x041 v, rfl, ?rnsstat⟩,
    ⟨s.ctlWrite c false 0x040 v, rfl, ?rns⟩,
    fun n => windowWrite_fields s c n 0 v, fun n => windowWrite_fields s c n 1 v,
    fun n => windowWrite_fields s c n 2 v, fun n => windowWrite_fields s c n 3 v,
    ⟨s.ctlWrite c false 0x050 v, rfl, ?chk⟩, ⟨s.ctlWrite c false 0x0D2 v, rfl, ?spdiag⟩, ⟨s.ctlWrite c false 0x042 v, rfl, ?rinj⟩,
    ⟨s.ctlWrite c sec 0x000 v, rfl, ?stat⟩, ⟨s.ctlWrite c sec 0x001 v, rfl, ?tpc⟩, ⟨s.ctlWrite c sec 0x002 v, rfl, ?tstat⟩,
    ⟨s.ctlWrite c sec 0x003 v, rfl, ?tcause⟩, ⟨s.ctlWrite c sec 0x004 v, rfl, ?tval⟩, ⟨s.ctlWrite c sec 0x005 v, rfl, ?tvec⟩,
    ⟨s.ctlWrite c sec 0x00A v, rfl, ?shbound⟩, ⟨s.ctlWrite c sec 0x020 v, rfl, ?domain⟩, ⟨s.ctlWrite c sec 0x030 v, rfl, ?thr⟩,
    ⟨s.ctlWrite c sec 0x0D0 v, rfl, ?spstat⟩, fun n hn => ⟨s.ctlWrite c sec n.toNat v, rfl, ?readOnly⟩,
    ⟨s.ctlWrite c sec 0x008 v, rfl, ?fflags⟩⟩
  case seed =>
    rw [State.stream_ctlWrite_seed]
    exact ⟨rfl, fun i => ⟨Vector.getElem_ofFn .., reseedOne_ne_zero v i⟩, same _ _⟩
  case tags =>
    rw [State.ctx_ctlWrite_tags]
    exact ⟨rfl, rfl, fun i => Vector.getElem_ofFn .., same _ _⟩
  case cperr =>
    rw [State.ctx_ctlWrite_cperr]
    exact ⟨rfl, same _ _⟩
  case rnsstat =>
    rw [State.ctx_ctlWrite_rnsstat]
    have bit := getLsbD_writeRnsstat (s.ctx c).rnsstat v
    refine ⟨getBits_congr fun i _ h => ?_, fun i h h' => ?_, fun i h _ => ?_, same _ _⟩ <;> rw [bit]
    · rw [if_pos (by omega)]
    · rw [if_neg (by omega), if_pos h']
    · rw [if_neg (by omega), if_neg (by omega)]
  case rns =>
    rw [State.ctx_ctlWrite_rns]
    have bit := getLsbD_rw_lowField (s.ctx c).rns v 1
    exact ⟨bit 0, fun i h => (bit i).trans (if_neg (by omega)), same _ _⟩
  case chk =>
    rw [State.ctx_ctlWrite_chk]
    have bit := getLsbD_writeChk (s.ctx c).chk v
    refine ⟨bit 0, bit 2, bit 3, getBits_congr fun i h h' => ?_, getBits_congr fun i h h' => ?_, same _ _⟩ <;> rw [bit]
    · rw [if_pos (by omega)]
    · rw [if_neg (by omega), if_neg (by omega)]
  case spdiag =>
    rw [State.core_ctlWrite_spdiag]
    exact ⟨rfl, same _ _⟩
  case rinj =>
    rw [State.ctx, State.core_ctlWrite_rinj]
    exact ⟨rfl, rfl, rfl, same _ _⟩
  case stat =>
    rw [State.stream_ctlWrite_stat]
    have bit := getLsbD_writeStat x.stat v
    refine ⟨bit 0, getBits_congr fun i h h' => ?_, bit 6, bit 3, bit 1, same _ _⟩
    rw [bit, if_neg (by omega), if_pos (by omega)]
  case tpc =>
    rw [State.stream_ctlWrite_tpc]
    exact ⟨getLsbD_rw_upperField _ _ rfl, same _ _⟩
  case tstat =>
    rw [State.stream_ctlWrite_tstat]
    refine ⟨fun i => ?_, same _ _⟩
    have upper := getLsbD_rw_upperField x.tstat v (rfl : 1 + 63 = 64) i
    rw [apply_ite (BitVec.getLsbD · i)]
    grind
  case tcause =>
    rw [State.stream_ctlWrite_tcause]
    exact ⟨getLsbD_rw_lowField _ _ _, same _ _⟩
  case tval =>
    rw [State.stream_ctlWrite_tval]
    exact ⟨rfl, same _ _⟩
  case tvec =>
    rw [State.stream_ctlWrite_tvec]
    refine ⟨fun i => ?_, same _ _⟩
    rw [rw_or, getLsbD_rw_upperField _ _ rfl, getLsbD_rw_lowField]
    grind
  case shbound =>
    rw [State.ctx_ctlWrite_shbound]
    exact ⟨getLsbD_rw_lowField _ _ _, same _ _⟩
  case domain =>
    rw [State.ctx_ctlWrite_domain]
    exact ⟨getLsbD_rw_lowField _ _ _, same _ _⟩
  case thr =>
    rw [State.core_ctlWrite_thr]
    refine ⟨fun i => ?_, same _ _⟩
    rw [BitVec.getLsbD_or, getLsbD_writeThr, Bool.or_comm]
  case spstat =>
    rw [State.core_ctlWrite_spstat]
    refine ⟨fun i => ?_, same _ _⟩
    simp only [getLsbD_rs, getLsbD_fieldMask]
    grind
  case readOnly =>
    rw [State.ctx, State.core_ctlWrite_readOnly s c sec v hn]
    exact ⟨rfl, rfl, rfl, same _ _⟩
  case fflags =>
    rw [State.stream_ctlWrite_fflags]
    exact ⟨rfl, same _ _⟩

end Sys2Proof.Machine
end

section
/-! Decoding and encoding (R20 to R36): the fields of a word put together are the fields read from it again, the parser of a
class gives back the instruction that was encoded, and what a parser gives is an instruction of its class. -/

namespace Sys2Proof

/-! ### Reading a word that is put together from its fields (R26) -/

/-- A field or a flag of two parts put together lies in the upper or in the lower part. -/
theorem readField {m n : Nat} (x : BitVec m) (y : BitVec n) :
    (∀ lo len, n ≤ lo → (x ++ y).extractLsb' lo len = x.extractLsb' (lo - n) len) ∧
    (∀ lo len, lo + len ≤ n → (x ++ y).extractLsb' lo len = y.extractLsb' lo len) ∧
    (∀ lo, n ≤ lo → (x ++ y).getLsbD lo = x.getLsbD (lo - n)) ∧
    (∀ lo, lo < n → (x ++ y).getLsbD lo = y.getLsbD lo) := by
  refine ⟨fun _ _ => BitVec.extractLsb'_append_eq_of_le, fun _ _ => BitVec.extractLsb'_append_eq_of_add_le,
    fun lo h => ?_, fun lo h => ?_⟩
  · rw [BitVec.getLsbD_append, if_neg (by omega)]
  · rw [BitVec.getLsbD_append, if_pos h]

theorem getLsbD_ofBool_zero (b : Bool) : (BitVec.ofBool b).getLsbD 0 = b := by cases b <;> rfl

/-! ### The parser of each class reads the encodings of its instructions (R32 to R36) -/

theorem parseK_encode {i : Instr} {w : SlotWord} (slot : i.slot = some .K) (word : encode i = some w) (ne : i ≠ .nop) :
    parseK w = .ok i := by
  cases i <;> cases slot
  case nop => exact absurd rfl ne
  all_goals
    cases word
    simp (disch := decide) only [parseK, readField, BitVec.extractLsb'_eq_self, getLsbD_ofBool_zero, Nat.reduceSub,
      BitVec.toNat_ofNat, Nat.reducePow, Nat.reduceMod] <;> rfl

theorem parseS_encode {i : Instr} {w : SlotWord} (slot : i.slot = some .S) (word : encode i = some w) : parseS w = .ok i := by
  cases i <;> cases slot
  all_goals
    cases word
    simp (disch := decide) only [parseS, readField, BitVec.extractLsb'_eq_self, getLsbD_ofBool_zero, Nat.reduceSub,
      BitVec.toNat_ofNat, Nat.reducePow, Nat.reduceMod] <;> rfl

theorem parseL_encode {i : Instr} {w : SlotWord} (slot : i.slot = some .L) (word : encode i = some w) : parseL w = .ok i := by
  cases i <;> cases slot
  all_goals
    cases word
    simp (disch := decide) only [parseL, readField, BitVec.extractLsb'_eq_self, getLsbD_ofBool_zero, Nat.reduceSub,
      BitVec.toNat_ofNat, Nat.reducePow, Nat.reduceMod]

theorem parseV_encode {i : Instr} {w : SlotWord} (slot : i.slot = some .V) (word : encode i = some w) : parseV w = .ok i := by
  cases i <;> cases slot
  all_goals
    cases word
    simp (disch := decide) only [parseV, readField, BitVec.extractLsb'_eq_self, getLsbD_ofBool_zero, Nat.reduceSub,
      BitVec.toNat_ofNat, Nat.reducePow, Nat.reduceMod] <;> rfl

theorem parseM_encode {i : Instr} {w : SlotWord} (slot : i.slot = some .M) (word : encode i = some w) : parseM w = .ok i := by
  cases i <;> cases slot
  all_goals
    cases word
    simp (disch := decide) only [parseM, readField, BitVec.extractLsb'_eq_self, getLsbD_ofBool_zero, Nat.reduceSub,
      BitVec.toNat_ofNat, Nat.reducePow, Nat.reduceMod] <;> rfl

theorem parseC_encode {i : Instr} {w : SlotWord} (slot : i.slot = some .C) (word : encode i = some w) : parseC w = .ok i := by
  cases i <;> cases slot
  all_goals
    cases word
    simp (disch := decide) only [parseC, readField, BitVec.extractLsb'_eq_self, getLsbD_ofBool_zero, Nat.reduceSub,
      BitVec.toNat_ofNat, Nat.reducePow, Nat.reduceMod]

theorem parse_encode {i : Instr} {c : SlotClass} {w : SlotWord} (slot : i.slot = some c) (word : encode i = some w)
    (ne : i ≠ .nop) : parse c w = .ok i := by
  cases c with
  | K => exact parseK_encode slot word ne
  | S => exact parseS_encode slot word
  | L => exact parseL_encode slot word
  | V => exact parseV_encode slot word
  | M => exact parseM_encode slot word
  | C => exact parseC_encode slot word

/-! ### The decoder -/

theorem encode_of_slot {i : Instr} {c : SlotClass} (slot : i.slot = some c) : ∃ w, encode i = some w := by
  cases i <;> cases slot <;> exact ⟨_, rfl⟩

/-- What a parser gives is an instruction of its class. -/
theorem slot_of_parse {c : SlotClass} {w : SlotWord} {i : Instr} (h : parse c w = .ok i) : i.slot = some c := by
  cases c <;> simp only [parse, parseK, parseS, parseL, parseV, parseM, parseC] at h <;> repeat' split at h
  all_goals cases h <;> rfl

/-- Major 0 is assigned in no class (R22). -/
theorem parse_of_major_zero {c : SlotClass} {w : SlotWord} (h : w.extractLsb' 26 6 = 0#6) :
    parse c w = .error .unassignedMajor := by
  cases c <;> simp only [parse, parseK, parseS, parseL, parseV, parseM, parseC, h] <;> rfl

/-- The decoder accepts the zero word as NOP, and a word that is the encoding of the well-formed instruction that its fields
spell; nothing else (R21 to R23). -/
theorem decode_eq_ok_iff {c : SlotClass} {w : SlotWord} {i : Instr} :
    decode c w = .ok i ↔
      (w = 0#32 ∧ i = .nop) ∨ (w ≠ 0#32 ∧ parse c w = .ok i ∧ encode i = some w ∧ i.wf = true) := by
  unfold decode
  split
  case isTrue zero =>
    refine ⟨fun h => .inl ⟨zero, (Except.ok.inj h).symm⟩, ?_⟩
    rintro (⟨-, rfl⟩ | ⟨nonzero, -⟩)
    · rfl
    · exact absurd zero nonzero
  case isFalse nonzero =>
    split
    case isTrue major => simp [nonzero, parse_of_major_zero major]
    case isFalse =>
      cases parse c w with
      | error e => simp [nonzero]
      | ok j =>
        simp only [nonzero, false_and, false_or, ne_eq, not_false_eq_true, true_and, Except.ok.injEq]
        by_cases word : encode j = some w <;> by_cases wf : j.wf = true <;> grind

theorem decode_zero (c : SlotClass) : decode c 0 = .ok .nop := decode_eq_ok_iff.2 (.inl ⟨rfl, rfl⟩)

theorem decode_encode {i : Instr} {c : SlotClass} {w : SlotWord} (slot : i.slot = some c) (word : encode i = some w)
    (wf : i.wf = true) : decode c w = .ok i := by
  by_cases nop : i = .nop
  · subst nop
    cases word
    exact decode_zero c
  · have parsed := parse_encode slot word nop
    refine decode_eq_ok_iff.2 (.inr ⟨fun zero => ?_, parsed, word, wf⟩)
    rw [zero, parse_of_major_zero (by decide)] at parsed
    cases parsed

theorem encode_of_decode {c : SlotClass} {w : SlotWord} {i : Instr} (h : decode c w = .ok i) : encode i = some w := by
  obtain ⟨rfl, rfl⟩ | ⟨-, -, word, -⟩ := decode_eq_ok_iff.1 h
  · rfl
  · exact word

/-- Settles O1: the parsers give encoded instructions back, so the decoder does. -/
theorem decodeEncodeRoundTrip : Obligations.DecodeEncodeRoundTrip := by
  refine ⟨fun i c slot wf => ?_, decode_zero⟩
  obtain ⟨w, word⟩ := encode_of_slot slot
  exact ⟨w, word, decode_encode slot word wf⟩

/-- Settles O2: the decoder tests the encoding and the form, and a word is the encoding of what it decodes to. -/
theorem decodedIsWellFormed : Obligations.DecodedIsWellFormed := by
  refine ⟨fun c w i h => ?_, fun c v w i hv hw => ?_⟩
  · obtain ⟨rfl, rfl⟩ | ⟨-, parsed, word, wf⟩ := decode_eq_ok_iff.1 h
    · exact ⟨rfl, rfl, .inl rfl⟩
    · exact ⟨wf, word, .inr (slot_of_parse parsed)⟩
  · exact Option.some.inj ((encode_of_decode hv).symm.trans (encode_of_decode hw))

end Sys2Proof
end

section
/-! What a result does as it lands (R40, R157, R165): which parts of the state each kind of destination leaves alone, and one
equation for each register class. -/

namespace Sys2Proof.Machine

open Sys2Proof.Claims

/-! ### What landing leaves alone -/

/-- Stream y is stream x after results have landed: nothing but these parts may differ. -/
def Stream.Landed (x y : Stream) : Prop :=
  ∃ s p r rh br ff fr pd bs bp, y = { x with s := s, p := p, ring := r, ringHeld := rh, badRing := br, fflags := ff, fresh := fr,
                                             pending := pd, badScalar := bs, badPred := bp }

theorem Stream.Landed.refl (x : Stream) : x.Landed x := ⟨_, _, _, _, _, _, _, _, _, _, rfl⟩

theorem Stream.Landed.trans {x y z : Stream} (h : x.Landed y) (k : y.Landed z) : x.Landed z := by
  obtain ⟨s, p, r, rh, br, ff, fr, pd, bs, bp, rfl⟩ := h
  obtain ⟨s, p, r, rh, br, ff, fr, pd, bs, bp, rfl⟩ := k
  exact ⟨_, _, _, _, _, _, _, _, _, _, rfl⟩

theorem Stream.Landed.ws (x : Stream) (r : BitVec 6) (v : Word) : x.Landed (x.ws r v) := by
  unfold Stream.ws
  split
  · exact .refl x
  · exact ⟨_, _, _, _, _, _, _, _, _, _, rfl⟩

theorem Stream.Landed.landRing (x : Stream) (n : Nat) (val : BitVec 8192) : x.Landed (x.landRing n val) := by
  unfold Stream.landRing
  extract_lets
  split
  · exact ⟨_, _, _, _, _, _, _, _, _, _, rfl⟩
  · exact .refl x

theorem Stream.Landed.ringParity (x : Stream) (n : Nat) (bad : Bool) : x.Landed (x.ringParity n bad) := by
  unfold Stream.ringParity
  split
  · exact ⟨_, _, _, _, _, _, _, _, _, _, rfl⟩
  · exact .refl x

theorem Stream.Landed.report (x : Stream) (t : TrapReq) :
    x.Landed (if x.stopped.isSome || x.pending.any (fun q => q.cause == t.cause) then x
      else { x with pending := x.pending ++ [t] }) := by
  split
  · exact .refl x
  · exact ⟨_, _, _, _, _, _, _, _, _, _, rfl⟩

theorem Ctx.landed_updStream (x : Ctx) (sec q : Bool) {f : Stream → Stream} (h : (x.stream sec).Landed (f (x.stream sec))) :
    (x.stream q).Landed ((x.updStream sec f).stream q) := by
  by_cases e : q = sec
  · subst e
    rwa [Ctx.stream_updStream]
  · rw [Ctx.stream_updStream_ne x f e]
    exact .refl _

/-- A landing changes of the streams of its context nothing but what results land in. -/
theorem Ctx.landed_land (x : Ctx) (sec q : Bool) (d : Dest) : (x.stream q).Landed ((x.land sec d).stream q) := by
  have change : ∀ {y : Stream} {s p r rh br ff fr pd bs bp},
      y.Landed { y with s := s, p := p, ring := r, ringHeld := rh, badRing := br, fflags := ff, fresh := fr, pending := pd,
                        badScalar := bs, badPred := bp } := ⟨_, _, _, _, _, _, _, _, _, _, rfl⟩
  cases d with
  | scalar r v => exact x.landed_updStream sec q ((Stream.Landed.ws _ r v).trans change)
  | pred mask val => exact x.landed_updStream sec q change
  | vec r mask val push =>
    cases push with
    | none => exact .refl _
    | some n => exact Ctx.landed_updStream _ sec q ((Stream.Landed.landRing _ n _).trans (.ringParity _ n _))
  | mask r mask val =>
    simp only [Ctx.land, Ctx.wm]
    split <;> exact .refl _
  | ringZero n => exact x.landed_updStream sec q (.landRing _ n 0)
  | accBlock n block val =>
    have same : ∀ a w b, (x.stream q).Landed (({ x with acc := a, accw := w, accBad := b } : Ctx).stream q) :=
      fun _ _ _ => .refl _
    simp only [Ctx.land]
    split <;> exact same _ _ _
  | streamWord n w v =>
    simp only [Ctx.land]
    split <;> exact .refl _
  | flags f => exact x.landed_updStream sec q change
  | residueCounts a b c => exact .refl _
  | report cause tval => exact x.landed_updStream sec q (.report _ _)
  | badScalar r => exact x.landed_updStream sec q change
  | badVector r lane push =>
    cases push with
    | none => exact .refl _
    | some n => exact Ctx.landed_updStream _ sec q (.ringParity _ n true)
  | badPred mask => exact x.landed_updStream sec q change
  | badMask r word => exact .refl _
  | badStream n w => exact .refl _
  | badAcc key => exact .refl _

/-- Landing what is due takes it from the work in flight and lands it. -/
theorem Ctx.landed_landUpTo (x : Ctx) (sec : Bool) (T : Nat) :
    Stream.Landed { x.stream sec with inflight := (x.stream sec).inflight.filter (fun l => !(l.due ≤ T)) }
      ((x.landUpTo sec T).stream sec) :=
  foldl_keeps (P := fun y : Ctx => Stream.Landed { x.stream sec with
      inflight := (x.stream sec).inflight.filter (fun l => !(l.due ≤ T)) } (y.stream sec))
    (fun y l hy => hy.trans (y.landed_land sec sec l.dest)) _ _ (by rw [Ctx.stream_updStream]; exact .refl _)

theorem Ctx.inflight_landUpTo (x : Ctx) (sec : Bool) (T : Nat) :
    ((x.landUpTo sec T).stream sec).inflight = (x.stream sec).inflight.filter (fun l => !(l.due ≤ T)) := by
  obtain ⟨s, p, r, rh, br, ff, fr, pd, bs, bp, e⟩ := x.landed_landUpTo sec T
  rw [e]

/-! ### Registers after a landing -/

theorem Ctx.rv_updStream (x : Ctx) (sec : Bool) (f : Stream → Stream) (r : BitVec 6) : (x.updStream sec f).rv r = x.rv r := by
  cases sec <;> rfl

/-- A vector result changes the bits that its mask names, with and without a push. -/
theorem Ctx.rv_land_vec (x : Ctx) (sec : Bool) (d q : BitVec 6) (mask val : BitVec 8192) (push : Option Nat) :
    (x.land sec (.vec d mask val push)).rv q = (x.wv d mask val).rv q := by
  cases push with
  | none => rfl
  | some n => exact Ctx.rv_updStream _ sec _ q

/-- A write under a mask, bit by bit. -/
theorem getLsbD_masked {n : Nat} (old mask val : BitVec n) {i : Nat} (h : i < n) :
    ((old &&& ~~~mask) ||| (val &&& mask)).getLsbD i = if mask.getLsbD i then val.getLsbD i else old.getLsbD i := by
  simp only [BitVec.getLsbD_or, BitVec.getLsbD_and, BitVec.getLsbD_not, h, decide_true, Bool.true_and]
  cases mask.getLsbD i <;> simp

theorem Ctx.getLsbD_rv_wv (x : Ctx) (d q : BitVec 6) (mask val : BitVec 8192) (i : Nat) :
    ((x.wv d mask val).rv q).getLsbD i = if q = d ∧ mask.getLsbD i then val.getLsbD i else (x.rv q).getLsbD i := by
  rw [Ctx.rv_wv]
  by_cases hq : q = d
  · by_cases hi : i < 8192
    · simp only [hq, if_true, true_and, getLsbD_masked _ _ _ hi]
    · simp only [BitVec.getLsbD_of_ge _ _ (Nat.le_of_not_lt hi), ite_self]
  · simp only [hq, if_false, false_and]

theorem Ctx.getLsbD_rm_wm (x : Ctx) (d n : BitVec 3) (mask val : BitVec 512) {i : Nat} (hi : i < 512) :
    ((x.wm d mask val).rm n).getLsbD i =
      if n = 0 then true else if n = d ∧ mask.getLsbD i then val.getLsbD i else (x.rm n).getLsbD i := by
  by_cases hn : n = 0
  · subst hn
    simp only [if_true, show (x.wm d mask val).rm 0 = BitVec.allOnes 512 from Ctx.rm_zero _, BitVec.getLsbD_allOnes, hi, decide_true]
  · rw [Ctx.rm_wm, if_neg hn]
    by_cases e : n = d
    · subst e
      have h0 : n ≠ 0#3 := hn
      rw [if_pos ⟨rfl, h0⟩, getLsbD_masked _ _ _ hi]
      simp only [true_and]
    · simp only [e, if_false, false_and]

/-- The ring entry of a push that is newer than what it holds takes the value that lands (R157). -/
theorem Stream.landRing_entry (x : Stream) (n : Nat) (val : BitVec 8192) (h : n % 8 < 8) (newer : x.ringHeld[n % 8] < n + 1) :
    (x.landRing n val).ring[n % 8] = val := by
  unfold Stream.landRing
  dsimp only
  rw [if_pos newer]
  exact Vector.getElem_set_self ..

theorem Stream.ring_ringParity (x : Stream) (n : Nat) (bad : Bool) : (x.ringParity n bad).ring = x.ring := by
  unfold Stream.ringParity
  split <;> rfl

theorem Ctx.ring_land_vec (x : Ctx) (sec : Bool) (d : BitVec 6) (mask val : BitVec 8192) (n : Nat) (h : n % 8 < 8)
    (newer : (x.stream sec).ringHeld[n % 8] < n + 1) :
    ((x.land sec (.vec d mask val (some n))).stream sec).ring[n % 8] = (x.wv d mask val).rv d := by
  have e : ((x.land sec (.vec d mask val (some n))).stream sec).ring =
      ((x.stream sec).landRing n ((x.wv d mask val).rv d)).ring := by
    unfold Ctx.land
    dsimp only
    rw [Ctx.stream_updStream, Stream.ring_ringParity]
    rfl
  simp only [e]
  exact Stream.landRing_entry _ n _ h newer

/-! ### Stream registers -/

/-- Word u of 512 bits after word w is replaced. -/
theorem extractLsb'_replaceWord (x : BitVec 512) (w u : BitVec 3) (v : Word) :
    ((x &&& ~~~(BitVec.ofNat 512 (2 ^ 64 - 1) <<< (64 * w.toNat))) ||| (v.setWidth 512 <<< (64 * w.toNat))).extractLsb'
      (64 * u.toNat) 64 = if u = w then v else x.extractLsb' (64 * u.toNat) 64 := by
  have ones : BitVec.ofNat 512 (2 ^ 64 - 1) = (BitVec.allOnes 64).setWidth 512 := by
    rw [← BitVec.ofNat_toNat, BitVec.toNat_allOnes]
  have hu := u.isLt
  have hw := w.isLt
  refine BitVec.eq_of_getLsbD_eq fun i hi => ?_
  rw [apply_ite (BitVec.getLsbD · i)]
  simp only [ones, BitVec.getLsbD_extractLsb', BitVec.getLsbD_or, BitVec.getLsbD_and, BitVec.getLsbD_not,
    BitVec.getLsbD_shiftLeft, BitVec.getLsbD_setWidth, BitVec.getLsbD_allOnes, hi, decide_true, Bool.true_and]
  by_cases e : u = w
  · subst e
    have low : 64 * u.toNat + i < 512 := by omega
    simp [hi, low, show i < 512 by omega]
  · have ne : u.toNat ≠ w.toNat := fun h => e (BitVec.eq_of_toNat_eq h)
    rw [if_neg e]
    rcases Nat.lt_or_gt_of_ne ne with h | h
    · simp [show 64 * u.toNat + i < 64 * w.toNat by omega, show 64 * u.toNat + i < 512 by omega]
    · have far : ¬ 64 * u.toNat + i - 64 * w.toNat < 64 := by omega
      simp [far, BitVec.getLsbD_of_ge v _ (Nat.le_of_not_lt far), show 64 * u.toNat + i < 512 by omega]

theorem Ctx.rstr_wstr_same (x : Ctx) (n : BitVec 4) (w : BitVec 3) (v : Word) :
    (x.wstr n w v).rstr n = (x.rstr n &&& ~~~(BitVec.ofNat 512 (2 ^ 64 - 1) <<< (64 * w.toNat))) |||
      ((v &&& strWritable w.toNat).setWidth 512 <<< (64 * w.toNat)) :=
  Vector.getElem_set_self ..

theorem Ctx.rstr_wstr_ne (x : Ctx) {n q : BitVec 4} (h : q ≠ n) (w : BitVec 3) (v : Word) :
    (x.wstr n w v).rstr q = x.rstr q :=
  Vector.getElem_set_ne n.isLt q.isLt (fun e => h (BitVec.eq_of_toNat_eq e.symm))

/-- An STSET changes the writable bits of its word and no other word (R155, R180). -/
theorem Ctx.strWord_wstr (x : Ctx) (n q : BitVec 4) (w u : BitVec 3) (v : Word) :
    (x.wstr n w v).strWord q u = if q = n ∧ u = w then v &&& strWritable w.toNat else x.strWord q u := by
  unfold Ctx.strWord
  by_cases hq : q = n
  · subst hq
    rw [Ctx.rstr_wstr_same, extractLsb'_replaceWord]
    simp only [true_and]
  · rw [Ctx.rstr_wstr_ne x hq]
    simp only [hq, false_and, if_false]

theorem Ctx.strWord_land (x : Ctx) (sec : Bool) (n q : BitVec 4) (w u : BitVec 3) (v : Word) :
    (x.land sec (.streamWord n w v)).strWord q u = (x.wstr n w v).strWord q u := by
  unfold Ctx.land
  dsimp only
  split <;> rfl

/-! ### The results that are due -/

/-- Where one result is due, landing all that are due is landing that one. -/
theorem Ctx.landUpTo_single (x : Ctx) (sec : Bool) (T : Nat) {l : Landing}
    (h : (x.stream sec).inflight.filter (fun l => l.due ≤ T) = [l]) :
    x.landUpTo sec T = (x.updStream sec (fun y =>
      { y with inflight := y.inflight.filter (fun l => !(l.due ≤ T)) })).land sec l.dest := by
  unfold Ctx.landUpTo
  dsimp only
  rw [h]
  rfl

theorem State.updCtx_congr (s : State) (c : CoreId) {f g : Ctx → Ctx} (h : f (s.ctx c) = g (s.ctx c)) :
    s.updCtx c f = s.updCtx c g := by
  have core : (s.cores[c.val]'c.isLt).updCtx f = (s.cores[c.val]'c.isLt).updCtx g :=
    congrArg (fun y => { s.core c with ctx := y }) h
  simp only [State.updCtx, State.updCore, core]

/-- Settles O8: the landing of each kind of destination, by the equation of its register class. -/
theorem resultsLand : Obligations.ResultsLand := by
  refine ⟨fun s c sec => ⟨s.updCtx c (fun x => x.landUpTo sec (s.stream c sec).sc), rfl, ?_, fun l hl => ?_⟩, ?scalar, ?pred,
    ?vec, ?ring, ?mask, ?word, ?flags⟩
  · rw [State.stream, State.ctx_updCtx]
    exact Ctx.inflight_landUpTo _ sec _
  · exact State.updCtx_congr s c (Ctx.landUpTo_single _ sec _ hl)
  case scalar =>
    intro x sec d v q
    rw [show (x.land sec (.scalar d v)).stream sec = _ from Ctx.stream_updStream ..]
    exact Stream.rs_ws (x.stream sec) d q v
  case pred =>
    intro x sec mask val n
    rw [show (x.land sec (.pred mask val)).stream sec = _ from Ctx.stream_updStream ..]
    exact Stream.rp_wp (x.stream sec) mask val n
  case vec =>
    intro x sec d q mask val push i
    rw [Ctx.rv_land_vec]
    exact x.getLsbD_rv_wv d q mask val i
  case ring =>
    intro x sec d mask val n h newer
    rw [Ctx.rv_land_vec]
    exact x.ring_land_vec sec d mask val n h newer
  case mask => exact fun x sec d n mask val i hi => x.getLsbD_rm_wm d n mask val hi
  case word =>
    intro x sec n q w u v
    rw [Ctx.strWord_land]
    exact x.strWord_wstr n q w u v
  case flags =>
    intro x sec f
    rw [show (x.land sec (.flags f)).stream sec = _ from Ctx.stream_updStream ..]
    rfl

end Sys2Proof.Machine
end

section
/-! The frame of the scalar and the vector slots (R38, R40, R157, R165): what their instructions put in flight and count, and
that they leave everything else alone. -/

namespace Sys2Proof.Claims

open Sys2Proof.Machine

theorem SameCtx.refl (x : Ctx) : SameCtx x x :=
  ⟨fun _ => rfl, fun _ => rfl, fun _ => rfl, rfl, rfl, rfl, rfl, ⟨rfl, rfl, rfl⟩, rfl, rfl, ⟨rfl, rfl, rfl, rfl, rfl, rfl⟩⟩

theorem SameCtx.trans {x y z : Ctx} (h : SameCtx x y) (k : SameCtx y z) : SameCtx x z where
  vectors r := (k.vectors r).trans (h.vectors r)
  masks n := (k.masks n).trans (h.masks n)
  streams n := (k.streams n).trans (h.streams n)
  acc := k.acc.trans h.acc
  accw := k.accw.trans h.accw
  plane := k.plane.trans h.plane
  win := k.win.trans h.win
  tags := ⟨k.tags.1.trans h.tags.1, k.tags.2.1.trans h.tags.2.1, k.tags.2.2.trans h.tags.2.2⟩
  engine := k.engine.trans h.engine
  codes := k.codes.trans h.codes
  ctl := by
    obtain ⟨h1, h2, h3, h4, h5, h6⟩ := h.ctl
    obtain ⟨k1, k2, k3, k4, k5, k6⟩ := k.ctl
    exact ⟨k1.trans h1, k2.trans h2, k3.trans h3, k4.trans h4, k5.trans h5, k6.trans h6⟩

/-- The streams, and the jobs observed DONE, are apart from the registers of the context. -/
theorem SameCtx.updStream (x : Ctx) (sec : Bool) (f : Stream → Stream) (l : List (BitVec 6 × Bool × OwnWrite)) :
    SameCtx x { x.updStream sec f with doneJobs := l } := by
  cases sec <;>
    exact ⟨fun _ => rfl, fun _ => rfl, fun _ => rfl, rfl, rfl, rfl, rfl, ⟨rfl, rfl, rfl⟩, rfl, rfl, ⟨rfl, rfl, rfl, rfl, rfl, rfl⟩⟩

theorem SameCtx.updStream_only (x : Ctx) (sec : Bool) (f : Stream → Stream) : SameCtx x (x.updStream sec f) :=
  SameCtx.updStream x sec f (x.updStream sec f).doneJobs

end Sys2Proof.Claims

namespace Sys2Proof.Machine

open Sys2Proof.Claims

/-! ### The frame -/

/-- Of the machine nothing has changed from s to t but, in the issuing stream, its work in flight, its count of pushes, its
own-write set and (draws) its generators; jobs observed DONE; the writes that end the cycle; and what the issue counts. -/
structure LaneFrame (draws : Bool) (s t : State) : Prop where
  core : t.issue.core = s.issue.core
  sec : t.issue.sec = s.issue.sec
  mem : t.mem = s.mem
  hub : t.hub = s.hub
  homes : t.homes = s.homes
  others : ∀ c, c ≠ s.issue.core → t.core c = s.core c
  other : t.curCtx.stream (!s.issue.sec) = s.curCtx.stream (!s.issue.sec)
  stream : ∃ fl pu ow g, t.cur = { s.cur with inflight := fl, pushes := pu, own := ow, gens := g }
  gens : draws = false → t.cur.gens = s.cur.gens
  ctx : SameCtx s.curCtx t.curCtx

namespace LaneFrame

variable {b : Bool} {s t u : State}

theorem refl (b : Bool) (s : State) : LaneFrame b s s :=
  ⟨rfl, rfl, rfl, rfl, rfl, fun _ _ => rfl, rfl, ⟨_, _, _, _, rfl⟩, fun _ => rfl, SameCtx.refl _⟩

theorem trans (h : LaneFrame b s t) (k : LaneFrame b t u) : LaneFrame b s u where
  core := k.core.trans h.core
  sec := k.sec.trans h.sec
  mem := k.mem.trans h.mem
  hub := k.hub.trans h.hub
  homes := k.homes.trans h.homes
  others c hc := (k.others c (h.core ▸ hc)).trans (h.others c hc)
  other := by
    have e := k.other
    rw [h.sec] at e
    exact e.trans h.other
  stream := by
    obtain ⟨fl, pu, ow, g, e⟩ := h.stream
    obtain ⟨fl', pu', ow', g', e'⟩ := k.stream
    exact ⟨fl', pu', ow', g', by rw [e', e]⟩
  gens d := (k.gens d).trans (h.gens d)
  ctx := h.ctx.trans k.ctx

/-- A change of the issuing context that keeps the registers and the other stream. -/
theorem updCurCtx (s : State) (f : Ctx → Ctx) (ctx : SameCtx s.curCtx (f s.curCtx))
    (stream : ∃ fl pu ow g, (f s.curCtx).stream s.issue.sec = { s.cur with inflight := fl, pushes := pu, own := ow, gens := g })
    (other : (f s.curCtx).stream (!s.issue.sec) = s.curCtx.stream (!s.issue.sec))
    (gens : b = false → ((f s.curCtx).stream s.issue.sec).gens = s.cur.gens) : LaneFrame b s (s.updCurCtx f) := by
  have cur : (s.updCurCtx f).cur = (f s.curCtx).stream s.issue.sec := congrArg (Ctx.stream · s.issue.sec) (s.curCtx_updCurCtx f)
  refine ⟨rfl, rfl, rfl, rfl, rfl, fun c hc => s.core_updCtx_ne f hc, ?_, ?_, ?_, ?_⟩
  · rw [State.curCtx_updCurCtx]
    exact other
  · rw [cur]
    exact stream
  · rw [cur]
    exact gens
  · rw [State.curCtx_updCurCtx]
    exact ctx

/-- A change of the issuing stream within the frame. -/
theorem updCur (s : State) (f : Stream → Stream)
    (stream : ∃ fl pu ow g, f s.cur = { s.cur with inflight := fl, pushes := pu, own := ow, gens := g })
    (gens : b = false → (f s.cur).gens = s.cur.gens) : LaneFrame b s (s.updCur f) := by
  have cur : (s.curCtx.updStream s.issue.sec f).stream s.issue.sec = f s.cur := Ctx.stream_updStream _ _ f
  refine updCurCtx s (fun x => x.updStream s.issue.sec f) (SameCtx.updStream_only s.curCtx _ f) ?_ (Ctx.stream_updStream_ne _ f (by simp)) ?_
  · exact cur ▸ stream
  · exact cur ▸ gens

theorem emit (b : Bool) (s : State) (n : Nat) (d : Dest) : LaneFrame b s (s.emit n d) :=
  updCur s _ ⟨_, _, _, _, rfl⟩ fun _ => rfl

theorem setGens (s : State) (g : Vector Word 128) : LaneFrame true s (s.updCur (fun x => { x with gens := g })) :=
  updCur s _ ⟨_, _, _, _, rfl⟩ (fun h => by cases h)

theorem observe (b : Bool) (s : State) (mask : Word) : LaneFrame b s (s.updCurCtx (fun x => x.observe s.issue.sec mask)) := by
  have stream : ∀ q, (s.curCtx.observe s.issue.sec mask).stream q = (s.curCtx.updStream s.issue.sec _).stream q := fun _ => rfl
  refine updCurCtx s _ (SameCtx.updStream _ _ _ _) ?_ ?_ fun _ => ?_ <;> rw [stream]
  · rw [Ctx.stream_updStream]
    exact ⟨_, _, _, _, rfl⟩
  · exact Ctx.stream_updStream_ne _ _ (by simp)
  · rw [Ctx.stream_updStream]
    rfl

/-- A change of the issuing core outside its context. -/
theorem updCurCore (b : Bool) (s : State) (f : Core → Core) (h : (f s.curCore).ctx = s.curCtx) : LaneFrame b s (s.updCurCore f) := by
  have ctx : (s.updCurCore f).curCtx = s.curCtx := (congrArg Core.ctx (s.curCore_updCurCore f)).trans h
  have cur : (s.updCurCore f).cur = s.cur := congrArg (Ctx.stream · s.issue.sec) ctx
  exact ⟨rfl, rfl, rfl, rfl, rfl, fun c hc => s.core_updCore_ne f hc, congrArg (Ctx.stream · _) ctx, ⟨_, _, _, _, cur⟩,
    fun _ => congrArg Stream.gens cur, ctx ▸ SameCtx.refl _⟩

theorem clearTagsAtEnd (b : Bool) (s : State) (mask : Word) : LaneFrame b s (s.clearTagsAtEnd mask) :=
  updCurCore b s _ rfl

theorem drawFree (b : Bool) (s : State) : LaneFrame b s s.drawFree :=
  ⟨rfl, rfl, rfl, rfl, rfl, fun _ _ => rfl, rfl, ⟨_, _, _, _, rfl⟩, fun _ => rfl, SameCtx.refl _⟩

theorem pushRing (b : Bool) (s : State) : LaneFrame b s s.pushRing.1 := by
  unfold State.pushRing
  split
  · exact refl b s
  · have pushed : LaneFrame b s (s.updCur (fun x => { x with pushes := x.pushes + 1 })) := updCur s _ ⟨_, _, _, _, rfl⟩ fun _ => rfl
    exact pushed.trans ⟨rfl, rfl, rfl, rfl, rfl, fun _ _ => rfl, rfl, ⟨_, _, _, _, rfl⟩, fun _ => rfl, SameCtx.refl _⟩

theorem pushZero (b : Bool) (s : State) (lat : Nat) : LaneFrame b s (s.pushZero lat) := by
  have pushed := pushRing b s
  unfold State.pushZero
  split
  next e => rwa [e] at pushed
  next e => exact (e ▸ pushed).trans (emit b _ _ _)

theorem putV (b : Bool) (s : State) (lat : Nat) (d : BitVec 6) (r : VResult) : LaneFrame b s (s.putV lat d r) :=
  (pushRing b s).trans (emit b _ _ _)

theorem putM (b : Bool) (s : State) (lat : Nat) (k : BitVec 3) (r : MResult) : LaneFrame b s (s.putM lat k r) :=
  (pushZero b s lat).trans (emit b _ _ _)

theorem sameScalars (h : LaneFrame b s t) : SameScalars s.cur t.cur := by
  obtain ⟨fl, pu, ow, g, e⟩ := h.stream
  rw [e]
  exact ⟨fun _ => rfl, fun _ => rfl, rfl, rfl, rfl, rfl, ⟨rfl, rfl, rfl, rfl, rfl⟩, rfl, rfl⟩

theorem sameRegs (h : LaneFrame false s t) : SameRegs s.cur t.cur := by
  have k := h.sameScalars
  exact ⟨k.scalars, k.preds, k.ring, k.stat, k.fflags, k.seed, h.gens rfl, k.traps, k.counts⟩

theorem sameMemory (h : LaneFrame b s t) : SameMemory s t := fun a => by rw [h.mem]

end LaneFrame

/-! ### What an instruction of these slots comes to -/

/-- The instruction answers a trap at its bundle, a hold, or a state within the frame. -/
def LaneOutcome (b : Bool) (s : State) (a : Answer) : Prop :=
  ∀ t, a = .next t → (∃ q, t = s.raise q) ∨ (∃ h, t = s.holdFor h) ∨ LaneFrame b s t

theorem LaneFrame.outcome {b : Bool} {s t : State} (h : LaneFrame b s t) : LaneOutcome b s (.next t) := by
  rintro _ ⟨⟩
  exact .inr (.inr h)

theorem LaneOutcome.raise (b : Bool) (s : State) (q : TrapReq) : LaneOutcome b s (.next (s.raise q)) := by
  rintro _ ⟨⟩
  exact .inl ⟨q, rfl⟩

theorem LaneOutcome.holdFor (b : Bool) (s : State) (h : Hold) : LaneOutcome b s (.next (s.holdFor h)) := by
  rintro _ ⟨⟩
  exact .inr (.inl ⟨h, rfl⟩)

/-- A slot that issues has neither trapped nor been held. -/
theorem LaneOutcome.of_issued {b : Bool} {s t : State} {a : Answer} (h : LaneOutcome b s a) (e : a = .next t)
    (ok : t.issue.status = .ok) : LaneFrame b s t := by
  obtain ⟨q, rfl⟩ | ⟨k, rfl⟩ | frame := h t e
  · cases ok
  · cases ok
  · exact frame

theorem LaneOutcome.mem {b : Bool} {s t : State} {a : Answer} (h : LaneOutcome b s a) (e : a = .next t) : t.mem = s.mem := by
  obtain ⟨q, rfl⟩ | ⟨k, rfl⟩ | frame := h t e
  · exact s.raise_mem q
  · rfl
  · exact frame.mem

theorem putS_outcome (s : State) (lat : Nat) (d : BitVec 6) (v : Word) : LaneOutcome false s (s.putS lat d v) :=
  (LaneFrame.emit false s lat _).outcome

theorem putP_outcome (s : State) (d : BitVec 3) (p : Bool) : LaneOutcome false s (s.putP d p) :=
  (LaneFrame.emit false s 1 _).outcome

theorem putV_outcome (s : State) (lat : Nat) (d : BitVec 6) (r : VResult) : LaneOutcome true s (.next (s.putV lat d r)) :=
  (LaneFrame.putV true s lat d r).outcome

theorem putF_outcome (s : State) (lat : Nat) (d : BitVec 6) (r : VResult) : LaneOutcome true s (s.putF lat d r) :=
  (((LaneFrame.putV true s lat d r).trans (.emit true _ _ _)).trans (.setGens _ _)).outcome

theorem putM_outcome (s : State) (lat : Nat) (k : BitVec 3) (r : MResult) : LaneOutcome true s (.next (s.putM lat k r)) :=
  (LaneFrame.putM true s lat k r).outcome

theorem execChks_outcome (a b : BitVec 6) (s : State) : LaneOutcome false s (execChks a b s) := by
  unfold execChks
  split
  · exact .raise false s _
  · exact (LaneFrame.refl false s).outcome

theorem execTfirst_outcome (d a : BitVec 6) (clr : Bool) (s : State) : LaneOutcome false s (execTfirst d a clr s) := by
  unfold execTfirst
  extract_lets n bit s1
  have observed : LaneFrame false s s1 := (LaneFrame.emit false s 2 _).trans (.observe false _ bit)
  cases clr
  · exact observed.outcome
  · exact (observed.trans (.clearTagsAtEnd false s1 bit)).outcome

theorem execChkv_outcome (a b : BitVec 7) (m : BitVec 3) (w : BitVec 2) (s : State) :
    LaneOutcome true s (execChkv a b m w s) := by
  have pushed : LaneOutcome true s (.next (s.pushZero 2)) := (LaneFrame.pushZero true s 2).outcome
  unfold execChkv
  extract_lets width x y on
  split
  · split
    · exact .raise true s _
    · exact pushed
  · exact pushed

theorem execAccrd_outcome (d r : BitVec 6) (off : BitVec 11) (n : BitVec 3) (s : State) :
    LaneOutcome true s (execAccrd d r off n s) := by
  unfold execAccrd
  split
  · exact .holdFor true s _
  · extract_lets x block bad s1
    have put : LaneFrame true s s1 := .putV true s 6 _ _
    split
    · exact put.outcome
    · exact ((put.trans (.emit true _ _ _)).trans (.drawFree true _)).outcome

theorem execAccwr_outcome (v r : BitVec 6) (off : BitVec 11) (n : BitVec 3) (s : State) :
    LaneOutcome true s (execAccwr v r off n s) := by
  unfold execAccwr
  split
  · exact .holdFor true s _
  · exact ((LaneFrame.pushZero true s 6).trans (.emit true _ _ _)).outcome

theorem execRed_outcome (d : BitVec 6) (a : BitVec 7) (f : BitVec 5) (r m : BitVec 3) (g : BitVec 2) (s : State) :
    LaneOutcome true s (execRed d a f r m g s) := by
  unfold execRed
  extract_lets w n x on op out fl res
  split
  · exact putF_outcome _ _ _ _
  · exact putV_outcome _ _ _ _

/-- The scalar instructions: CHKS may trap, TFIRST observes and clears tags, and all others put one result in flight. -/
theorem scalarSlot_outcome {i : Instr} (s : State) (h : i.slot = some .S) : LaneOutcome false s (exec i s) := by
  cases i <;> cases h
  case chks a b => exact execChks_outcome a b s
  case tfirst d a clr => exact execTfirst_outcome d a clr s
  case cmp | cmpi | plog | pmovSet => exact putP_outcome _ _ _
  case pmovUnpk | stset => exact (LaneFrame.emit false s 1 _).outcome
  all_goals exact putS_outcome _ _ _ _

/-- The vector instructions: CHKV may trap, those on the accumulators may be held, and all others push an entry and put
their results in flight. -/
theorem vectorSlot_outcome {i : Instr} (s : State) (h : i.slot = some .V) : LaneOutcome true s (exec i s) := by
  cases i <;> cases h
  case chkv a b m w => exact execChkv_outcome a b m w s
  case accrd d r off n => exact execAccrd_outcome d r off n s
  case accwr v r off n => exact execAccwr_outcome v r off n s
  case red d a f r m g => exact execRed_outcome d a f r m g s
  case resx => exact ((LaneFrame.putV true s 10 _ _).trans (.emit true _ _ _)).outcome
  case rngv => exact ((LaneFrame.putV true s 2 _ _).trans (.setGens _ _)).outcome
  case vext => exact ((LaneFrame.pushZero true s 4).trans (.emit true _ _ _)).outcome
  case fcmp => exact ((LaneFrame.putM true s 4 _ _).trans (.emit true _ _ _)).outcome
  case icmp | msk => exact putM_outcome _ _ _ _
  case fadd | fsub | fmul | fma | fms | fnma | fmin | fmax | fscl | cvt | mxqScale | mxqElem | rcp | rsq | exp2 | log2 | sigm |
    tanh | slc => exact putF_outcome _ _ _ _
  all_goals exact putV_outcome _ _ _ _

theorem scalarFrame : ScalarFrame := by
  intro i s t slot next ok
  have frame := (scalarSlot_outcome s slot).of_issued next ok
  exact ⟨frame.sameRegs, frame.ctx, frame.sameMemory, frame.sameScalars.pc, frame.hub, frame.homes, frame.others⟩

theorem vectorFrame : VectorFrame := by
  intro i s t slot next ok
  have frame := (vectorSlot_outcome s slot).of_issued next ok
  exact ⟨frame.sameScalars, frame.ctx, frame.sameMemory, frame.hub, frame.homes, frame.others, frame.other⟩

/-- Settles O52: an instruction of these slots that issues stays within the frame. -/
theorem laneFrames : Obligations.LaneFrames := ⟨scalarFrame, vectorFrame⟩

end Sys2Proof.Machine
end

section
/-! No instruction writes memory as it issues (R42, R203, R275): what the shared operations of the issue leave of memory, then
one case for each instruction. -/

namespace Sys2Proof.Machine

open Sys2Proof.Claims

/-! ### Operations of the state -/

theorem State.jumpTo_mem (s : State) (target : Word) {t : State} (h : t.mem = s.mem) : (s.jumpTo target t).mem = s.mem := by
  unfold State.jumpTo
  split
  · exact h
  · exact s.raise_mem _

@[simp] theorem State.freeze_mem (s : State) (w : Wait) : (s.freeze w).mem = s.mem := rfl

@[simp] theorem State.clearTagsAtEnd_mem (s : State) (mask : Word) : (s.clearTagsAtEnd mask).mem = s.mem := rfl

@[simp] theorem State.failCheck_mem (s : State) (code : Nat) (i : Instr) : (s.failCheck code i).mem = s.mem := s.raise_mem _

@[simp] theorem State.holdCube_mem (s : State) (b : Bool) : (s.holdCube b).mem = s.mem := rfl

theorem State.startSecondary_mem (s : State) (d : BitVec 6) (target : Option Word) : (s.startSecondary d target).mem = s.mem := by
  unfold State.startSecondary
  extract_lets x
  repeat' split
  all_goals simp

theorem State.atBoundary_mem (s : State) (d : BitVec 6) (level : BitVec 3) (chk : Bool) : (s.atBoundary d level chk).mem = s.mem := by
  unfold State.atBoundary
  repeat' split
  all_goals simp

/-! ### Reads and requests -/

theorem State.noteLine_mem (s : State) (l : Nat) : (s.noteLine l).mem = s.mem := by
  have mark : ∀ (t : State) (l : Nat), (t.markUe l).mem = t.mem := fun t l => by
    unfold State.markUe
    extract_lets h was s1
    split <;> rfl
  have setHestat : ∀ (t : State) (c : CoreId) (b : Nat), (t.setHestat c b).mem = t.mem := fun _ _ _ => rfl
  unfold State.noteLine
  extract_lets h s1 u s2
  have h1 : s1.mem = s.mem := by
    unfold s1
    split <;> rfl
  have h2 : s2.mem = s.mem := by
    unfold s2
    split <;> exact h1
  split
  · rw [setHestat, mark, h2]
  · exact h2

theorem State.noteWord_mem (s : State) (w : Nat) : (s.noteWord w).mem = s.mem := by
  unfold State.noteWord
  extract_lets stuck flip s1
  repeat' split
  all_goals rfl

theorem State.noteUnit_mem (s : State) (u : Nat) : (s.noteUnit u).mem = s.mem := by
  unfold State.noteUnit
  repeat' split
  all_goals simp [State.noteLine_mem, State.noteWord_mem]

/-- Reading where bytes are stored changes none of them. -/
@[simp] theorem State.noteReads_mem (s : State) (as : List Nat) : (s.noteReads as).mem = s.mem :=
  foldl_keeps (P := fun t : State => t.mem = s.mem) (fun t u h => (t.noteUnit_mem u).trans h) _ _ rfl

@[simp] theorem State.awaitLinks_mem (s : State) (c : CoreId) (id : Nat) (as : List Nat) : (s.awaitLinks c id as).mem = s.mem := by
  unfold State.awaitLinks
  extract_lets s1
  have h1 : s1.mem = s.mem := by
    unfold s1
    split <;> rfl
  split <;> exact h1

@[simp] theorem State.addOp_mem (s : State) (o : Op) : (s.addOp o).mem = s.mem := State.awaitLinks_mem ..

@[simp] theorem State.askRemote_mem (s : State) (o : Op) : (s.askRemote o).mem = s.mem :=
  foldl_keeps (P := fun t : State => t.mem = s.mem) (fun _ _ h => by exact h) _ _ rfl

@[simp] theorem State.startLoad_mem (s : State) (o : Op) : (s.startLoad o).mem = s.mem := by simp [State.startLoad]

@[simp] theorem State.startStore_mem (s : State) (o : Op) (bytes : List (Nat × Byte)) (fresh : Bool) (ia : Nat) :
    (s.startStore o bytes fresh ia).mem = s.mem := by simp [State.startStore]

@[simp] theorem State.startPage_mem (s : State) (o : Op) : (s.startPage o).mem = s.mem := by simp [State.startPage]

/-! ### The checks of an access -/

theorem State.withResidency_mem (s : State) (l : List (Nat × Word)) (z : Bool) {k : State} (h : k.mem = s.mem) :
    (s.withResidency l z k).mem = s.mem := by
  obtain e | ⟨_, _, -, -, e⟩ | ⟨_, _, -, -, e⟩ := s.withResidency_cases l z k <;> rw [e]
  · exact h
  · exact s.holdFor_mem _
  · exact s.raise_mem _

theorem State.withBank_mem (s : State) (own : Bool) (ps : List SlicePlace) (two : Bool) {k : State} (h : k.mem = s.mem) :
    (s.withBank own ps two k).mem = s.mem := by
  obtain e | e | ⟨_, -, e⟩ := s.withBank_cases own ps two k <;> rw [e]
  · split <;> exact h
  · exact s.holdFor_mem _
  · exact s.raise_mem _

theorem State.withScalar_mem (s : State) (ea : Word) (n : Nat) (kind : AccessKind) {k : Nat → BitVec 6 → State}
    (h : ∀ ia attr, (k ia attr).mem = s.mem) : (s.withScalar ea n kind k).mem = s.mem := by
  obtain ⟨-, e⟩ | ⟨-, -, e⟩ | ⟨-, ia, attr, -, e⟩ := s.withScalar_cases ea n kind k <;> rw [e]
  · exact s.raise_mem _
  · exact s.raise_mem _
  · exact s.withResidency_mem _ _ (h ia attr)

theorem State.withVector_mem (s : State) (a : VecAccess) (kind : AccessKind) (ea : Word) (query : Bool)
    {k : VecAccess → BitVec 6 → State} (h : ∀ b attr, (k b attr).mem = s.mem) : (s.withVector a kind ea query k).mem = s.mem := by
  unfold State.withVector
  extract_lets n lo
  split
  · exact s.raise_mem _
  · split
    · exact s.raise_mem _
    · extract_lets b
      split
      · exact s.withResidency_mem _ _ (h b _)
      · exact h b _

/-! ### Loads, stores, atomics and page requests -/

theorem State.ownLoad_mem (s : State) (d : BitVec 6) (ia n : Nat) (ea : Word) : (s.ownLoad d ia n ea).mem = s.mem := by
  unfold State.ownLoad
  extract_lets s1
  split <;> exact s.noteReads_mem _

theorem State.issueLoad_mem (s : State) (d base : BitVec 6) (cls : BitVec 3) (sz : BitVec 2) (off : BitVec 9) (newest : Bool) :
    (s.issueLoad d base cls sz off newest).mem = s.mem := by
  refine s.withScalar_mem _ _ _ fun ia attr => ?_
  extract_lets own
  split
  · rfl
  · split
    · rfl
    · refine s.withBank_mem _ _ _ ?_
      split
      · exact s.ownLoad_mem _ _ _ _
      · exact s.startLoad_mem _

theorem State.issueBytes_mem (s : State) (bytes : List (Nat × Byte)) (ia : Nat) (cls : BitVec 3) (attr : BitVec 6) (fresh nt : Bool)
    (ps : List SlicePlace) : (s.issueBytes bytes ia cls attr fresh nt ps).mem = s.mem := by
  unfold State.issueBytes
  extract_lets own as
  split
  · rfl
  · split
    · rfl
    · exact s.withBank_mem _ _ _ (s.startStore_mem _ _ _ _)

theorem State.issueStore_mem (s : State) (d base : BitVec 6) (cls : BitVec 3) (sz : BitVec 2) (off : BitVec 9) (fresh nt : Bool) :
    (s.issueStore d base cls sz off fresh nt).mem = s.mem :=
  s.withScalar_mem _ _ _ fun _ _ => s.issueBytes_mem _ _ _ _ _ _ _

theorem State.issueVecLoad_mem (s : State) (d : BitVec 6) (a : VecAccess) (ea : Word) (cls : BitVec 3) :
    (s.issueVecLoad d a ea cls).mem = s.mem := by
  unfold State.issueVecLoad
  split
  · split <;> rfl
  · refine s.withVector_mem _ _ _ _ fun b attr => ?_
    extract_lets ia own ps once s1 lo hi
    split
    · rfl
    · split
      · rfl
      · refine s.withBank_mem _ _ _ ?_
        split
        · exact foldl_keeps (P := fun t : State => t.mem = s.mem) (fun _ _ h => by exact h) _ _ (s.noteReads_mem _)
        · exact s.startLoad_mem _

theorem State.issueVecStore_mem (s : State) (d : BitVec 6) (a : VecAccess) (ea : Word) (cls : BitVec 3) :
    (s.issueVecStore d a ea cls).mem = s.mem := by
  unfold State.issueVecStore
  split
  · rfl
  · exact s.withVector_mem _ _ _ _ fun _ _ => s.issueBytes_mem _ _ _ _ _ _ _

theorem State.issueAtomic_mem (s : State) (d a b : BitVec 6) (k : AtomKind) (scope : BitVec 3) (w hostOk : Bool) :
    (s.issueAtomic d a b k scope w hostOk).mem = s.mem := by
  unfold State.issueAtomic
  extract_lets n ea
  split
  · exact s.raise_mem _
  · split
    · exact s.raise_mem _
    · split
      · exact s.raise_mem _
      · refine s.withResidency_mem _ _ ?_
        split
        · rfl
        · split
          · rfl
          · exact s.withBank_mem _ _ _ (by simp)

/-! ### The cube and its drains -/

theorem State.placeTile_mem (s : State) (r : TileReq) (t : TileOp) (mags : Nat × Nat) : (s.placeTile r t mags).mem = s.mem := by
  unfold State.placeTile
  extract_lets b
  repeat' split
  all_goals simp [State.enterTile]

theorem State.issueTile_mem (s : State) (r : TileReq) : (s.issueTile r).mem = s.mem := by
  have dropped : s.dropMeeting.mem = s.mem := rfl
  unfold State.issueTile
  extract_lets t
  split
  · rfl
  · split
    · exact s.failCheck_mem _ _
    · split
      · exact s.placeTile_mem _ _ _
      · split
        · rfl
        · split
          · exact (State.failCheck_mem _ _ _).trans dropped
          · split
            · exact (State.raise_mem _ _).trans dropped
            · exact s.placeTile_mem _ _ _

theorem State.issueDrain_mem (s : State) (kind : TileKind) (acc : BitVec 3) (z checks : Bool) (i : Instr) :
    (s.issueDrain kind acc z checks i).mem = s.mem := by
  unfold State.issueDrain
  repeat' split
  all_goals simp [State.addTile]

theorem State.issueStoreDrain_mem (s : State) (kind : TileKind) (acc : BitVec 3) (d : BitVec 4) (fmt r c : Nat) (adv : Bool) :
    (s.issueStoreDrain kind acc d fmt r c adv).mem = s.mem := by
  unfold State.issueStoreDrain
  extract_lets x t
  split
  · exact s.raise_mem _
  · split
    · rfl
    · show (ite (adv = true) (s.updCurCtx (fun x => x.advStream d)) s).mem = s.mem
      split <;> rfl

/-! ### Jobs and collectives -/

theorem State.enterJob_mem (s : State) (j : Job) : (s.enterJob j).mem = s.mem := by
  unfold State.enterJob
  extract_lets s1 s2
  split <;> rfl

@[simp] theorem State.issueJob_mem (s : State) (r : JobReq) : (s.issueJob r).mem = s.mem := by
  unfold State.issueJob
  extract_lets bit
  repeat' split
  all_goals simp [State.enterJob_mem]

theorem State.askStrike_mem (s : State) (group index who : Nat) (d : StrikeDesc) : (s.askStrike group index who d).mem = s.mem := by
  unfold State.askStrike
  extract_lets s1
  split <;> rfl

theorem State.askFailed_mem (s : State) (group : Nat) (d : StrikeDesc) : (s.askFailed group d).mem = s.mem := by
  unfold State.askFailed
  repeat' split
  all_goals simp [State.askStrike_mem]

theorem State.countColj_mem (s : State) (group : Nat) : (s.countColj group).mem = s.mem := rfl

/-! ### Swaps (R361, R365) -/

/-- Every step of a fold leaves memory alone, and so does the fold. -/
theorem State.foldl_mem {α : Type} {f : State → α → State} (h : ∀ t a, (f t a).mem = t.mem) (l : List α) (s : State) :
    (l.foldl f s).mem = s.mem :=
  foldl_keeps (P := fun t : State => t.mem = s.mem) (fun t a e => (h t a).trans e) l s rfl

/-- The same of a fold over numbers, said of the result u of a step so that the step stands apart from its memory. -/
theorem State.foldUp_mem {f : State → Nat → State} (h : ∀ t i u, f t i = u → u.mem = t.mem) (n : Nat) (s : State) :
    (foldUp n f s).mem = s.mem :=
  foldUp_keeps (P := fun t : State => t.mem = s.mem) (fun t i e => (h t i _ rfl).trans e) n s rfl

theorem State.landEndWrites_mem (s : State) (c : CoreId) : (s.landEndWrites c).mem = s.mem := by
  unfold State.landEndWrites
  extract_lets l s0 put s1
  have keep : ∀ b t w, (put b t w).mem = t.mem := fun b t w => by
    unfold put
    split
    · split
      · exact (State.ctlWrite_frame ..).1
      · rfl
    · split <;> rfl
    · rfl
  have h1 : s1.mem = s.mem := by
    unfold s1
    rw [State.foldl_mem (keep false), State.foldl_mem (keep true)]
    rfl
  rw [State.foldl_mem _ l s1, h1]
  intro t w
  split <;> rfl

theorem State.prepareWindow_mem (s : State) (w : Vector Word 32) (n : Fin 8) : (s.prepareWindow w n).mem = s.mem := by
  unfold State.prepareWindow
  split
  · refine State.foldUp_mem (fun t i u e => ?_) _ s
    dsimp only at e
    split at e <;> rw [← e]
    · exact State.foldUp_mem (fun _ _ _ e => by rw [← e]; rfl) _ t
    · rfl
  · rfl

theorem State.preparePointers_mem (s : State) (x : Ctx) : (s.preparePointers x).mem = s.mem :=
  State.foldl_mem (fun t n => t.prepareWindow_mem x.win n) _ s

theorem State.resumeCtx_mem (s : State) (c : CoreId) : (s.resumeCtx c).mem = s.mem := by
  unfold State.resumeCtx
  extract_lets x s1
  have h1 : s1.mem = s.mem := State.foldl_mem (fun t b => by
    extract_lets u
    have hu : u.mem = t.mem := by
      unfold u
      split <;> rfl
    split <;> exact hu) _ s
  rw [State.foldl_mem _ _ s1, h1]
  intro t w
  split <;> rfl

theorem State.swapCore_mem (s : State) (c : CoreId) : (s.swapCore c).mem = s.mem := by
  unfold State.swapCore
  extract_lets s0 k staged s1 s2 drain s3 s4
  have h1 : s1.mem = s.mem := by
    unfold s1
    split
    · rw [State.preparePointers_mem]
      exact s.landEndWrites_mem c
    · exact s.landEndWrites_mem c
  have h2 : s2.mem = s.mem := by
    unfold s2
    split <;> exact h1
  have h4 : s4.mem = s.mem := by
    unfold s4
    repeat' split
    all_goals exact h2
  split
  · rw [State.resumeCtx_mem, h4]
  · exact h4

theorem State.swapFor_mem (s : State) (c : CoreId) : (s.swapFor c).mem = s.mem := by
  unfold State.swapFor
  simp only [State.afterN_mem, State.updCore_mem, State.swapCore_mem]

theorem State.disarm_mem (s : State) (c : CoreId) : (s.disarm c).mem = s.mem :=
  ((State.ctlWrite_frame ..).1).trans (State.ctlWrite_frame ..).1

theorem State.unstage_mem (s : State) (key : Nat) : (s.unstage key).mem = s.mem := State.foldl_mem (fun _ _ => by rfl) _ s

theorem State.reconsider_mem (s : State) : s.reconsider.mem = s.mem :=
  State.foldl_mem (fun t q => by split <;> rfl) _ s

theorem State.trySwap_mem {s u : State} {t : Task} {own : Bool} (h : s.trySwap t own = some u) : u.mem = s.mem := by
  unfold State.trySwap at h
  extract_lets vs cores byYield s1 s2 s3 s4 at h
  have h1 : s1.mem = s.mem := State.foldl_mem (fun q k => State.foldl_mem (fun _ _ => by rfl) _ q) _ s
  have h2 : s2.mem = s1.mem := by
    unfold s2
    rw [State.unstage_mem, State.foldl_mem]
    intro q c
    split
    · rfl
    · exact q.swapFor_mem c
  have h3 : s3.mem = s2.mem := State.foldl_mem (fun _ _ => by rfl) _ s2
  have h4 : s4.mem = s3.mem := by
    unfold s4
    split
    · rfl
    · exact State.foldl_mem (fun _ _ => by rfl) _ s3
  split at h
  · cases h
  · obtain rfl := Option.some.inj h
    rw [State.reconsider_mem, State.updTask_mem, State.foldl_mem State.disarm_mem, h4, h3, h2, h1]

theorem State.swapAlone_mem (s : State) (c : CoreId) : (s.swapAlone c).mem = s.mem := by
  unfold State.swapAlone
  extract_lets out area s1
  show s1.mem = s.mem
  unfold s1
  split
  · exact State.swapCore_mem _ c
  · exact s.swapFor_mem c

/-! ### The instructions -/

/-- What the instruction answers has the memory of the state it issues in. -/
def LeavesMemory (s : State) (a : Answer) : Prop := ∀ t, a = .next t → t.mem = s.mem

theorem LeavesMemory.next {s t : State} (h : t.mem = s.mem) : LeavesMemory s (.next t) := by
  rintro _ ⟨⟩
  exact h

theorem execSwprep_leavesMemory (d a b : BitVec 6) (s : State) : LeavesMemory s (execSwprep d a b s) := by
  unfold execSwprep
  extract_lets va vb
  repeat' split
  all_goals
    refine .next ?_
    simp

theorem execSwap_leavesMemory (d : BitVec 6) (s : State) : LeavesMemory s (execSwap d s) := by
  unfold execSwap
  extract_lets k s1
  have h1 : s1.mem = s.mem := rfl
  split
  · exact .next (s.raise_mem _)
  · split
    · exact .next rfl
    · split
      · exact .next rfl
      · split
        · exact .next ((s1.swapCore_mem _).trans h1)
        · split
          next u swapped =>
            obtain ⟨t, -, tried⟩ := Option.bind_eq_some_iff.1 swapped
            exact .next ((State.trySwap_mem tried).trans h1)
          next => exact .next ((s1.swapAlone_mem _).trans h1)

theorem execTret_leavesMemory (s : State) : LeavesMemory s (execTret s) := by
  unfold execTret
  split
  · exact .next (s.raise_mem _)
  · split
    · exact .next (s.stopStream_mem _ _ _ _)
    · split <;> exact .next rfl

theorem execWaddr_leavesMemory (d a b n : BitVec 6) (s : State) : LeavesMemory s (execWaddr d a b n s) :=
  .next (s.withScalar_mem _ _ _ fun ia attr => by split <;> rfl)

theorem controlSlot_leavesMemory {i : Instr} (s : State) (h : i.slot = some .K) : LeavesMemory s (exec i s) := by
  cases i <;> cases h
  case nop | waitt | waitany | pmode | halt | yieldCore | range => exact .next rfl
  case br p neg off =>
    show LeavesMemory s (execBr p neg off s)
    unfold execBr
    split <;> exact .next rfl
  case call p neg off =>
    show LeavesMemory s (execCall p neg off s)
    unfold execCall
    split <;> exact .next rfl
  case ret p neg =>
    show LeavesMemory s (execRet p neg s)
    unfold execRet
    split
    · exact .next (s.jumpTo_mem _ rfl)
    · exact .next rfl
  case jind => exact .next (s.jumpTo_mem _ rfl)
  case loop level a dist =>
    show LeavesMemory s (execLoop level a dist s)
    unfold execLoop
    extract_lets pc last n old
    split <;> exact .next rfl
  case waitc ld st cp tl at_ =>
    show LeavesMemory s (execWaitc ld st cp tl at_ s)
    unfold execWaitc
    split <;> exact .next rfl
  case phase | chkpt => exact .next (s.atBoundary_mem _ _ _)
  case rel scope =>
    show LeavesMemory s (execRel scope s)
    unfold execRel
    extract_lets x f
    repeat' split
    all_goals exact .next rfl
  case acq => exact .next (State.trimLog_mem _)
  case waddr d a b n => exact execWaddr_leavesMemory d a b n s
  case strtHdr | strtReg => exact .next (s.startSecondary_mem _ _)
  case domj d a off level =>
    show LeavesMemory s (execDomj d a off level s)
    unfold execDomj
    extract_lets x
    repeat' split
    all_goals exact .next rfl
  case trap => exact .next (State.enterTrap_mem ..)
  case tret => exact execTret_leavesMemory s
  case rdctl d reg =>
    show LeavesMemory s (execRdctl d reg s)
    unfold execRdctl
    extract_lets s1
    refine .next ?_
    split <;> rfl
  case wrctl a reg =>
    show LeavesMemory s (execWrctl a reg s)
    unfold execWrctl
    split
    · exact .next (s.raise_mem _)
    · split <;> exact .next rfl
  case swprep d a b => exact execSwprep_leavesMemory d a b s
  case swap d => exact execSwap_leavesMemory d s

theorem execPgreq_leavesMemory (d a b : BitVec 6) (wr : Bool) (s : State) : LeavesMemory s (execPgreq d a b wr s) := by
  unfold execPgreq
  extract_lets va len
  split
  · refine .next ?_
    split <;> simp
  · repeat' split
    all_goals
      refine .next ?_
      simp

theorem loadStoreSlot_leavesMemory {i : Instr} (s : State) (h : i.slot = some .L) : LeavesMemory s (exec i s) := by
  cases i <;> cases h
  case ld | ldg => exact .next (s.issueLoad_mem _ _ _ _ _ _)
  case st | stg | stnt => exact .next (s.issueStore_mem _ _ _ _ _ _ _)
  case ldv | ldvs => exact .next (s.issueVecLoad_mem _ _ _ _)
  case stv | stvs => exact .next (s.issueVecStore_mem _ _ _ _)
  case atom | cas => exact .next (s.issueAtomic_mem _ _ _ _ _ _ _)
  case pgreq d a b wr => exact execPgreq_leavesMemory d a b wr s

theorem execMdrn_leavesMemory (d : BitVec 4) (a : BitVec 6) (r : BitVec 2) (ovx adv clr : Bool) (f n : BitVec 3) (s : State) :
    LeavesMemory s (execMdrn d a r ovx adv clr f n s) := by
  unfold execMdrn
  extract_lets i fmt
  split
  · exact .next (s.failCheck_mem _ _)
  · split
    · exact .next (s.failCheck_mem _ _)
    · exact .next (s.issueStoreDrain_mem _ _ _ _ _ _ _)

theorem execXfin_leavesMemory (d : BitVec 4) (a : BitVec 6) (adv clr : Bool) (s : State) :
    LeavesMemory s (execXfin d a adv clr s) := by
  unfold execXfin
  extract_lets i eo fo
  split
  · exact .next (s.failCheck_mem _ _)
  · split
    · exact .next (s.failCheck_mem _ _)
    · split
      · exact .next (s.failCheck_mem _ _)
      · exact .next (s.issueStoreDrain_mem _ _ _ _ _ _ _)

theorem execRnsdeg_leavesMemory (p : BitVec 4) (g : Bool) (s : State) : LeavesMemory s (execRnsdeg p g s) := by
  unfold execRnsdeg
  split
  · exact .next (s.raise_mem _)
  · split <;> exact .next rfl

theorem execMgang_leavesMemory (d : BitVec 6) (cfg : BitVec 2) (s : State) : LeavesMemory s (execMgang d cfg s) := by
  unfold execMgang
  extract_lets x ms
  split
  · exact .next (s.failCheck_mem _ _)
  · exact .next rfl

theorem execMstat_leavesMemory (d : BitVec 6) (clr sel : Bool) (s : State) : LeavesMemory s (execMstat d clr sel s) := by
  unfold execMstat
  extract_lets x s1
  refine .next ?_
  split <;> rfl

theorem cubeSlot_leavesMemory {i : Instr} (s : State) (h : i.slot = some .M) : LeavesMemory s (exec i s) := by
  cases i <;> cases h
  case mma | mmaHold | mmz | mmi | xdot => exact .next (s.issueTile_mem _)
  case rnsx | rnschk => exact .next (s.issueDrain_mem _ _ _ _ _)
  case mdrn d a r ovx adv clr f n => exact execMdrn_leavesMemory d a r ovx adv clr f n s
  case xfin d a adv clr => exact execXfin_leavesMemory d a adv clr s
  case rnsdeg p g => exact execRnsdeg_leavesMemory p g s
  case mgang d cfg => exact execMgang_leavesMemory d cfg s
  case mstat d clr sel => exact execMstat_leavesMemory d clr sel s
  case mholdRel | mholdChk | morgAdv | morgRd => exact .next rfl

theorem execColj_leavesMemory (t sg : BitVec 6) (span nt : Bool) (op cls : BitVec 3) (s : State) :
    LeavesMemory s (execColj t sg span nt op cls s) := by
  unfold execColj
  extract_lets x w v n group fmt red root k addr desc known e
  clear_value known
  have counted := s.countColj_mem group
  split
  · refine .next ?_
    rw [State.issueJob_mem, State.countColj_mem, State.askFailed_mem]
  · split
    · exact .next (s.issueJob_mem _)
    · extract_lets p bad sz src dst fail
      have failed : ∀ status, (fail status).mem = s.mem := fun status => by
        unfold fail
        rw [State.issueJob_mem, State.askStrike_mem, counted]
      clear_value src dst
      split
      · exact .next (failed 4)
      · split
        · split
          · exact .next (failed 4)
          · refine .next ?_
            rw [State.issueJob_mem, State.askStrike_mem, counted]
        · exact .next (failed 1)

theorem execCanj_leavesMemory (d tag : BitVec 6) (s : State) : LeavesMemory s (execCanj d tag s) := by
  unfold execCanj
  split <;> exact .next rfl

theorem copySlot_leavesMemory {i : Instr} (s : State) (h : i.slot = some .C) : LeavesMemory s (exec i s) := by
  cases i <;> cases h
  case cpy | cpyd | cpys | ctab | ego => exact .next (s.issueJob_mem _)
  case ewr | tclr => exact .next rfl
  case colj t sg span nt op cls => exact execColj_leavesMemory t sg span nt op cls s
  case canj d tag => exact execCanj_leavesMemory d tag s

theorem exec_leavesMemory {i : Instr} {c : SlotClass} (s : State) (h : i.slot = some c) : LeavesMemory s (exec i s) := by
  cases c with
  | K => exact controlSlot_leavesMemory s h
  | S => exact fun t e => (scalarSlot_outcome s h).mem e
  | L => exact loadStoreSlot_leavesMemory s h
  | V => exact fun t e => (vectorSlot_outcome s h).mem e
  | M => exact cubeSlot_leavesMemory s h
  | C => exact copySlot_leavesMemory s h

/-- Settles O32, class by class: each instruction answers a state with the memory it issued in. -/
theorem issueLeavesMemory : Obligations.IssueLeavesMemory := by
  intro i s t slot next a
  obtain ⟨c, h⟩ := Option.isSome_iff_exists.1 slot
  rw [exec_leavesMemory s h t next]

end Sys2Proof.Machine
end

section
/-! Traps as they are taken, and the streams that they stop (R345 to R355). -/

namespace Sys2Proof.Machine

open Sys2Proof.Claims

/-! ### Entry of a handler -/

/-- A stream that takes traps enters its handler: its due results land first (R347, R353). -/
theorem State.enterTrap_of_handles (s : State) (c : CoreId) (b : Bool) (q : TrapReq) (p : BitVec 59) (df wt : Bool)
    (code : BitVec 14) (T : Nat) (h : Handles (s.stream c b)) :
    (s.enterTrap c b q p df wt code T).stream c b = (((s.ctx c).landUpTo b T).stream b).enter q p df wt code T := by
  obtain ⟨hnd, tvec⟩ := h
  rcases s.enterTrap_cases c b q p df wt code T with ⟨stops, _⟩ | ⟨_, _, enters, _⟩
  · rw [hnd, tvec] at stops
    simp at stops
  · exact enters

/-- The fields of ctl.tcause side by side are the fields put together (R351). -/
theorem tcause_append (code : BitVec 14) (flags : BitVec 2) (cause : BitVec 8) :
    (((0#40 ++ code) ++ (flags ++ cause) : BitVec (54 + 10)) : Word) =
      cause.setWidth 64 ||| (flags.setWidth 64 <<< 8 ||| code.setWidth 64 <<< 10) := by
  apply BitVec.eq_of_getLsbD_eq
  intro i hi
  simp only [BitVec.getLsbD_or, BitVec.getLsbD_append, BitVec.getLsbD_setWidth, BitVec.getLsbD_shiftLeft, BitVec.getLsbD_zero]
  have wide : i < 64 := hi
  rcases lt_or_ge i 8 with h | h
  · simp [h, wide, show i < 10 by omega]
  · rw [cause.getLsbD_of_ge i h]
    rcases lt_or_ge i 10 with k | k
    · simp [k, wide, show ¬ i < 8 by omega, show i - 8 < 64 by omega]
    · rw [flags.getLsbD_of_ge (i - 8) (by omega)]
      simpa [wide, show ¬ i < 8 by omega, show ¬ i < 10 by omega, show i - 10 < 64 by omega] using
        fun h => BitVec.lt_of_getLsbD h
/-- The fields of ctl.tcause as EnterTrap writes them (R351). -/
theorem tcause_fields (df wt : Bool) (cause : BitVec 8) (code : BitVec 14) :
    (((0#40 ++ code) ++ (BitVec.ofBool df ++ BitVec.ofBool wt ++ cause) : BitVec (54 + 10)) : Word) =
      cause.setWidth 64 ||| (if df then 0x200 else 0) ||| (if wt then 0x100 else 0) ||| code.setWidth 64 <<< 10 := by
  have flags : (BitVec.ofBool df ++ BitVec.ofBool wt : BitVec 2).setWidth 64 <<< 8 =
      (((if df then 0x200 else 0 : ℕ) : Word) ||| ((if wt then 0x100 else 0 : ℕ) : Word)) := by
    cases df <;> cases wt <;> rfl
  rw [tcause_append, flags, BitVec.or_assoc, BitVec.or_assoc, BitVec.or_assoc]

/-- What a stream that took a trap has become, whatever results landed as it did. -/
theorem entered_of_landed {x y : Stream} (h : x.Landed y) (q : TrapReq) (p : BitVec 59) (df wt : Bool) (code : BitVec 14)
    (T : Nat) :
    Entered x (y.enter q p df wt code T) p q.cause q.tval df wt code := by
  obtain ⟨s, p, r, rh, br, ff, fr, pd, bs, bp, rfl⟩ := h
  exact ⟨rfl, rfl, tcause_fields df wt q.cause code, rfl, rfl, rfl, ⟨rfl, rfl⟩, rfl, rfl, rfl, rfl⟩

/-- Only a stream's ctl.stat and ctl.tvec matter to the handler that it enters. -/
theorem entered_congr {x x' y : Stream} {p : BitVec 59} {cause : BitVec 8} {tval : Word} {df wt : Bool} {code : BitVec 14}
    (h : Entered x y p cause tval df wt code) (stat : x'.stat = x.stat) (tvec : x'.tvec = x.tvec) :
    Entered x' y p cause tval df wt code :=
  { h with tstat := by rw [stat, h.tstat], stat := by rw [stat, h.stat], handler := by rw [tvec]; exact h.handler }

/-- A trap that a stream takes enters its handler. -/
theorem State.entered_enterTrap (s : State) (c : CoreId) (b : Bool) (q : TrapReq) (p : BitVec 59) (df wt : Bool)
    (code : BitVec 14) (T : Nat) (h : Handles (s.stream c b)) :
    Entered (s.stream c b) ((s.enterTrap c b q p df wt code T).stream c b) p q.cause q.tval df wt code := by
  rw [s.enterTrap_of_handles c b q p df wt code T h]
  exact entered_congr (entered_of_landed ((s.ctx c).landed_landUpTo b T) q p df wt code T) rfl rfl

/-- A trap of a stream that waits on counters keeps the wait (R352). -/
theorem State.savedWait_enterTrap (s : State) (c : CoreId) (b : Bool) (q : TrapReq) (p : BitVec 59) (df : Bool)
    (code : BitVec 14) (T : Nat) (h : Handles (s.stream c b)) :
    ((s.enterTrap c b q p df true code T).stream c b).savedWait = (s.stream c b).wait := by
  rw [s.enterTrap_of_handles c b q p df true code T h]
  obtain ⟨_, _, _, _, _, _, _, _, _, _, e⟩ := (s.ctx c).landed_landUpTo b T
  rw [e]
  rfl

/-- A stream that is stopped keeps its cause and the address of its bundle, and its trap registers (R354). -/
theorem State.stream_stopStream (s : State) (c : CoreId) (b : Bool) (q : TrapReq) (p : BitVec 59) :
    (s.stopStream c b q p).stream c b = { s.stream c b with live := false, stopped := some q, stopAt := p ++ 0#5, hold := .none,
                                                            wait := .none, asking := none, answers := [] } := by
  unfold State.stopStream
  extract_lets x k cause back s1 s2
  have stopped : s2.stream c b = s1.stream c b := by
    unfold s2
    split <;> rfl
  exact stopped.trans (State.stream_updStream s c b _)

@[simp] theorem State.stopStream_issue (s : State) (c : CoreId) (b : Bool) (q : TrapReq) (p : BitVec 59) :
    (s.stopStream c b q p).issue = s.issue := by
  unfold State.stopStream
  extract_lets x k cause back s1 s2
  show s2.issue = s.issue
  unfold s2
  split <;> rfl

@[simp] theorem State.enterTrap_issue (s : State) (c : CoreId) (b : Bool) (q : TrapReq) (p : BitVec 59) (df wt : Bool)
    (code : BitVec 14) (T : Nat) : (s.enterTrap c b q p df wt code T).issue = s.issue := by
  unfold State.enterTrap
  extract_lets x
  split
  · exact s.stopStream_issue c b q p
  · rfl

/-- A trap that the issuing stream takes enters its handler. -/
theorem State.entered_cur (s : State) (q : TrapReq) (p : BitVec 59) (df wt : Bool) (code : BitVec 14) (T : Nat)
    (h : Handles s.cur) :
    Entered s.cur (s.enterTrap s.issue.core s.issue.sec q p df wt code T).cur p q.cause q.tval df wt code := by
  have entered := s.entered_enterTrap s.issue.core s.issue.sec q p df wt code T h
  rw [State.cur, State.cur, State.enterTrap_issue]
  exact entered

/-- An immediate trap at the issuing bundle is taken precisely there (R345). -/
theorem State.trapTaken_raise (s : State) (h : Handles s.cur) (q : TrapReq) : TrapTaken s (s.raise q) q.cause q.tval :=
  ⟨s.raise_status q, s.entered_cur q s.cur.pc false false 0 s.cur.sc h, fun a => by rw [s.raise_mem]⟩

/-! ### Streams as the fetch leaves them -/

/-- Nothing of the streams of a state differs, nor a state of a shadow bank or a hold for a merge, and nothing of memory. -/
structure State.SameStreams (s t : State) : Prop where
  streams : ∀ c b, t.stream c b = s.stream c b
  banks : ∀ c, (t.core c).bank = (s.core c).bank
  merges : ∀ c, (t.core c).primHeld = (s.core c).primHeld
  mem : t.mem = s.mem

theorem State.SameStreams.trans {s t u : State} (h : s.SameStreams t) (k : t.SameStreams u) : s.SameStreams u :=
  ⟨fun c b => (k.streams c b).trans (h.streams c b), fun c => (k.banks c).trans (h.banks c),
    fun c => (k.merges c).trans (h.merges c), k.mem.trans h.mem⟩

theorem State.SameStreams.of_core {s t : State} (h : ∀ c, (t.core c).ctx = (s.core c).ctx ∧ (t.core c).bank = (s.core c).bank ∧
    (t.core c).primHeld = (s.core c).primHeld) (mem : t.mem = s.mem) : s.SameStreams t :=
  ⟨fun c b => congrArg (Ctx.stream · b) (h c).1, fun c => (h c).2.1, fun c => (h c).2.2, mem⟩

/-- Counters and records of a core are no part of its streams. -/
theorem State.SameStreams.updCore (s : State) (c : CoreId) {f : Core → Core}
    (h : ∀ k, (f k).ctx = k.ctx ∧ (f k).bank = k.bank ∧ (f k).primHeld = k.primHeld) : s.SameStreams (s.updCore c f) := by
  refine .of_core (fun k => ?_) rfl
  by_cases e : k = c
  · subst e
    rw [State.core_updCore]
    exact h _
  · rw [State.core_updCore_ne s f e]
    exact ⟨rfl, rfl, rfl⟩

theorem State.noteLine_cores (s : State) (l : Nat) : (s.noteLine l).cores = s.cores := by
  have mark : ∀ (t : State) (l : Nat), (t.markUe l).cores = t.cores := fun t l => by
    unfold State.markUe
    extract_lets h was s1
    split <;> rfl
  have setHestat : ∀ (t : State) (c : CoreId) (b : Nat), (t.setHestat c b).cores = t.cores := fun _ _ _ => rfl
  unfold State.noteLine
  extract_lets h s1 u s2
  have h1 : s1.cores = s.cores := by
    unfold s1
    split <;> rfl
  have h2 : s2.cores = s.cores := by
    unfold s2
    split <;> exact h1
  split
  · rw [setHestat, mark, h2]
  · exact h2

theorem State.SameStreams.of_cores {s t : State} (h : t.cores = s.cores) (k : t.mem = s.mem) : s.SameStreams t :=
  .of_core (fun c => by unfold State.core; rw [h]; exact ⟨rfl, rfl, rfl⟩) k

theorem State.SameStreams.noteWord (s : State) (w : Nat) : s.SameStreams (s.noteWord w) := by
  unfold State.noteWord
  extract_lets stuck flip s1
  have h1 : s.SameStreams s1 := .updCore s _ (fun _ => ⟨rfl, rfl, rfl⟩)
  repeat' split
  · exact .of_cores rfl rfl
  · exact .of_cores rfl rfl
  · exact h1.trans (.of_cores rfl rfl)
  · exact .updCore s _ (fun _ => ⟨rfl, rfl, rfl⟩)
  · exact .of_cores rfl rfl

theorem State.SameStreams.noteUnit (s : State) (u : Nat) : s.SameStreams (s.noteUnit u) := by
  have line : s.SameStreams (s.noteLine u) := .of_cores (s.noteLine_cores u) (s.noteLine_mem u)
  unfold State.noteUnit
  split
  · exact line
  · exact line
  · exact .noteWord s u
  · split
    · exact line
    · exact .of_cores rfl rfl

theorem State.SameStreams.noteReads (s : State) (as : List Nat) : s.SameStreams (s.noteReads as) :=
  foldl_keeps (P := fun t : State => s.SameStreams t) (fun t u h => h.trans (.noteUnit t u)) _ _ (.of_cores rfl rfl)

theorem State.SameStreams.cacheTouch (s : State) (h : CoreId) (ia : Nat) (nt : Bool) : s.SameStreams (s.cacheTouch h ia nt) := by
  unfold State.cacheTouch
  extract_lets a s1
  have h1 : s.SameStreams s1 := by
    unfold s1 State.noteWalk
    repeat' split
    all_goals exact .of_cores rfl rfl
  repeat' split
  · exact h1
  · exact h1.trans (.of_cores rfl rfl)
  · exact h1
  · exact .of_cores rfl rfl

/-- Reading the line of a bundle changes no stream and no byte (R71 to R73). -/
theorem State.SameStreams.fetchRead (s : State) (c : CoreId) (b : Bool) : s.SameStreams (s.fetchRead c b) := by
  unfold State.fetchRead
  repeat' split
  · exact (State.SameStreams.noteReads s _).trans (.cacheTouch _ _ _ _)
  · exact .of_cores rfl rfl
  · exact .of_cores rfl rfl

/-! ### The traps of the program and of its fetch -/

theorem Stream.setLoops_stat (x : Stream) (l : LoopSet) : (x.setLoops l).stat = x.stat := by
  unfold Stream.setLoops
  split <;> rfl

theorem Stream.setLoops_tvec (x : Stream) (l : LoopSet) : (x.setLoops l).tvec = x.tvec := by
  unfold Stream.setLoops
  split <;> rfl

theorem Stream.advance_stat (x : Stream) : x.advance.stat = x.stat := x.setLoops_stat _

theorem Stream.advance_tvec (x : Stream) : x.advance.tvec = x.tvec := x.setLoops_tvec _

theorem handles_congr {x y : Stream} (stat : y.stat = x.stat) (tvec : y.tvec = x.tvec) (h : Handles x) : Handles y :=
  ⟨by rw [Stream.hnd, stat]; exact h.1, by rw [tvec]; exact h.2⟩

/-- TRAP is taken at the bundle that follows its own (R345, R355). -/
theorem trap_taken (s : State) (a : BitVec 6) (code : BitVec 14) (h : Handles s.cur) :
    ∃ t, exec (.trap a code) s = .next t ∧ t.issue.status = .software { cause := 0x0B, tval := s.cur.rs a } code ∧
      Entered s.cur t.cur (s.cur.curLoops.next s.cur.pc).2 0x0B (s.cur.rs a) false false code ∧ SameMemory s t := by
  have advanced : (s.updCur Stream.advance).cur = s.cur.advance := s.cur_updCur _
  have handles : Handles (s.updCur Stream.advance).cur := by
    rw [advanced]
    exact handles_congr s.cur.advance_stat s.cur.advance_tvec h
  have entered := (s.updCur Stream.advance).entered_cur { cause := 0x0B, tval := s.cur.rs a }
    (s.updCur Stream.advance).cur.pc false false code (s.updCur Stream.advance).cur.sc handles
  have place : (s.updCur Stream.advance).cur.pc = (s.cur.curLoops.next s.cur.pc).2 := by rw [advanced]; rfl
  refine ⟨_, rfl, rfl, ?_, fun x => ?_⟩
  · refine entered_congr (x := (s.updCur Stream.advance).cur) (place ▸ entered) ?_ ?_
    · rw [advanced, Stream.advance_stat]
    · rw [advanced, Stream.advance_tvec]
  · show Memory.get (State.enterTrap ..).mem x = _
    rw [State.enterTrap_mem]
    rfl

/-- An illegal encoding names its word and slot (R23). -/
theorem illegalWord_eq (word : SlotWord) (slot : BitVec 3) : (word ++ (0#29 ++ slot) : Word) = word ++ slot.setWidth 32 := by
  rw [show 0#29 ++ slot = slot.setWidth 32 from (BitVec.setWidth_eq_append (by omega)).symm]

theorem fetchFault_taken (s : State) (c : CoreId) (sec : Bool) (q : TrapReq) (live : (s.stream c sec).live = true)
    (h : Handles (s.stream c sec)) (fault : (s.fetchRead c sec).fetch c sec = .fault q) :
    ∃ t, exec (.instructionFetchFault c sec) s = .next t ∧
      Entered (s.stream c sec) (t.stream c sec) (s.stream c sec).pc q.cause q.tval false false 0 ∧ SameMemory s t := by
  have taken : exec (.instructionFetchFault c sec) s = .next ((s.fetchRead c sec).trapAt c sec q) := by
    show execInstructionFetchFault c sec s = _
    unfold execInstructionFetchFault
    simp [live, fault]
  obtain ⟨streams, _, _, mem⟩ := State.SameStreams.fetchRead s c sec
  refine ⟨_, taken, ?_, fun a => ?_⟩
  · have entered := (s.fetchRead c sec).entered_enterTrap c sec q ((s.fetchRead c sec).stream c sec).pc false false 0
      ((s.fetchRead c sec).stream c sec).sc (by rw [streams]; exact h)
    rw [State.trapAt, State.stream_setStatus]
    rwa [streams] at entered ⊢
  · show Memory.get (State.enterTrap ..).mem a = _
    rw [State.enterTrap_mem, mem]

/-- A pending trap is taken where it finds its stream (R345, R352). -/
theorem deferred_taken (s : State) (c : CoreId) (sec : Bool) (q : TrapReq) (r : List TrapReq) (h : Handles (s.stream c sec))
    (pending : (s.stream c sec).pending = q :: r) {p : BitVec 59} {wt : Bool} {T : Nat}
    (place : (s.stream c sec).trapPlace (s.copyingOf c ≠ 0) = some (p, wt, T)) :
    ∃ t, exec (.deferredTrapTake c sec) s = .next t ∧
      Entered (s.stream c sec) (t.stream c sec) p q.cause q.tval true wt 0 ∧
      (wt = true → (t.stream c sec).savedWait = (s.stream c sec).wait) ∧ SameMemory s t := by
  have taken : exec (.deferredTrapTake c sec) s =
      .next ((s.updStream c sec (fun x => { x with pending := r })).enterTrap c sec q p true wt 0 T) := by
    show execDeferredTrapTake c sec s = _
    unfold execDeferredTrapTake
    rw [place, pending]
  have rest : (s.updStream c sec (fun x => { x with pending := r })).stream c sec = { s.stream c sec with pending := r } :=
    s.stream_updStream c sec _
  have handles : Handles ((s.updStream c sec (fun x => { x with pending := r })).stream c sec) := by
    rw [rest]
    exact handles_congr rfl rfl h
  refine ⟨_, taken, ?_, ?_, fun a => ?_⟩
  · refine entered_congr (State.entered_enterTrap _ c sec q p true wt 0 T handles) ?_ ?_
    · rw [rest]
    · rw [rest]
  · rintro rfl
    rw [State.savedWait_enterTrap _ c sec q p true 0 T handles, rest]
  · rw [State.enterTrap_mem]
    rfl

theorem trapsAreTaken : TrapsAreTaken := by
  refine ⟨trap_taken, fun s slot word h => ⟨_, rfl, ?_⟩, fetchFault_taken,
    fun s c sec q r live h pending hold idle asking => ⟨fun wait => ?_, fun ld st cp tl at_ wait => ?_⟩⟩
  · rw [← illegalWord_eq]
    exact s.trapTaken_raise h _
  · have place : (s.stream c sec).trapPlace (s.copyingOf c ≠ 0) = some ((s.stream c sec).pc, false, (s.stream c sec).sc) := by
      simp [Stream.trapPlace, live, pending, h.1, hold, idle, asking, wait]
    obtain ⟨t, run, entered, _, mem⟩ := deferred_taken s c sec q r h pending place
    exact ⟨t, run, entered, mem⟩
  · have place : (s.stream c sec).trapPlace (s.copyingOf c ≠ 0) = some ((s.stream c sec).ipc, true, (s.stream c sec).sc - 1) := by
      simp [Stream.trapPlace, live, pending, h.1, idle, asking, wait]
    obtain ⟨t, run, entered, saved, mem⟩ := deferred_taken s c sec q r h pending place
    exact ⟨t, run, entered, saved rfl, mem⟩

/-! ### A stream that a trap stops -/

/-- The value at the least key of a table after it is written. -/
theorem tget_tput_zero {β : Type} [DecidableEq β] {d v : β} (h : v ≠ d) (t : Table β) : tget d (tput d t 0 v) 0 = v := by
  cases t with
  | nil => simp [tput, tget, h]
  | cons p r =>
    obtain ⟨k, w⟩ := p
    rcases Nat.eq_zero_or_pos k with rfl | pos
    · simp [tput, tget, h]
    · simp [tput, tget, h, pos]

theorem State.underWay_after (s : State) (i : Instr) : UnderWay (s.after i) i :=
  ⟨_, List.mem_append_right _ List.mem_cons_self, Nat.lt_add_of_pos_right (Nat.lt_of_lt_of_le Nat.one_pos (Nat.le_max_left ..))⟩

/-- The firmware is told to end the task of a stopped stream, or to roll it back (R354, R374). -/
theorem State.underWay_stopStream (s : State) (c : CoreId) (b : Bool) (q : TrapReq) (p : BitVec 59) :
    UnderWay (s.stopStream c b q p) (.rollback (s.ctx c).task) ∨
      UnderWay (s.stopStream c b q p) (.taskEnd (s.ctx c).task q.cause.toNat c b) := by
  unfold State.stopStream
  extract_lets x k cause back s1 s2
  split
  · exact .inl (s2.underWay_after _)
  · exact .inr (s2.underWay_after _)

/-- A double trap raises vector 0 (R81, R354). -/
theorem State.msix_stopStream (s : State) (c : CoreId) (b : Bool) (q : TrapReq) (p : BitVec 59) (h : (s.stream c b).hnd = true) :
    tget 0 (s.stopStream c b q p).hub.msix 0 = tget 0 s.hub.msix 0 + 1 := by
  unfold State.stopStream
  extract_lets x k cause back s1 s2
  show tget 0 s2.hub.msix 0 = _
  have raised : s2 = s1.msix 0 := if_pos h
  rw [raised]
  exact tget_tput_zero (Nat.succ_ne_zero _) _

theorem State.enterTrap_of_stops (s : State) (c : CoreId) (b : Bool) (q : TrapReq) (p : BitVec 59) (df wt : Bool)
    (code : BitVec 14) (T : Nat) (h : (s.stream c b).hnd = true ∨ (s.stream c b).tvec.getLsbD 0 = false) :
    s.enterTrap c b q p df wt code T = s.stopStream c b q p := by
  unfold State.enterTrap
  exact if_pos (by rcases h with e | e <;> rw [e] <;> simp)

theorem doubleTrapStops : DoubleTrapStops := by
  intro s slot word h
  have stops : exec (.illegalEncoding slot word) s =
      .next ((s.stopStream s.issue.core s.issue.sec { cause := 0x01, tval := word ++ slot.setWidth 32 } s.cur.pc).setStatus
        (.trapped { cause := 0x01, tval := word ++ slot.setWidth 32 })) := by
    rw [← illegalWord_eq]
    show Host.Outcome.next (State.raise _ _) = _
    rw [State.raise, s.enterTrap_of_stops _ _ _ _ _ _ _ _ h]
  refine ⟨_, stops, ?_⟩
  have cur := s.stream_stopStream s.issue.core s.issue.sec { cause := 0x01, tval := word ++ slot.setWidth 32 } s.cur.pc
  rw [State.cur_setStatus, State.cur, State.stopStream_issue, cur]
  exact ⟨rfl, rfl, rfl, rfl, rfl, rfl, rfl, fun a => congrArg (Memory.get · a) (s.stopStream_mem ..),
    s.underWay_stopStream .., s.msix_stopStream _ _ _ _⟩

/-- Settles O40, from the entry of a handler, and from the stream that cannot enter one. -/
theorem trapsAndDoubleTraps : Obligations.TrapsAndDoubleTraps := ⟨trapsAreTaken, doubleTrapStops⟩

end Sys2Proof.Machine

end

section
/-! Control transfers (R181 to R183). -/

namespace Sys2Proof.Machine

open Sys2Proof.Claims

/-- A register holds a multiple of 32 exactly when its five low bits are zero (R182). -/
theorem aligned_iff (v : Word) : v.extractLsb' 0 5 = 0 ↔ v.toNat % 32 = 0 := by
  rw [BitVec.toNat_eq]
  simp [BitVec.extractLsb'_toNat]

/-- A change of the issuing stream is none of the context's registers. -/
theorem State.sameCtx_updCur (s : State) (f : Stream → Stream) : SameCtx s.curCtx (s.updCur f).curCtx := by
  have ctx : (s.updCur f).curCtx = s.curCtx.updStream s.issue.sec f := s.ctx_updCtx s.issue.core _
  rw [ctx]
  exact .updStream_only _ _ _

/-- Where a stream goes on, what it waits for and its work in flight are none of its registers. -/
theorem sameRegs_control (x : Stream) (pc : BitVec 59) (idle : Nat) (w : Wait) (flight : List Landing) :
    SameRegs x { x with pc := pc, idle := idle, wait := w, inflight := flight } :=
  ⟨fun _ => rfl, fun _ => rfl, rfl, rfl, rfl, rfl, rfl, ⟨rfl, rfl, rfl, rfl, rfl⟩, rfl⟩

theorem transfers_transfer (s : State) (target : BitVec 59) : Transfers s (s.transfer target) target [] := by
  have cur := s.cur_transfer target
  refine { pc := ?_, idle := ?_, made := rfl, links := ?_, loops := ?_, regs := ?_, ctx := s.sameCtx_updCur _,
           memory := fun _ => rfl }
  all_goals rw [cur]
  · exact (List.append_nil _).symm
  · exact ⟨rfl, rfl⟩
  · exact sameRegs_control s.cur target 2 s.cur.wait s.cur.inflight

/-- A link is in flight as the transfer is made (R183). -/
theorem transfers_emit (s : State) (target : BitVec 59) (n : Nat) (d : Dest) :
    Transfers s ((s.emit n d).transfer target) target [{ due := s.cur.sc + n, dest := d }] := by
  obtain ⟨pc, idle, made, links, loops, regs, ctx, memory⟩ := transfers_transfer (s.emit n d) target
  have frame := LaneFrame.emit false s n d
  rw [State.cur_emit] at links loops regs
  refine ⟨pc, idle, made, links.trans (List.append_nil _), loops, ?_, frame.ctx.trans ctx, fun a => memory a⟩
  exact ⟨regs.scalars, regs.preds, regs.ring, regs.stat, regs.fflags, regs.seed, regs.gens, regs.traps, regs.counts⟩

/-- A transfer to an aligned address of a register. -/
theorem State.jumpTo_of_aligned (s : State) {v : Word} (h : v.toNat % 32 = 0) (t : State) :
    s.jumpTo v t = t.transfer (v.extractLsb' 5 59) := if_pos ((aligned_iff v).2 h)

theorem State.jumpTo_of_misaligned (s : State) {v : Word} (h : v.toNat % 32 ≠ 0) (t : State) :
    s.jumpTo v t = s.raise { cause := 0x05, tval := v } := if_neg (mt (aligned_iff v).1 h)

/-- A predicate that does not hold leaves BR, CALL and RET without effect. -/
theorem untaken (s : State) (p : BitVec 3) (neg : Bool) (off : BitVec 22) (h : (s.cur.rp p ^^ neg) = false) :
    Nothing (.br p neg off) s ∧ Nothing (.call p neg off) s ∧ Nothing (.ret p neg) s := by
  have no : ¬ (s.cur.rp p ^^ neg) = true := by simp [h]
  exact ⟨if_neg no, if_neg no, if_neg no⟩

/-- Settles O11, from what a transfer leaves and from the trap of a misaligned target. -/
theorem branches : Obligations.Branches := by
  intro s p neg off d a link target
  refine ⟨rfl, untaken s p neg off, fun taken => ⟨⟨_, if_pos taken, transfers_transfer s target⟩,
    ⟨_, if_pos taken, transfers_emit s target 1 _⟩, fun aligned => ⟨_, if_pos taken, ?_⟩, fun off h => ⟨_, if_pos taken, ?_⟩⟩,
    fun aligned => ⟨_, rfl, ?_⟩, fun off h => ⟨_, rfl, ?_⟩⟩
  · rw [s.jumpTo_of_aligned aligned]
    exact transfers_transfer s _
  · rw [s.jumpTo_of_misaligned off]
    exact s.trapTaken_raise h _
  · rw [s.jumpTo_of_aligned aligned]
    exact transfers_emit s _ 2 _
  · rw [s.jumpTo_of_misaligned off]
    exact s.trapTaken_raise h _

end Sys2Proof.Machine

end

section
/-! The reads and writes of the control registers (R163, R356). -/

namespace Sys2Proof.Machine

open Sys2Proof.Claims

/-! ### What a read returns -/

/-- A field of four bits, shifted to its place, is read back there and is zero elsewhere. -/
theorem extractLsb'_shifted (v : BitVec 4) (n j : Nat) (hn : n < 16) :
    (v.setWidth 64 <<< (4 * n)).extractLsb' (4 * j) 4 = if j = n then v else 0 := by
  apply BitVec.eq_of_getLsbD_eq
  intro i hi
  rw [BitVec.getLsbD_extractLsb', BitVec.getLsbD_shiftLeft, BitVec.getLsbD_setWidth]
  rcases Nat.lt_trichotomy j n with lt | rfl | gt
  · simp [lt.ne, show 4 * j + i < 4 * n by omega]
  · simp [hi, show 4 * j + i < 64 by omega, show i < 64 by omega]
  · simp [gt.ne', v.getLsbD_of_ge (4 * j + i - 4 * n) (by omega)]

/-- Fields of four bits put together one after another are each read back. -/
theorem extractLsb'_foldUp_or (f : Nat → BitVec 4) (n j : Nat) (hn : n ≤ 16) :
    (foldUp n (fun (w : Word) i => w ||| ((f i).setWidth 64 <<< (4 * i))) 0).extractLsb' (4 * j) 4 =
      if j < n then f j else 0 := by
  induction n with
  | zero => simp [foldUp]
  | succ n ih =>
    rw [foldUp, BitVec.extractLsb'_or, ih (by omega), extractLsb'_shifted (f n) n j (by omega)]
    rcases Nat.lt_trichotomy j n with lt | rfl | gt
    · simp [lt, lt.ne, Nat.lt_succ_of_lt lt]
    · simp
    · simp [gt.ne', show ¬ j < n by omega, show ¬ j < n + 1 by omega]

theorem Ctx.extractLsb'_cpst (x : Ctx) (q : Fin 4) (j : Fin 16) (h : 16 * q.val + j.val < 64) :
    (x.cpst q.val).extractLsb' (4 * j.val) 4 = x.tagStatus[16 * q.val + j.val] := by
  have field := extractLsb'_foldUp_or (fun i => x.tagStatus.toList.getD (16 * q.val + i) 0) 16 j.val (by omega)
  rw [if_pos j.isLt] at field
  refine field.trans ?_
  simp [List.getD, h]

theorem Core.ctlRead_window (k : Core) (sec : Bool) (n : Fin 32) : k.ctlRead sec (0x100 + n.val) = k.ctx.win[n] := by
  have above : ∀ m, m < 0x100 → 0x100 + n.val ≠ m := fun m h => by omega
  have window : 0x100 ≤ 0x100 + n.val ∧ 0x100 + n.val ≤ 0x11F := by omega
  unfold Core.ctlRead
  simp (disch := omega) only [above, if_false]
  rw [if_neg (by omega), dif_pos window]
  simp

theorem Core.ctlRead_status (k : Core) (sec : Bool) (q : Fin 4) : k.ctlRead sec (0x0C4 + q.val) = k.ctx.cpst q.val := by
  have above : ∀ m, m < 0x0C4 → 0x0C4 + q.val ≠ m := fun m h => by omega
  have status : 0x0C4 ≤ 0x0C4 + q.val ∧ 0x0C4 + q.val ≤ 0x0C7 := by omega
  unfold Core.ctlRead
  simp (disch := omega) only [above, if_false]
  rw [if_pos status]
  simp

/-! ### RDCTL -/

/-- A read of any register but ctl.tags writes what the register holds as the bundle issues. -/
theorem writes_rdctl (s : State) (d : BitVec 6) {n : BitVec 12} (h : n ≠ 0x0C0) {v : Word}
    (value : s.curCore.ctlRead s.issue.sec n.toNat = v) : Writes (.rdctl d n) s 2 d v := by
  subst value
  show execRdctl d n s = _
  unfold execRdctl
  extract_lets s1
  rw [if_neg h]
  rfl

theorem Ctx.inflight_observe (x : Ctx) (sec : Bool) (mask : Word) :
    ((x.observe sec mask).stream sec).inflight = (x.stream sec).inflight := by
  cases sec <;> rfl

/-- A read of ctl.tags observes the DONE tags as well (R190). -/
theorem rdctl_tags (s : State) (d : BitVec 6) :
    ∃ t, exec (.rdctl d 0x0C0) s = .next t ∧
      t.cur.inflight = s.cur.inflight ++ [{ due := s.cur.sc + 2, dest := .scalar d s.curCtx.tags }] ∧ SameRegs s.cur t.cur ∧
      SameCtx s.curCtx t.curCtx ∧ SameMemory s t := by
  have frame := (LaneFrame.emit false s 2 (.scalar d s.curCtx.tags)).trans
    (LaneFrame.observe false (s.emit 2 (.scalar d s.curCtx.tags)) (s.emit 2 (.scalar d s.curCtx.tags)).curCtx.tags)
  have observed : ∀ t : State, (t.updCurCtx (fun x => x.observe t.issue.sec x.tags)).cur.inflight = t.cur.inflight := fun t => by
    have ctx : (t.updCurCtx (fun x => x.observe t.issue.sec x.tags)).curCtx = t.curCtx.observe t.issue.sec t.curCtx.tags :=
      t.curCtx_updCurCtx _
    exact (congrArg (fun x : Ctx => (x.stream t.issue.sec).inflight) ctx).trans (Ctx.inflight_observe ..)
  refine ⟨_, rfl, ?_, frame.sameRegs, frame.ctx, frame.sameMemory⟩
  exact (observed _).trans (congrArg Stream.inflight (s.cur_emit 2 _))

theorem listed_iff (n : BitVec 12) : ctlListed n.toNat = true ↔ listedCtl n := by
  simp only [ctlListed, listedCtl, Bool.or_eq_true, Bool.and_eq_true, decide_eq_true_eq, List.mem_cons, List.not_mem_nil, or_false]
  constructor <;> intro h <;> omega

theorem readsControlRegisters : ReadsControlRegisters := by
  intro s d x k
  have reg := fun {n : BitVec 12} (h : n ≠ 0x0C0) {v : Word} => writes_rdctl s d h (v := v)
  refine ⟨reg (by decide) rfl, reg (by decide) rfl, reg (by decide) rfl, reg (by decide) rfl, reg (by decide) rfl,
    reg (by decide) rfl, reg (by decide) rfl, reg (by decide) rfl, reg (by decide) rfl, reg (by decide) rfl,
    reg (by decide) rfl, reg (by decide) rfl, reg (by decide) rfl, reg (by decide) rfl, reg (by decide) rfl,
    reg (by decide) rfl, reg (by decide) rfl, reg (by decide) rfl, reg (by decide) rfl, reg (by decide) rfl,
    fun n => ?_, fun q => ?_, rdctl_tags s d, listed_iff⟩
  · have number : (BitVec.ofNat 12 (0x100 + n.val)).toNat = 0x100 + n.val := by
      rw [BitVec.toNat_ofNat, Nat.mod_eq_of_lt (by omega)]
    refine reg (fun e => ?_) (by rw [number, Core.ctlRead_window]; rfl)
    have := congrArg BitVec.toNat e
    rw [number] at this
    simp at this
    omega
  · have number : (BitVec.ofNat 12 (0x0C4 + q.val)).toNat = 0x0C4 + q.val := by
      rw [BitVec.toNat_ofNat, Nat.mod_eq_of_lt (by omega)]
    refine ⟨_, reg (fun e => ?_) (by rw [number, Core.ctlRead_status]; rfl), fun j h => k.extractLsb'_cpst q j h⟩
    have := congrArg BitVec.toNat e
    rw [number] at this
    simp at this
    omega

/-! ### WRCTL -/

theorem privileged_iff (n : BitVec 12) : ctlPrivileged n.toNat = true ↔ needsPriv n := by
  simp only [ctlPrivileged, needsPriv, Bool.or_eq_true, Bool.and_eq_true, decide_eq_true_eq, List.mem_cons, List.not_mem_nil, or_false]
  constructor <;> intro h <;> omega

/-- A write of the issuing bundle that waits for the end of its cycle (R24). -/
def State.writeAtEnd (s : State) (w : EndWrite) : State := s.updCurCore (fun k => { k with endWrites := k.endWrites ++ [w] })

theorem State.cur_writeAtEnd (s : State) (w : EndWrite) : (s.writeAtEnd w).cur = s.cur := by
  have core : (s.writeAtEnd w).curCore = { s.curCore with endWrites := s.curCore.endWrites ++ [w] } := s.curCore_updCurCore _
  have stream := congrArg (fun k : Core => k.ctx.stream s.issue.sec) core
  exact stream

/-- A write that its privilege allows waits for the end of the cycle (R24). -/
theorem exec_wrctl (s : State) (a : BitVec 6) {n : BitVec 12} (issues : (ctlPrivileged n.toNat && !s.cur.priv) = false) :
    exec (.wrctl a n) s =
      .next (s.writeAtEnd (if n = 0x0C0 then .tagClear (s.cur.rs a) else .ctl s.issue.sec n (s.cur.rs a))) := by
  show execWrctl a n s = _
  unfold execWrctl
  rw [issues]
  by_cases tags : n = 0x0C0
  · rw [if_pos tags, if_pos tags]
    rfl
  · rw [if_neg tags, if_neg tags]
    rfl

theorem writesControlRegisters : WritesControlRegisters := by
  intro s a n
  refine ⟨listed_iff n, fun _ allowed => ?_, fun priv clear h => ?_⟩
  · have issues : (ctlPrivileged n.toNat && !s.cur.priv) = false := by
      rcases allowed with h | h
      · rw [Bool.eq_false_iff.2 (mt (privileged_iff n).1 h)]
        rfl
      · simp [h]
    refine ⟨_, exec_wrctl s a issues, congrArg Core.endWrites (s.curCore_updCurCore _),
      congrArg Stream.inflight (s.cur_writeAtEnd _), ?_⟩
    have frame := LaneFrame.updCurCore false s (fun k => { k with
      endWrites := k.endWrites ++ [if n = 0x0C0 then .tagClear (s.cur.rs a) else .ctl s.issue.sec n (s.cur.rs a)] }) rfl
    exact ⟨frame.sameRegs, frame.ctx, frame.sameMemory⟩
  · have traps : (ctlPrivileged n.toNat && !s.cur.priv) = true := by
      rw [(privileged_iff n).2 priv, clear]
      rfl
    exact ⟨_, _, if_pos traps, rfl, s.trapTaken_raise h _⟩

/-- Settles O41, register by register for the reads, and by the write that ends the cycle. -/
theorem controlRegisters : Obligations.ControlRegisters := ⟨readsControlRegisters, writesControlRegisters⟩

end Sys2Proof.Machine

end

section
/-! STRT and YIELD (R340, R341). -/

namespace Sys2Proof.Machine

open Sys2Proof.Claims

/-! ### The start of the secondary stream -/

/-- ctl.stat of a secondary stream as it starts (R340). -/
theorem getLsbD_startedStat (stat : Word) (inter : Bool) (i : Nat) :
    ((stat &&& 0x7FF1) ||| 4 ||| (if inter then 2 else 0)).getLsbD i =
      if i = 1 then inter else if i = 2 then true else decide (i ≠ 3) && decide (i < 15) && stat.getLsbD i := by
  have kept : (0x7FF1 : Word) = fieldMask 0 1 ||| fieldMask 4 11 := by decide
  have sec : (4 : Word) = fieldMask 2 1 := by decide
  have imode : (if inter then 2 else 0 : Word).getLsbD i = (inter && decide (i = 1)) := by
    have two : (2 : Word) = fieldMask 1 1 := by decide
    cases inter
    · exact BitVec.getLsbD_zero
    · rw [if_pos rfl, two, getLsbD_fieldMask, Bool.true_and]
      exact decide_eq_decide.2 (by omega)
  rw [BitVec.getLsbD_or, imode]
  simp only [kept, sec, BitVec.getLsbD_or, BitVec.getLsbD_and, getLsbD_fieldMask]
  rcases (by omega : i = 0 ∨ i = 1 ∨ i = 2 ∨ i = 3 ∨ (4 ≤ i ∧ i < 15) ∨ 15 ≤ i) with rfl | rfl | rfl | rfl | ⟨lo, hi⟩ | hi
  · simp
  · simp
  · simp
  · simp
  · simp [lo, hi, show i < 64 by omega, show i ≠ 1 by omega, show i ≠ 2 by omega, show i ≠ 3 by omega]
    omega
  · simp [show ¬ i < 15 by omega, show i ≠ 0 by omega, show i ≠ 1 by omega, show i ≠ 2 by omega]
    omega

/-- The secondary stream as STRT starts it at a target. -/
def State.startedAt (s : State) (target : Word) : Stream :=
  secondaryFrom s.curCtx.sec s.curCtx.prim (s.curCtx.hdrFlags.getLsbD 0) (target.extractLsb' 5 59) s.nextId

theorem State.startedAt_stat (s : State) (target : Word) :
    (s.startedAt target).stat = (s.curCtx.prim.stat &&& 0x7FF1) ||| 4 ||| (if s.curCtx.hdrFlags.getLsbD 0 then 2 else 0) := rfl

theorem State.startedAt_ops (s : State) (target : Word) : (s.startedAt target).ops = s.curCtx.sec.ops := by
  simp only [State.startedAt, secondaryFrom, Stream.setSnap, Stream.reseed]

/-- What STRT leaves of the machine when it starts the secondary stream at a target. -/
theorem State.startSecondary_of_aligned (s : State) (d : BitVec 6) {target : Word} (idle : s.curCtx.sec.live = false)
    (running : s.curCtx.sec.stopped = none) (aligned : target.toNat % 32 = 0) :
    s.startSecondary d (some target) = (s.emit 2 (.scalar d 0)).updCurCtx (fun y => { y with sec := s.startedAt target }) := by
  unfold State.startSecondary
  extract_lets x
  rw [if_neg (by simp [x, idle, running])]
  exact if_neg (not_not_intro ((aligned_iff target).2 aligned))

/-- STRT of a stream that lives, or that the firmware has stopped, answers 1 (R340). -/
theorem State.startSecondary_of_live (s : State) (d : BitVec 6) (target : Option Word)
    (h : s.curCtx.sec.live = true ∨ s.curCtx.sec.stopped.isSome = true) : s.startSecondary d target = s.emit 2 (.scalar d 1) :=
  if_pos (by simpa using h)

theorem State.startSecondary_of_misaligned (s : State) (d : BitVec 6) {target : Word} (idle : s.curCtx.sec.live = false)
    (running : s.curCtx.sec.stopped = none) (off : target.toNat % 32 ≠ 0) :
    s.startSecondary d (some target) = s.raise { cause := 0x05, tval := target } := by
  unfold State.startSecondary
  extract_lets x
  rw [if_neg (by simp [x, idle, running])]
  exact if_pos (mt (aligned_iff target).1 off)

/-- Without a secondary entry STRT.hdr answers 2 (R340). -/
theorem State.startSecondary_without_entry (s : State) (d : BitVec 6) (idle : s.curCtx.sec.live = false)
    (running : s.curCtx.sec.stopped = none) : s.startSecondary d none = s.emit 2 (.scalar d 2) :=
  if_neg (by simp [idle, running])

/-- The secondary stream of t stands started at a target, from the primary stream of s (R340). -/
structure SecondaryStarted (s t : State) (d : BitVec 6) (target : Word) : Prop where
  sec : t.curCtx.sec = s.startedAt target
  flight : s.issue.sec = false → t.cur.inflight = s.cur.inflight ++ [{ due := s.cur.sc + 2, dest := .scalar d 0 }]
  memory : t.mem = s.mem

/-- A change of the context that leaves its primary stream leaves an issuing primary stream. -/
theorem State.cur_updCurCtx_of_prim (s : State) (primary : s.issue.sec = false) {f : Ctx → Ctx}
    (h : (f s.curCtx).prim = s.curCtx.prim) : (s.updCurCtx f).cur = s.cur := by
  have ctx := s.curCtx_updCurCtx f
  rw [State.cur, State.cur, State.stream, State.stream, State.updCurCtx_issue, primary]
  exact (congrArg Ctx.prim ctx).trans h

theorem State.secondaryStarted (s : State) (d : BitVec 6) {target : Word} (idle : s.curCtx.sec.live = false)
    (running : s.curCtx.sec.stopped = none) (aligned : target.toNat % 32 = 0) :
    SecondaryStarted s (s.startSecondary d (some target)) d target := by
  rw [s.startSecondary_of_aligned d idle running aligned]
  refine ⟨congrArg Ctx.sec (State.curCtx_updCurCtx _ _), fun primary => ?_, rfl⟩
  rw [State.cur_updCurCtx_of_prim (s.emit 2 (.scalar d 0)) primary rfl, State.cur_emit]
  rfl

/-! ### YIELD -/

theorem State.yield_frozen (s : State) (d floor : BitVec 6) :
    ∃ t n, exec (.yieldCore d floor) s = .next t ∧ t.cur.wait = .yield d floor ∧
      (n, Instr.yieldAnswer s.issue.core s.issue.sec) ∈ t.agenda ∧ s.now < n ∧ n ≤ s.now + 4800 ∧ SameRegs s.cur t.cur ∧
      SameMemory s t := by
  have cur : (s.freeze (.yield d floor)).cur = { s.cur with wait := .yield d floor } := s.cur_updCur _
  have wait : Nat.min 4800 (Nat.max 1 (s.delays.headD 1)) ≤ 4800 := Nat.min_le_left ..
  have one : 1 ≤ Nat.min 4800 (Nat.max 1 (s.delays.headD 1)) := Nat.le_min.2 ⟨by decide, Nat.le_max_left ..⟩
  refine ⟨_, s.now + Nat.min 4800 (Nat.max 1 (s.delays.headD 1)), rfl, congrArg Stream.wait cur,
    List.mem_append_right _ List.mem_cons_self, Nat.lt_add_of_pos_right one, Nat.add_le_add_left wait _, ?_, fun _ => rfl⟩
  show SameRegs s.cur (s.freeze (.yield d floor)).cur
  rw [cur]
  exact sameRegs_control s.cur s.cur.pc s.cur.idle _ s.cur.inflight

/-- A stream wakes with a scalar result (R189, R341). -/
theorem State.woken (s : State) (c : CoreId) (sec : Bool) (d : BitVec 6) (v : Word) :
    Woken (s.stream c sec) ((s.updStream c sec (fun x => { x with wait := .none }.emit 2 (.scalar d v))).stream c sec) d v := by
  rw [State.stream_updStream]
  exact ⟨rfl, rfl, sameRegs_control (s.stream c sec) (s.stream c sec).pc (s.stream c sec).idle _ _⟩

theorem yieldAnswer_on_several (s : State) (c : CoreId) (sec : Bool) {d floor : BitVec 6}
    (wait : (s.stream c sec).wait = .yield d floor) (several : 1 < (coresOf (s.ctx c).placed).length) :
    ∃ t, exec (.yieldAnswer c sec) s = .next t ∧ Woken (s.stream c sec) (t.stream c sec) d 2 := by
  refine ⟨_, ?_, s.woken c sec d 2⟩
  show execYieldAnswer c sec s = _
  unfold execYieldAnswer
  rw [wait]
  exact if_pos several

/-- Nothing takes the core of the yielder: it wakes with 0 (R341). -/
theorem yieldAnswer_untaken (s : State) (c : CoreId) (sec : Bool) {d floor : BitVec 6}
    (wait : (s.stream c sec).wait = .yield d floor) (one : (coresOf (s.ctx c).placed).length ≤ 1)
    (untaken : ∀ q, s.taskOf c = some q → q.prio < floor ∨ s.yieldTo q c floor = none) :
    ∃ t, exec (.yieldAnswer c sec) s = .next t ∧ Woken (s.stream c sec) (t.stream c sec) d 0 := by
  refine ⟨_, ?_, s.woken c sec d 0⟩
  show execYieldAnswer c sec s = _
  unfold execYieldAnswer
  rw [wait]
  dsimp only
  rw [if_neg (by omega)]
  split
  · rfl
  · cases task : s.taskOf c with
    | none => rfl
    | some q =>
      have none : (if q.prio < floor then none else s.yieldTo q c floor) = none := by
        rcases untaken q task with low | free
        · exact if_pos low
        · rw [free, ite_self]
      dsimp only
      rw [none]

theorem startAndYield : StartAndYield := by
  intro s d a floor started
  have start : ∀ {t : State} {target : Word}, SecondaryStarted s t d target → started t target := by
    rintro t target ⟨sec, flight, memory⟩
    show _ ∧ _
    rw [sec]
    refine ⟨rfl, rfl, fun _ => rfl, fun _ => rfl, rfl, rfl, rfl, fun i => ?_, rfl, rfl, rfl, rfl, fun i => ?_, s.startedAt_ops target,
      rfl, flight, fun x => by rw [memory]⟩
    · rw [s.startedAt_stat target, getLsbD_startedStat]
    · simp [State.startedAt, secondaryFrom, Stream.setSnap, Stream.reseed]
  refine ⟨fun idle running aligned => ⟨_, rfl, start (s.secondaryStarted d idle running aligned)⟩,
    fun idle running entry aligned => ⟨_, ?_, start (s.secondaryStarted d idle running aligned)⟩,
    fun idle running no => ?_, fun live => ⟨?_, ?_⟩, fun idle running off h => ⟨_, rfl, ?_⟩, s.yield_frozen d floor,
    fun c sec wait => ⟨yieldAnswer_on_several s c sec wait, yieldAnswer_untaken s c sec wait⟩⟩
  · show execStrtHdr d s = _
    rw [execStrtHdr, if_pos entry]
  · show execStrtHdr d s = _
    rw [execStrtHdr, if_neg (by rw [no]; decide), s.startSecondary_without_entry d idle running]
    rfl
  · exact congrArg Host.Outcome.next (s.startSecondary_of_live d _ live)
  · exact congrArg Host.Outcome.next (s.startSecondary_of_live d _ live)
  · rw [s.startSecondary_of_misaligned d idle running off]
    exact s.trapTaken_raise h _

end Sys2Proof.Machine

end

section
/-! SWPREP and SWAP (R361 to R365). -/

namespace Sys2Proof.Machine

open Sys2Proof.Claims

/-! ### The staging of an image -/

/-- Reading an image for its staging changes no stream, no bank and no byte (R365). -/
theorem State.SameStreams.stageImage (s : State) (c : CoreId) (area : Nat) : s.SameStreams (s.stageImage c area).1 := by
  have read : s.SameStreams (s.readRange area (area + areaBytes)) :=
    foldl_keeps (P := fun t : State => s.SameStreams t) (fun t u h => h.trans (.noteUnit t u)) _ _ (.of_cores rfl rfl)
  have walked : s.SameStreams ((s.readRange area (area + areaBytes)).noteWalks (areaPieces area)) := by
    obtain ⟨_, mem, cores, _⟩ := State.noteWalks_frame (s.readRange area (area + areaBytes)) (areaPieces area)
    exact read.trans (.of_cores cores mem)
  unfold State.stageImage
  extract_lets s1 absent img
  change s.SameStreams s1 at walked
  clear_value absent img s1
  repeat' split
  · exact walked
  · exact walked
  · exact walked
  · exact walked
  · exact walked.trans (.of_cores rfl rfl)

theorem translate_areaOf (s : State) {va : Word} {k : AccessKind} {ia : Nat} {attr : BitVec 6}
    (h : Translates s va (2 ^ 21) k ia attr) : s.areaOf va k = .ok ia := by
  have found : translate s.curCtx.win va areaBytes k = some (ia, attr) := h
  unfold State.areaOf
  rw [found]

/-- SWPREP of two areas that it may use asks whether the bank is EMPTY (R365). -/
theorem execSwprep_of_areas (s : State) (d a b : BitVec 6) {ia ib : Nat} {fa fb : BitVec 6} (priv : s.cur.priv = true)
    (alignedA : (s.cur.rs a).toNat % 2 ^ 21 = 0) (alignedB : (s.cur.rs b).toNat % 2 ^ 21 = 0)
    (image : Translates s (s.cur.rs a) (2 ^ 21) .read ia fa) (save : Translates s (s.cur.rs b) (2 ^ 21) .write ib fb)
    (packageA : inPackage ia = true) (packageB : inPackage ib = true) :
    exec (.swprep d a b) s = if s.curCore.bank ≠ .empty then s.putS 2 d 1
      else .next ((s.freeze (.staging d ia ib (s.cur.rs b))).after (.swprepStagingEnd s.issue.core s.issue.sec)) := by
  show execSwprep d a b s = _
  unfold execSwprep
  extract_lets va vb
  have first : ¬ va.toNat % areaBytes ≠ 0 := not_not_intro alignedA
  have second : ¬ vb.toNat % areaBytes ≠ 0 := not_not_intro alignedB
  rw [if_neg (by simp [priv]), if_neg first, if_neg second, translate_areaOf s image, translate_areaOf s save]
  dsimp only
  rw [if_neg (by simp [packageA]), if_neg (by simp [packageB])]

theorem State.sameRegs_freeze (s : State) (w : Wait) : SameRegs s.cur (s.freeze w).cur := by
  have cur : (s.freeze w).cur = { s.cur with wait := w } := s.cur_updCur _
  rw [cur]
  exact sameRegs_control s.cur s.cur.pc s.cur.idle w s.cur.inflight

/-- A core whose bank holds a context that SWPREP has staged, with the area to which it will save the one that is live. -/
def Core.stage (k : Core) (x : Ctx) (area : Nat) (va : Word) : Core :=
  { k with bank := .staged, shadow := x, bankByTask := true, bankFor := none, saveArea := area, saveVa := va }

/-- A staging that the bank is EMPTY for ends as its image says (R365). -/
theorem execSwprepStagingEnd_of_empty (s : State) (c : CoreId) (sec : Bool) {d : BitVec 6} {image area : Nat} {va : Word}
    (wait : (s.stream c sec).wait = .staging d image area va) (empty : (s.core c).bank = .empty) :
    exec (.swprepStagingEnd c sec) s =
      match (s.stageImage c image).2.2 with
      | none => .next ((s.stageImage c image).1.updStream c sec
          (fun x => { x with wait := .none }.emit 2 (.scalar d (s.stageImage c image).2.1)))
      | some x => .next (((s.stageImage c image).1.updCore c (fun k => k.stage x area va)).updStream c sec
            (fun x => { x with wait := .none }.emit 2 (.scalar d 0))) := by
  show execSwprepStagingEnd c sec s = _
  unfold execSwprepStagingEnd
  rw [wait]
  dsimp only
  rw [if_neg (not_not_intro empty)]
  generalize s.stageImage c image = r
  obtain ⟨r1, r2, _ | x⟩ := r <;> rfl

theorem State.stream_updCore (s : State) (c : CoreId) (b : Bool) {f : Core → Core} (h : ∀ k, (f k).ctx = k.ctx) :
    (s.updCore c f).stream c b = s.stream c b := by
  simp [State.stream, State.ctx, h]

/-! ### What a swap moves -/

/-- Core q is core k but for parts that no swap moves: its two banks are the same, as far as the scalar registers of the
primary stream tell. -/
structure Core.SameBanks (k q : Core) : Prop where
  live : q.live = k.live
  bank : q.bank = k.bank
  bankFor : q.bankFor = k.bankFor
  shadow : q.shadow = k.shadow
  saveArea : q.saveArea = k.saveArea
  scalars : q.ctx.prim.s = k.ctx.prim.s

theorem Core.SameBanks.refl (k : Core) : k.SameBanks k := ⟨rfl, rfl, rfl, rfl, rfl, rfl⟩

theorem Core.SameBanks.trans {k q r : Core} (h : k.SameBanks q) (g : q.SameBanks r) : k.SameBanks r :=
  ⟨g.live.trans h.live, g.bank.trans h.bank, g.bankFor.trans h.bankFor, g.shadow.trans h.shadow, g.saveArea.trans h.saveArea,
    g.scalars.trans h.scalars⟩

theorem Core.SameBanks.ite {p : Prop} [Decidable p] {k q r : Core} (h : k.SameBanks q) (g : k.SameBanks r) :
    k.SameBanks (if p then q else r) := by
  split
  · exact h
  · exact g

theorem Core.SameBanks.updStream (k : Core) (b : Bool) {f : Stream → Stream} (h : ∀ x, (f x).s = x.s) :
    k.SameBanks (k.updCtx (fun x => x.updStream b f)) := by
  refine ⟨rfl, rfl, rfl, rfl, rfl, ?_⟩
  cases b
  · exact h _
  · rfl

/-- No control register is a part that a swap moves. -/
theorem Core.SameBanks.ctlWrite (k : Core) (b : Bool) (n : Nat) (v : Word) : k.SameBanks (k.ctlWrite b n v) := by
  unfold Core.ctlWrite
  extract_lets st cx
  have stream : ∀ f : Stream → Stream, (∀ x, (f x).s = x.s) → k.SameBanks (st f) := fun f h => .updStream k b h
  have ctx : ∀ f : Ctx → Ctx, (∀ x, (f x).prim = x.prim) → k.SameBanks (cx f) := fun f h =>
    ⟨rfl, rfl, rfl, rfl, rfl, congrArg Stream.s (h _)⟩
  have own : ∀ {q : Core}, q.live = k.live → q.bank = k.bank → q.bankFor = k.bankFor → q.shadow = k.shadow →
      q.saveArea = k.saveArea → q.ctx = k.ctx → k.SameBanks q := fun h1 h2 h3 h4 h5 h6 => ⟨h1, h2, h3, h4, h5, by rw [h6]⟩
  refine .ite (stream _ fun _ => rfl) <| .ite (stream _ fun _ => rfl) <| .ite (stream _ fun _ => rfl) <|
    .ite (stream _ fun _ => rfl) <| .ite (stream _ fun _ => rfl) <| .ite (stream _ fun _ => rfl) <|
    .ite (stream _ fun _ => rfl) <| .ite (stream _ fun _ => by simp only [Stream.reseed]) <|
    .ite (ctx _ fun _ => rfl) <| .ite (ctx _ fun _ => rfl) <| .ite (own rfl rfl rfl rfl rfl rfl) <|
    .ite (ctx _ fun _ => rfl) <| .ite (ctx _ fun _ => rfl) <| .ite (own rfl rfl rfl rfl rfl rfl) <|
    .ite (ctx _ fun _ => rfl) <| .ite (ctx _ fun _ => rfl) <| .ite (ctx _ fun _ => rfl) <|
    .ite (own rfl rfl rfl rfl rfl rfl) <| .ite (own rfl rfl rfl rfl rfl rfl) <| ?_
  split
  · exact ctx _ fun _ => rfl
  · exact .refl k

/-- From s to t core c keeps its banks, and the same bundle issues. -/
structure BankKept (c : CoreId) (s t : State) : Prop where
  issue : t.issue = s.issue
  now : t.now = s.now
  banks : (s.core c).SameBanks (t.core c)

namespace BankKept

variable {c : CoreId} {s t u : State}

theorem trans (h : BankKept c s t) (k : BankKept c t u) : BankKept c s u :=
  ⟨k.issue.trans h.issue, k.now.trans h.now, h.banks.trans k.banks⟩

theorem of_cores (issue : t.issue = s.issue) (now : t.now = s.now) (cores : t.cores = s.cores) : BankKept c s t :=
  ⟨issue, now, by unfold State.core; rw [cores]; exact .refl _⟩

theorem updCore (s : State) (c : CoreId) {f : Core → Core} (h : ∀ k : Core, k.SameBanks (f k)) : BankKept c s (s.updCore c f) :=
  ⟨rfl, rfl, by rw [State.core_updCore]; exact h _⟩

theorem updStream (s : State) (c : CoreId) (b : Bool) {f : Stream → Stream} (h : ∀ x, (f x).s = x.s) :
    BankKept c s (s.updStream c b f) := updCore s c fun k => .updStream k b h

theorem updCur (s : State) {f : Stream → Stream} (h : ∀ x, (f x).s = x.s) : BankKept s.issue.core s (s.updCur f) :=
  updStream s s.issue.core s.issue.sec h

theorem pinRange (s : State) (c : CoreId) (ia len : Nat) : BankKept c s (s.pinRange ia len) :=
  foldl_keeps (P := fun t => BankKept c s t) (fun t a ht => ht.trans (by
    unfold State.mapShare State.mapPointers
    split <;> exact .of_cores rfl rfl rfl)) _ s (.of_cores rfl rfl rfl)

theorem ctlWrite (s : State) (c : CoreId) (b : Bool) (n : Nat) (v : Word) : BankKept c s (s.ctlWrite c b n v) := by
  have written : BankKept c s (s.updCore c (fun k => k.ctlWrite b n v)) := updCore s c fun k => .ctlWrite k b n v
  unfold State.ctlWrite
  extract_lets s1
  split
  · exact written.trans (.pinRange _ c _ _)
  · exact written

/-- The writes that end a cycle are to registers that no swap moves by itself. -/
theorem landEndWrites (s : State) (c : CoreId) : BankKept c s (s.landEndWrites c) := by
  unfold State.landEndWrites
  extract_lets l s0 put s1
  have keep : ∀ b t w, BankKept c t (put b t w) := fun b t w => by
    unfold put
    split
    · split
      · exact .ctlWrite ..
      · exact .of_cores rfl rfl rfl
    · split
      · exact .updCore _ c fun _ => ⟨rfl, rfl, rfl, rfl, rfl, rfl⟩
      · exact .of_cores rfl rfl rfl
    · exact .of_cores rfl rfl rfl
  have h0 : BankKept c s s0 := .updCore s c fun _ => ⟨rfl, rfl, rfl, rfl, rfl, rfl⟩
  have folded : ∀ b t, BankKept c t (l.foldl (put b) t) := fun b t =>
    foldl_keeps (P := fun u => BankKept c t u) (fun u w h => h.trans (keep b u w)) l t (.of_cores rfl rfl rfl)
  have h1 : BankKept c s s1 := (h0.trans (folded true s0)).trans (folded false _)
  refine foldl_keeps (P := fun u => BankKept c s u) (fun u w h => h.trans ?_) l s1 h1
  split
  · exact .updCore _ c fun _ => ⟨rfl, rfl, rfl, rfl, rfl, rfl⟩
  · exact .of_cores rfl rfl rfl

theorem preparePointers (s : State) (c : CoreId) (x : Ctx) : BankKept c s (s.preparePointers x) := by
  have pointers : ∀ (t : State) (ia : Nat), BankKept c t (t.mapPointers ia) := fun t ia => .of_cores rfl rfl rfl
  refine foldl_keeps (P := fun t => BankKept c s t) (fun t n h => h.trans ?_) _ s (.of_cores rfl rfl rfl)
  unfold State.prepareWindow
  split
  · refine foldUp_keeps (P := fun u => BankKept c t u) (fun u i h => h.trans ?_) _ t (.of_cores rfl rfl rfl)
    extract_lets ia
    split
    · exact foldUp_keeps (P := fun v => BankKept c u v) (fun v j h => h.trans (pointers v _)) _ u (.of_cores rfl rfl rfl)
    · exact pointers u _
    · exact .of_cores rfl rfl rfl
  · exact .of_cores rfl rfl rfl

end BankKept

/-- A context that has become live is as it was staged, but for what its streams wait for; events have been put under way. -/
structure Resumed (c : CoreId) (s t : State) : Prop where
  issue : t.issue = s.issue
  now : t.now = s.now
  agenda : ∀ e ∈ s.agenda, e ∈ t.agenda
  core : ∃ x, t.core c = { s.core c with ctx := x }
  ctx : SameCtx (s.ctx c) (t.ctx c)
  streams : ∀ b, ∃ w, (t.ctx c).stream b = { (s.ctx c).stream b with wait := w }

namespace Resumed

variable {c : CoreId} {s t u : State}

theorem trans (h : Resumed c s t) (k : Resumed c t u) : Resumed c s u where
  issue := k.issue.trans h.issue
  now := k.now.trans h.now
  agenda e he := k.agenda e (h.agenda e he)
  core := by
    obtain ⟨x, hx⟩ := h.core
    obtain ⟨y, hy⟩ := k.core
    exact ⟨y, by rw [hy, hx]⟩
  ctx := h.ctx.trans k.ctx
  streams b := by
    obtain ⟨v, hv⟩ := h.streams b
    obtain ⟨w, hw⟩ := k.streams b
    exact ⟨w, by rw [hw, hv]⟩

/-- More events are under way. -/
theorem of_agenda (issue : t.issue = s.issue) (now : t.now = s.now) (cores : t.cores = s.cores)
    (agenda : ∀ e ∈ s.agenda, e ∈ t.agenda) : Resumed c s t := by
  have core : t.core c = s.core c := by unfold State.core; rw [cores]
  have ctx : t.ctx c = s.ctx c := congrArg Core.ctx core
  exact ⟨issue, now, agenda, ⟨_, core⟩, ctx ▸ SameCtx.refl _, fun b => ⟨_, congrArg (Ctx.stream · b) ctx⟩⟩

theorem refl (c : CoreId) (s : State) : Resumed c s s := of_agenda rfl rfl rfl fun _ h => h

theorem append (e : List (Nat × Instr)) (issue : t.issue = s.issue) (now : t.now = s.now) (cores : t.cores = s.cores)
    (agenda : t.agenda = s.agenda ++ e) : Resumed c s t :=
  of_agenda issue now cores fun _ h => agenda ▸ List.mem_append_left e h

theorem updWait (s : State) (c : CoreId) (b : Bool) (w : Wait) : Resumed c s (s.updStream c b (fun y => { y with wait := w })) := by
  have ctx : (s.updStream c b (fun y => { y with wait := w })).ctx c = (s.ctx c).updStream b (fun y => { y with wait := w }) :=
    s.ctx_updCtx c _
  refine ⟨rfl, rfl, fun _ h => h, ⟨_, s.core_updCtx c _⟩, ?_, fun q => ?_⟩ <;> rw [ctx]
  · exact .updStream_only _ _ _
  · by_cases e : q = b
    · subst e
      exact ⟨w, Ctx.stream_updStream _ _ _⟩
    · exact ⟨_, Ctx.stream_updStream_ne _ _ e⟩

theorem resumeCtx (s : State) (c : CoreId) : Resumed c s (s.resumeCtx c) := by
  unfold State.resumeCtx
  extract_lets x s1
  have h1 : Resumed c s s1 := foldl_keeps (P := fun t => Resumed c s t) (fun t b h => h.trans (by
    extract_lets u
    have hu : Resumed c t u := by
      unfold u
      split
      · exact .append _ rfl rfl rfl rfl
      · exact .refl c t
    split
    · exact hu.trans (.append _ rfl rfl rfl rfl)
    · exact hu.trans (.append _ rfl rfl rfl rfl)
    · exact hu.trans (.updWait u c b _)
    · exact hu)) _ s (.refl c s)
  refine foldl_keeps (P := fun t => Resumed c s t) (fun t w h => h.trans ?_) _ s1 h1
  split
  · exact .append _ rfl rfl rfl rfl
  · exact .append _ rfl rfl rfl rfl
  · exact .append _ rfl rfl rfl rfl
  · exact .append _ rfl rfl rfl rfl
  · exact .append _ rfl rfl rfl rfl
  · exact .refl c t

end Resumed

/-! ### The swap of a core -/

/-- The staged context of core c has become live, and the context that was live is in the bank, to be spilled (R361, R362). -/
structure SwappedIn (c : CoreId) (s t : State) : Prop where
  issue : t.issue = s.issue
  live : (t.core c).live = true
  bank : (t.core c).bank = .spilling
  swapEnd : (t.core c).swapEnd = s.now + 32
  saveArea : (t.core c).saveArea = (s.core c).saveArea
  saved : (t.core c).shadow.prim.s = (s.ctx c).prim.s
  ctx : SameCtx (s.core c).shadow (t.ctx c)
  streams : ∀ b, ∃ w, (t.ctx c).stream b = { (s.core c).shadow.stream b with wait := w }
  spill : UnderWay t (.spillComplete c)

theorem State.swapCore_swappedIn (s : State) (c : CoreId) (live : (s.core c).live = true) (staged : (s.core c).bank = .staged)
    (task : (s.core c).bankFor = none) : SwappedIn c s (s.swapCore c) := by
  unfold State.swapCore
  extract_lets s0 k st s1 s2 drain s3 s4
  have h0 : BankKept c s s0 := .landEndWrites s c
  have klive : k.live = true := h0.banks.live.trans live
  have kst : st = true := by
    unfold st Core.stagedTask
    rw [show k.bank = .staged from h0.banks.bank.trans staged, show k.bankFor = none from h0.banks.bankFor.trans task]
    rfl
  have h1 : BankKept c s s1 := by
    unfold s1
    rw [if_pos kst]
    exact h0.trans (.preparePointers s0 c _)
  have h2 : BankKept c s s2 := by
    unfold s2
    rw [if_pos klive]
    exact h1.trans (.of_cores rfl rfl rfl)
  have core : s3.core c = { s2.core c with
      live := true, ctx := (s2.core c).shadow, bank := .spilling, shadow := (s2.core c).ctx.parked, bankFor := none, spill := none,
      swapEnd := s.now + 32, cubeDrain := decide ((s2.core c).ctx.tiles ≠ []), resCache := [], fed := false, pause := none } := by
    refine (s2.core_updCore c _).trans ?_
    rw [kst, h2.banks.live, live]
    rfl
  have put : s4 = (if k.ctx.tiles ≠ [] then s3.afterN drain (.cubeSwapDrainEnd c) else s3).afterWithin (drain + 2048) (drain + 3200)
      (.spillComplete c) := if_pos klive
  have core4 : s4.core c = s3.core c := by
    rw [put]
    split <;> rfl
  have issue4 : s4.issue = s3.issue := by
    rw [put]
    split <;> rfl
  have spill : UnderWay s4 (.spillComplete c) := by
    rw [put]
    exact ⟨_, List.mem_append_right _ List.mem_cons_self,
      Nat.lt_add_of_pos_right (Nat.lt_of_lt_of_le (Nat.succ_pos (drain + 2047)) (Nat.le_max_left ..))⟩
  have shadow : (s4.ctx c) = (s.core c).shadow := by
    rw [State.ctx, core4, core]
    exact h2.banks.shadow
  rw [if_pos kst]
  obtain ⟨issue, now, agenda, ⟨x, resumed⟩, ctx, streams⟩ := Resumed.resumeCtx s4 c
  rw [core4, core] at resumed
  rw [shadow] at ctx streams
  refine ⟨(issue.trans issue4).trans h2.issue, ?_, ?_, ?_, ?_, ?_, ctx, streams, ?_⟩
  · rw [resumed]
  · rw [resumed]
  · rw [resumed]
  · rw [resumed]
    exact h2.banks.saveArea
  · rw [resumed]
    exact h2.banks.scalars
  · obtain ⟨n, under, later⟩ := spill
    exact ⟨n, agenda _ under, now ▸ later⟩

/-! ### SWAP -/

/-- A SWAP of what SWPREP has staged swaps the core alone, after its bundle (R365). -/
theorem execSwap_of_staged (s : State) (d : BitVec 6) (priv : s.cur.priv = true) (staged : s.curCore.bank = .staged)
    (one : (coresOf s.curCtx.placed).length ≤ 1) (prepared : s.curCore.bankByTask = true) :
    exec (.swap d) s =
      .next ((((s.emit 1 (.scalar d 0)).updCur Stream.advance).swapCore s.issue.core).setStatus .returning) := by
  show execSwap d s = _
  unfold execSwap
  extract_lets k s1
  rw [if_neg (by simp [priv]), if_neg (not_not_intro staged), if_neg (by omega)]
  exact if_pos prepared

theorem Stream.advance_s (x : Stream) : x.advance.s = x.s := by
  have loops : ∀ l, (x.setLoops l).s = x.s := fun l => by
    unfold Stream.setLoops
    split <;> rfl
  exact loops _

theorem SwappedIn.of_kept {c : CoreId} {s t u : State} (kept : BankKept c s t) (h : SwappedIn c t u) : SwappedIn c s u := by
  obtain ⟨same, now, banks⟩ := kept
  obtain ⟨issue, live, bank, swapEnd, saveArea, saved, ctx, streams, spill⟩ := h
  rw [banks.shadow] at ctx streams
  exact ⟨issue.trans same, live, bank, now ▸ swapEnd, saveArea.trans banks.saveArea, saved.trans banks.scalars, ctx, streams, spill⟩

/-- What a swap by the program leaves, on the core that issued it (R365). -/
theorem SwappedIn.returned {s t : State} (h : SwappedIn s.issue.core s t) :
    let u := t.setStatus .returning
    u.curCore.live = true ∧ SameCtx s.curCore.shadow u.curCtx ∧
      (∀ b, SameRegs (s.curCore.shadow.stream b) (u.curCtx.stream b) ∧ (u.curCtx.stream b).pc = (s.curCore.shadow.stream b).pc ∧
        (u.curCtx.stream b).live = (s.curCore.shadow.stream b).live) ∧
      u.curCore.bank = .spilling ∧ u.curCore.swapEnd = s.now + 32 ∧ u.curCore.saveArea = s.curCore.saveArea ∧
      (∀ r, u.curCore.shadow.prim.rs r = s.curCtx.prim.rs r) ∧ UnderWay u (.spillComplete s.issue.core) := by
  obtain ⟨issue, live, bank, swapEnd, saveArea, saved, ctx, streams, spill⟩ := h
  intro u
  have same : t.issue.core = s.issue.core := congrArg Issue.core issue
  have core : u.curCore = t.core s.issue.core := congrArg t.core same
  have context : u.curCtx = t.ctx s.issue.core := congrArg Core.ctx core
  rw [core, context]
  refine ⟨live, ctx, fun b => ?_, bank, swapEnd, saveArea, fun r => ?_, spill⟩
  · obtain ⟨w, stream⟩ := streams b
    rw [stream]
    exact ⟨sameRegs_control _ _ _ w _, rfl, rfl⟩
  · unfold Stream.rs
    rw [saved]
    rfl

theorem swap_of_staged (s : State) (d : BitVec 6) (priv : s.cur.priv = true) (staged : s.curCore.bank = .staged)
    (prepared : s.curCore.bankByTask = true) (task : s.curCore.bankFor = none) (one : (coresOf s.curCtx.placed).length ≤ 1)
    (live : s.curCore.live = true) :
    ∃ t, exec (.swap d) s = .next (t.setStatus .returning) ∧ SwappedIn s.issue.core s t ∧ t.mem = s.mem := by
  have whole : BankKept s.issue.core s ((s.emit 1 (.scalar d 0)).updCur Stream.advance) :=
    BankKept.trans (t := s.emit 1 (.scalar d 0)) (.updCur s fun _ => rfl) (.updCur (s.emit 1 (.scalar d 0)) Stream.advance_s)
  have swapped := State.swapCore_swappedIn _ s.issue.core (whole.banks.live.trans live) (whole.banks.bank.trans staged)
    (whole.banks.bankFor.trans task)
  refine ⟨_, execSwap_of_staged s d priv staged one prepared, swapped.of_kept whole, ?_⟩
  rw [State.swapCore_mem]
  rfl

theorem programSwaps : ProgramSwaps := by
  refine ⟨fun s d a b ia ib fa fb priv alignedA alignedB image save packageA packageB => ⟨fun empty => ?_, fun full => ?_⟩,
    fun s d a b user h => ⟨_, _, if_pos (by simp [user]), rfl, s.trapTaken_raise h _⟩,
    fun s c sec d ia ib va wait empty => ⟨fun x some => ?_, fun none => ?_⟩,
    fun s d user h => ⟨_, _, if_pos (by simp [user]), rfl, s.trapTaken_raise h _⟩,
    fun s d priv => ⟨fun staged prepared task one live => ?_, fun other => ?_, fun staged several => ?_⟩⟩
  · refine ⟨_, (execSwprep_of_areas s d a b priv alignedA alignedB image save packageA packageB).trans (if_neg (not_not_intro empty)),
      ?_, State.underWay_after _ _, s.sameRegs_freeze _, fun _ => rfl⟩
    exact congrArg Stream.wait (s.cur_updCur _)
  · exact (execSwprep_of_areas s d a b priv alignedA alignedB image save packageA packageB).trans (if_pos full)
  · have run := execSwprepStagingEnd_of_empty s c sec wait empty
    have same := State.SameStreams.stageImage s c ia
    rw [some] at run
    generalize s.stageImage c ia = r at run same
    refine ⟨_, run, ?_, ?_, ?_, ?_, ?_, fun a => congrArg (Memory.get · a) same.mem⟩
    · rw [State.updStream, State.core_updCtx, State.core_updCore]
      rfl
    · rw [State.updStream, State.core_updCtx, State.core_updCore]
      rfl
    · rw [State.updStream, State.core_updCtx, State.core_updCore]
      rfl
    · rw [State.stream_updStream]
      rfl
    · rw [State.stream_updStream, State.stream_updCore r.1 c sec (f := fun k => k.stage x ib va) (fun _ => rfl), same.streams]
      exact List.mem_append_right _ List.mem_cons_self
  · have run := execSwprepStagingEnd_of_empty s c sec wait empty
    have same := State.SameStreams.stageImage s c ia
    rw [none] at run
    generalize s.stageImage c ia = r at run same
    refine ⟨_, run, ?_, ?_, fun a => congrArg (Memory.get · a) same.mem⟩
    · rw [State.updStream, State.core_updCtx]
      exact (same.banks c).trans empty
    · rw [State.stream_updStream, same.streams]
      exact List.mem_append_right _ List.mem_cons_self
  · obtain ⟨t, run, swapped, mem⟩ := swap_of_staged s d priv staged prepared task one live
    obtain ⟨h1, h2, h3, h4, h5, h6, h7, h8⟩ := swapped.returned
    exact ⟨_, run, rfl, h1, h2, h3, h4, h5, h6, h7, h8, fun a => congrArg (Memory.get · a) mem⟩
  · show execSwap d s = _
    unfold execSwap
    extract_lets k s1
    rw [if_neg (by simp [priv]), if_pos other]
    rfl
  · show execSwap d s = _
    unfold execSwap
    extract_lets k s1
    rw [if_neg (by simp [priv]), if_neg (not_not_intro staged), if_pos several]
    rfl

/-- Settles O44, from what a start, a staging and a swap of the core leave. -/
theorem yieldsAndSwaps : Obligations.YieldsAndSwaps := ⟨startAndYield, programSwaps⟩

end Sys2Proof.Machine

end

section
/-! The turn of a core whose primary stream issues alone (R20, R38 to R40, R345, R355, R365). -/

namespace Sys2Proof.Machine

open Sys2Proof.Claims

/-! ### The slots of a bundle -/

/-- Slots that are NOP do nothing. -/
theorem runList_nops (l : List Instr) (s : State) (nops : ∀ k ∈ l, k = .nop) (ok : s.issue.status = .ok) : runList l s = .next s := by
  induction l with
  | nil => rfl
  | cons k r ih =>
    obtain rfl : k = .nop := nops k List.mem_cons_self
    show (if s.issue.status = .ok then runList r s else .next s) = .next s
    rw [if_pos ok]
    exact ih fun k h => nops k (List.mem_cons_of_mem _ h)

/-- Where one slot alone is no NOP, exactly its instruction runs. -/
theorem runList_lone (l : List Instr) (s : State) {i : Instr} {t : State} (lone : l.filter (fun k => k ≠ .nop) = [i])
    (ok : s.issue.status = .ok) (run : exec i s = .next t) : runList l s = .next t := by
  induction l with
  | nil => simp at lone
  | cons k r ih =>
    by_cases nop : k = .nop
    · subst nop
      show (if s.issue.status = .ok then runList r s else .next s) = .next t
      rw [if_pos ok]
      exact ih (by simpa using lone)
    · rw [List.filter_cons_of_pos (by simpa using nop)] at lone
      obtain ⟨rfl, rest⟩ := List.cons.inj lone
      have nops : ∀ j ∈ r, j = .nop := by simpa using rest
      rw [runList, run]
      dsimp only
      split
      · exact runList_nops r t nops ‹_›
      · rfl

/-- The order in which slots act keeps which of them are no NOP, if that is one (R38, R185). -/
theorem slotOrder_lone {ins : List Instr} {i : Instr} (lone : ins.filter (fun k => k ≠ .nop) = [i]) :
    (slotOrder ins).filter (fun k => k ≠ .nop) = [i] := by
  unfold slotOrder
  split
  · rw [List.filter_cons_of_pos (by simp)] at lone
    obtain ⟨rfl, rest⟩ := List.cons.inj lone
    rw [List.filter_append, rest]
    simp
  · exact lone

theorem runSlots_lone {ins : List Instr} {i : Instr} (s : State) {t : State} (lone : ins.filter (fun k => k ≠ .nop) = [i])
    (ok : s.issue.status = .ok) (run : exec i s = .next t) : runSlots ins s = .next t :=
  runList_lone _ s (slotOrder_lone lone) ok run

/-! ### The turn of the core -/

/-- With no event at the start of a cycle core 0 takes its turn. -/
theorem State.startCycle_quiet (s : State) (inputs : s.inputs = []) (due : s.agenda.find? (fun e => e.1 ≤ s.now) = none)
    (event : s.nextEvent = none) : s.startCycle = s.takeTurn := by
  obtain ⟨standing, landing⟩ : s.standing = none ∧ s.primaryLanding = none := by
    unfold State.nextEvent at event
    cases h : s.standing with
    | none => exact ⟨rfl, by simpa [h] using event⟩
    | some i => simp [h] at event
  have first : s.agenda.find? (fun e => e.1 ≤ s.now && !s.primaryReturn e.2) = none := by
    rw [List.find?_eq_none] at due ⊢
    intro e he both
    exact due e he (Bool.and_eq_true_iff.1 both).1
  unfold State.startCycle
  rw [inputs, first, standing, due, landing]

/-- A machine whose primary stream stands alone takes the turn of its core. -/
theorem step_of_alone {s : State} {c : CoreId} (alone : Alone s c) : step s = s.takeTurn := by
  have up : (!s.hub.railsUp && s.inputs.head? ≠ some .powerOnReset) = false := by rw [alone.rails]; rfl
  unfold step
  rw [if_neg (by rw [up]; decide)]
  by_cases first : s.turn = 0
  · obtain ⟨inputs, due, event⟩ := alone.quiet (alone.turn ▸ first)
    rw [if_pos first, s.startCycle_quiet inputs due event]
  · exact if_neg first

theorem State.stopHalted_of_none_pending (s : State) (c : CoreId) (b : Bool) (h : (s.stream c b).pending = []) :
    s.stopHalted c b = s := by
  unfold State.stopHalted
  extract_lets x
  rw [show x.pending = [] from h]

/-- Only the primary stream of a core lives, and it may issue; the line of its bundle has been read. -/
structure MayIssue (s : State) (c : CoreId) : Prop where
  live : (s.stream c false).live = true
  going : (s.stream c false).halted = false
  pending : (s.stream c false).pending = []
  wait : (s.stream c false).wait = .none
  idle : (s.stream c false).idle = 0
  asking : (s.stream c false).asking = none
  pause : (s.core c).pause = none
  merges : (s.core c).primHeld = false
  other : (s.stream c true).live = false ∧ (s.stream c true).halted = false ∧ (s.stream c true).pending = []

theorem State.settled_alone (s : State) (c : CoreId) (h : MayIssue s c) :
    (((s.stopHalted c false).stopHalted c true).settleWait c false).settleWait c true = s := by
  obtain ⟨live, halted, pending⟩ := h.other
  have primary : s.settleWait c false = s := by
    unfold State.settleWait
    rw [h.wait]
    exact ite_self _
  have secondary : s.settleWait c true = s := by
    unfold State.settleWait
    exact if_pos (by simp [live])
  rw [s.stopHalted_of_none_pending c false h.pending, s.stopHalted_of_none_pending c true pending, primary, secondary]

theorem State.plan_ready (s : State) (c : CoreId) (h : MayIssue s c) : s.plan c false = .ready := by
  simp [State.plan, h.going, h.live, h.pause, h.asking, Stream.trapPlace, h.pending, h.idle, h.wait]

theorem State.plan_rest (s : State) (c : CoreId) (h : MayIssue s c) : s.plan c true = .rest := by
  obtain ⟨live, halted, _⟩ := h.other
  simp [State.plan, live, halted]

/-- The turn of a core of which only the primary stream lives is the issue of its bundle (R37, R338). -/
theorem State.bothStreams_alone (s : State) (c : CoreId) (h : MayIssue s c) {words : List SlotWord} {ins : List Instr} {t : State}
    (fetched : (s.fetchRead c false).fetch c false = .bundle words ins)
    (issued : ((s.fetchRead c false).beginIssue c false).issueBundle ins = .next t) : s.bothStreams c = .next t := by
  have held : ((s.fetchRead c false).core c).primHeld = false := ((State.SameStreams.fetchRead s c false).merges c).trans h.merges
  have attempt : (s.fetchRead c false).attemptBeside c false (.bundle words ins) [] = .next t := issued
  unfold State.bothStreams
  extract_lets s1 p q s2 s3 fp fq primHeld first
  have h1 : s1 = s := s.settled_alone c h
  have hp : p = .ready := by
    unfold p
    rw [h1, s.plan_ready c h]
  have hq : q = .rest := by
    unfold q
    rw [h1, s.plan_rest c h]
  have h3 : s3 = s.fetchRead c false := by
    unfold s3 s2
    rw [hp, hq, h1]
    rfl
  have hheld : primHeld = false := by
    unfold primHeld
    rw [hq, h3, held]
    rfl
  have hfirst : first = (.next t, true) := by
    unfold first fp
    rw [hp, hq, hheld, h3, fetched]
    exact congrArg (·, true) attempt
  rw [hq, if_neg (by simp), hfirst]
  dsimp only
  split
  · rfl
  · rfl

/-! ### The step -/

theorem alone_mayIssue {s : State} {c : CoreId} (alone : Alone s c) :
    MayIssue { s with issue := { s.issue with tagsNamed := 0 } } c := by
  obtain ⟨pending, wait, idle, asking⟩ := alone.free
  obtain ⟨pause, merges⟩ := alone.pause
  exact ⟨alone.live, alone.going, pending, wait, idle, asking, pause, merges, alone.other⟩

/-- The line at the program counter has been read and decodes. -/
theorem State.fetch_decoded (s : State) (c : CoreId) {ia : Nat} {attr : BitVec 6} {ins : List Instr}
    (place : s.fetchPlace c false = .at_ ia attr) (link : s.fetchLink c false ia = .here)
    (clean : s.firstPoison ((addrs ia 32).map (s.servedAt c (attrRep attr))) = none)
    (decodes : decodeBundle (s.fetchBytes c false ia) = .ok ins) :
    s.fetch c false = .bundle (slotWords 8 (s.fetchBytes c false ia)) ins := by
  unfold State.fetch
  rw [place]
  dsimp only
  rw [link, clean, if_neg (by decide), if_neg (by decide), decodes]

/-- The state in which the line of the next bundle of core c has been read, in a turn of that core. -/
def State.lineRead (s : State) (c : CoreId) : State := { s with issue := { s.issue with tagsNamed := 0 } }.fetchRead c false

/-- The line at the program counter of core c, read at ia, is here, clean, and decodes to these instructions. -/
structure Reads (s : State) (c : CoreId) (ia : Nat) (attr : BitVec 6) (ins : List Instr) : Prop where
  place : (s.lineRead c).fetchPlace c false = .at_ ia attr
  link : (s.lineRead c).fetchLink c false ia = .here
  clean : (s.lineRead c).firstPoison ((addrs ia 32).map ((s.lineRead c).servedAt c (attrRep attr))) = none
  decodes : decodeBundle ((s.lineRead c).fetchBytes c false ia) = .ok ins

/-- A step of a machine whose primary stream stands alone is the issue of its bundle. -/
theorem step_of_issue {s : State} {c : CoreId} {ia : Nat} {attr : BitVec 6} {ins : List Instr} {t : State} (alone : Alone s c)
    (reads : Reads s c ia attr ins) (issued : ((s.lineRead c).beginIssue c false).issueBundle ins = .next t) :
    step s = .next t.passTurn := by
  have fetched := State.fetch_decoded (s.lineRead c) c reads.place reads.link reads.clean reads.decodes
  have turn : s.turnOf c = .next t := by
    unfold State.turnOf
    rw [if_pos alone.running]
    exact State.bothStreams_alone _ c (alone_mayIssue alone) fetched issued
  rw [step_of_alone alone, State.takeTurn, alone.turn, turn]

/-- What becomes of the bundle that issues in u once its slots have acted and left t (R38, R40, R345). -/
def State.afterSlots (u : State) (ins : List Instr) (t : State) : Answer :=
  match t.issue.status with
  | .ok => .next (((t.settleIssue ins (u.curCtx.parity u.issue.sec ins u.freeVal)).nextBundle u.cur ins).updCur Stream.settleCounters)
  | .held h => .next (u.recordHold h)
  | .trapped q => .next (u.raiseOver t q)
  | .stopping _ => .next t
  | _ => u.issueLast ins (u.curCtx.parity u.issue.sec ins u.freeVal)

/-- A bundle that its privilege and its operands allow does what its slots answer. -/
theorem issueBundle_of_slots {s : State} {c : CoreId} {ins : List Instr} {t : State}
    (priv : privilegeFault (issuing s c ins).cur ins = none)
    (free : ((issuing s c ins).cur.inter && (issuing s c ins).cur.stalled ins) = false)
    (slots : runSlots ins (issuing s c ins) = .next t) :
    ((s.lineRead c).beginIssue c false).issueBundle ins = (issuing s c ins).afterSlots ins t := by
  unfold State.issueBundle State.afterSlots
  extract_lets counted u bad
  change privilegeFault u.cur ins = none at priv
  change (u.cur.inter && u.cur.stalled ins) = false at free
  change runSlots ins u = .next t at slots
  rw [priv]
  dsimp only
  rw [if_neg (by rw [free]; decide), slots]
  dsimp only
  cases t.issue.status <;> rfl

/-- The K slot acts once the other slots have issued (R345, R355, R365). -/
theorem State.issueLast_cons (u : State) {k : Instr} {r : List Instr} {t : State} (bad : List Word) (slots : runSlots r u = .next t)
    (ok : t.issue.status = .ok) : u.issueLast (k :: r) bad = exec k (t.settleIssue (k :: r) bad) := by
  unfold State.issueLast
  dsimp only
  rw [slots]
  dsimp only
  rw [ok]

theorem stepRunsDecodedBundle : StepRunsDecodedBundle := by
  intro s c ia attr ins alone r u place link clean decodes priv free bad
  have reads : Reads s c ia attr ins := ⟨place, link, clean, decodes⟩
  have issue : ∀ {t v : State}, runSlots ins u = .next t → u.afterSlots ins t = .next v → step s = .next v.passTurn :=
    fun slots after => step_of_issue alone reads ((issueBundle_of_slots priv free slots).trans after)
  refine ⟨fun t slots ok => issue slots ?_, fun t h slots held => issue slots ?_, fun t q slots trapped => issue slots ?_,
    fun i t lone run => runSlots_lone u lone rfl run⟩
  · rw [State.afterSlots, ok]
    rfl
  · rw [State.afterSlots, held]
  · rw [State.afterSlots, trapped]

theorem stepRunsLastSlotAlone : StepRunsLastSlotAlone := by
  intro s c ia attr k t t' alone r ins u place link clean decodes priv free run last after
  have reads : Reads s c ia attr ins := ⟨place, link, clean, decodes⟩
  have ends : k ≠ .nop := by
    rintro rfl
    obtain rfl : u = t := Host.Outcome.next.inj run
    rcases last with ⟨q, code, software⟩ | returning
    · exact IssueStatus.noConfusion software
    · exact IssueStatus.noConfusion returning
  have lone : ins.filter (fun j => j ≠ .nop) = [k] := by simp [ins, ends]
  have slots := runSlots_lone u lone rfl run
  have others : runSlots [.nop, .nop, .nop, .nop, .nop, .nop, .nop] u = .next u := 
    runList_nops [.nop, .nop, .nop, .nop, .nop, .nop, .nop] u (by simp) rfl
  have rest : u.issueLast ins (u.curCtx.parity false ins u.freeVal) = .next t' := (State.issueLast_cons u _ others rfl).trans after
  refine step_of_issue alone reads ((issueBundle_of_slots priv free slots).trans ?_)
  rcases last with ⟨q, code, software⟩ | returning
  · rw [State.afterSlots, software]
    exact rest
  · rw [State.afterSlots, returning]
    exact rest

/-- Settles O37, through the turn of a core of which the primary stream alone lives. -/
theorem stepRunsItsBundle : Obligations.StepRunsItsBundle := ⟨stepRunsDecodedBundle, stepRunsLastSlotAlone⟩

end Sys2Proof.Machine

end

section
/-! What the operand codes of vector instructions deliver (R30, R31, R153, R158). -/

namespace Sys2Proof.Machine

open Sys2Proof.Claims

/-! ### Registers and taps -/

/-- A bit of an element is a bit of its image (R153). -/
theorem testBit_elemOf (img : BitVec 8192) {w j : Nat} (e : Nat) (h : j < w) :
    (elemOf img.toNat w e).testBit j = img.getLsbD (w * e + j) := by
  rw [elemOf, Nat.testBit_mod_two_pow, Nat.testBit_shiftRight, BitVec.testBit_toNat]
  simp [h]

theorem State.vsrc_register (s : State) {code : BitVec 7} (h : code.toNat < 64) (rd : ReadAs) (w : Nat) :
    s.vsrc code rd w = elemOf (s.curCtx.rv (code.setWidth 6)).toNat w := if_pos h

theorem State.vsrc_tap (s : State) {k : Nat} (h : k < 8) (rd : ReadAs) (w : Nat) :
    s.vsrc (BitVec.ofNat 7 (64 + k)) rd w = elemOf (s.cur.tap s.issue.pushed k).toNat w := by
  have code : (BitVec.ofNat 7 (64 + k)).toNat = 64 + k := by
    rw [BitVec.toNat_ofNat, Nat.mod_eq_of_lt (by omega)]
  unfold State.vsrc
  rw [code, if_neg (by omega), if_pos (by omega), Nat.add_sub_cancel_left]

/-- Before its bundle has pushed, a tap reaches back from the last push (R158). -/
theorem Stream.tap_zero (x : Stream) {k : Nat} (h : k < 8) :
    x.tap 0 k = x.ring[(x.pushes + 7 - k) % 8]'(Nat.mod_lt _ (by decide)) := by
  have index : (x.pushes + 15 - 0 - k) % 8 = (x.pushes + 7 - k) % 8 := by omega
  simp only [Stream.tap, index]

/-! ### Constants -/

theorem State.vsrc_constant (s : State) {code : BitVec 7} (h : 72 ≤ code.toNat) (rd : ReadAs) (w e : Nat) :
    s.vsrc code rd w e = constElem rd w code.toNat e := by
  unfold State.vsrc
  rw [if_neg (by omega), if_neg (by omega)]

/-- A number below 2^w is delivered as it is. -/
theorem toNat_ofInt_natCast {w n : Nat} (h : n < 2 ^ w) : (BitVec.ofInt w (n : Int)).toNat = n := by
  rw [BitVec.ofInt_natCast, BitVec.toNat_ofNat, Nat.mod_eq_of_lt h]

/-- Code 77 is all ones however it is read (R31). -/
theorem State.vsrc_ones (s : State) (rd : ReadAs) (w e : Nat) : s.vsrc 77 rd w e = 2 ^ w - 1 := s.vsrc_constant (by decide) rd w e

theorem toNat_ofInt_neg_one (w : Nat) : (BitVec.ofInt w (-1)).toNat = 2 ^ w - 1 := by
  rw [BitVec.ofInt_neg, show BitVec.ofInt w 1 = 1#w from BitVec.ofInt_natCast w 1, BitVec.neg_one_eq_allOnes, BitVec.toNat_allOnes]

/-- The integers that the codes stand for, as bits (R31). -/
theorem State.vsrc_int (s : State) {w e : Nat} (pos : 0 < w) (h : w * (e + 1) ≤ 8192) :
    s.vsrc 72 .int w e = 0 ∧ s.vsrc 73 .int w e = 1 ∧ s.vsrc 74 .int w e = 2 ^ w - 1 ∧ s.vsrc 75 .int w e = 0 ∧
    (2 ≤ w → s.vsrc 76 .int w e = 2) ∧
    (5 ≤ w → s.vsrc 78 .int w e = w * e / 64 % 16 ∧ s.vsrc 79 .int w e = w * e / 1024) := by
  have delivers : ∀ (code : BitVec 7) (n : Nat), 72 ≤ code.toNat → code.toNat ≠ 77 → constInt code.toNat w e = n → n < 2 ^ w →
      s.vsrc code .int w e = n := fun code n const ones value small => by
    rw [s.vsrc_constant const, constElem, if_neg ones]
    rw [value, toNat_ofInt_natCast small]
  have minus : s.vsrc 74 .int w e = (BitVec.ofInt w (-1)).toNat := s.vsrc_constant (by decide) .int w e
  have place : w * e < 8192 := Nat.lt_of_lt_of_le (Nat.mul_lt_mul_of_pos_left (Nat.lt_succ_self e) pos) h
  refine ⟨delivers 72 0 (by decide) (by decide) rfl (Nat.two_pow_pos w),
    delivers 73 1 (by decide) (by decide) rfl (Nat.one_lt_two_pow pos.ne'), minus.trans (toNat_ofInt_neg_one w),
    delivers 75 0 (by decide) (by decide) rfl (Nat.two_pow_pos w), fun two => ?_, fun five => ⟨?_, ?_⟩⟩
  · exact delivers 76 2 (by decide) (by decide) rfl (Nat.lt_of_lt_of_le (by decide) (Nat.pow_le_pow_right (by decide) two))
  · have wide : 2 ^ 5 ≤ 2 ^ w := Nat.pow_le_pow_right (by decide) five
    exact delivers 78 (laneOf w e) (by decide) (by decide) rfl (by unfold laneOf; omega)
  · have wide : 2 ^ 5 ≤ 2 ^ w := Nat.pow_le_pow_right (by decide) five
    exact delivers 79 (clusterOf w e) (by decide) (by decide) rfl (by unfold clusterOf; omega)

/-- The lanes and clusters are exact in FP32 and FP64. -/
theorem decode_constBits_small {fm : Fmt} (h : fm = fp32 ∨ fm = fp64) (n : Fin 16) :
    ∃ k : Nat, fm.decode (constBits fm (ofInteger n.val)) = .fin false (n.val * 2 ^ k) (-k) := by
  rcases h with rfl | rfl
  · refine ⟨if n.val = 0 then 149 else 23 - n.val.log2, ?_⟩
    revert n
    decide +kernel
  · refine ⟨if n.val = 0 then 1074 else 52 - n.val.log2, ?_⟩
    revert n
    decide +kernel

theorem constBits_small {fm : Fmt} (h : fm = fp32 ∨ fm = fp64) {n : Nat} (small : n < 16) :
    ∃ m q, fm.decode (constBits fm (ofInteger n)) = .fin false m q ∧ (m : ℚ) * 2 ^ q = n := by
  obtain ⟨k, decoded⟩ := decode_constBits_small h ⟨n, small⟩
  refine ⟨_, _, decoded, ?_⟩
  rw [zpow_neg, zpow_natCast, Nat.cast_mul, Nat.cast_pow, Nat.cast_ofNat]
  field_simp

theorem constBits_fp32 : constBits fp32 (ofInteger 0) = 0 ∧ constBits fp32 (ofInteger 1) = 0x3F800000 ∧
    constBits fp32 (ofInteger (-1)) = 0xBF800000 ∧ constBits fp32 (.fin false 1 (-1)) = 0x3F000000 ∧
    constBits fp32 (ofInteger 2) = 0x40000000 := by decide +kernel

theorem constBits_fp64 : constBits fp64 (ofInteger 0) = 0 ∧ constBits fp64 (ofInteger 1) = 0x3FF0000000000000 ∧
    constBits fp64 (ofInteger (-1)) = 0xBFF0000000000000 ∧ constBits fp64 (.fin false 1 (-1)) = 0x3FE0000000000000 ∧
    constBits fp64 (ofInteger 2) = 0x4000000000000000 := by decide +kernel

theorem constBits_narrow : ∀ fm ∈ [bf16, fp16, e5m2, e4m3, e2m1], constBits fm (ofInteger 0) = 0 ∧
    fm.decode (constBits fm (ofInteger 1)) = .fin false (2 ^ fm.f) (-fm.f) ∧
    fm.decode (constBits fm (ofInteger (-1))) = .fin true (2 ^ fm.f) (-fm.f) ∧
    fm.decode (constBits fm (ofInteger 2)) = .fin false (2 ^ fm.f) (1 - fm.f) := by decide +kernel

/-- Code 78 delivers the lane of the element exactly (R31). -/
theorem State.vsrc_lane (s : State) {fm : Fmt} (h : fm = fp32 ∨ fm = fp64) {w e lane : Nat} (format : fmtOfWidth w = fm)
    (place : w * e / 64 % 16 = lane) :
    ∃ m q, fm.decode (s.vsrc 78 .flt w e) = .fin false m q ∧ (m : ℚ) * 2 ^ q = lane := by
  subst place format
  exact constBits_small h (Nat.mod_lt _ (by decide))

/-- Code 79 delivers the cluster of the element exactly (R31). -/
theorem State.vsrc_cluster (s : State) {fm : Fmt} (h : fm = fp32 ∨ fm = fp64) {w e cluster : Nat} (format : fmtOfWidth w = fm)
    (place : w * e / 1024 = cluster) (small : cluster < 8) :
    ∃ m q, fm.decode (s.vsrc 79 .flt w e) = .fin false m q ∧ (m : ℚ) * 2 ^ q = cluster := by
  subst place format
  exact constBits_small h (Nat.lt_trans small (by decide))

/-- Settles O17, image by image for registers and taps, and constant by constant. -/
theorem vectorOperands : Obligations.VectorOperands := by
  refine ⟨fun s rd w e pos h => ⟨fun code register j hj => ?_, fun k hk first j hj => ?_, s.vsrc_ones rd w e, s.vsrc_int pos h⟩,
    fun s e => ⟨constBits_fp32, constBits_fp64, fun fm narrow w => constBits_narrow fm narrow⟩,
    fun s e lane cluster hl hc => ⟨s.vsrc_lane (.inl rfl) rfl, s.vsrc_lane (.inr rfl) rfl,
      fun place => s.vsrc_cluster (.inl rfl) rfl place hc, fun place => s.vsrc_cluster (.inr rfl) rfl place hc⟩⟩
  · rw [s.vsrc_register register, testBit_elemOf _ e hj]
  · rw [s.vsrc_tap hk, testBit_elemOf _ e hj, first, s.cur.tap_zero hk]

end Sys2Proof.Machine

end

section
/-! The words that the spec writes out (R20 to R36). -/

namespace Sys2Proof

/-- Settles O3: each word is the encoding of its instruction, which is well formed in that slot, so the decoder gives it back. -/
theorem decodesWrittenWords : Obligations.DecodesWrittenWords := by
  unfold Obligations.DecodesWrittenWords
  and_intros
  all_goals exact decode_encode rfl rfl rfl

end Sys2Proof

end

section
/-! The fields of status registers: what a replaced or a counting field holds, and what it leaves (R4, R74, R86). -/

namespace Sys2Proof.Machine

/-- A bit of a word in which a field has been replaced. -/
theorem getLsbD_putBits (x v : Word) {lo len : Nat} (fits : lo + len ≤ 64) (i : Nat) :
    (putBits x lo len v).getLsbD i = if lo ≤ i ∧ i < lo + len then v.getLsbD (i - lo) else x.getLsbD i := by
  have bound : x.getLsbD i = true → i < 64 := BitVec.lt_of_getLsbD
  have mask : ∀ k, (BitVec.ofNat 64 (2 ^ len - 1)).getLsbD k = decide (k < 64 ∧ k < len) := fun k => by
    rw [BitVec.getLsbD_ofNat, Nat.testBit_two_pow_sub_one]
    simp
  simp only [putBits, BitVec.getLsbD_or, BitVec.getLsbD_and, BitVec.getLsbD_not, BitVec.getLsbD_shiftLeft, mask]
  grind

theorem getLsbD_putBits_of_not {x v : Word} {lo len i : Nat} (fits : lo + len ≤ 64) (h : i < lo ∨ lo + len ≤ i) :
    (putBits x lo len v).getLsbD i = x.getLsbD i := by
  rw [getLsbD_putBits x v fits, if_neg (by omega)]

/-- A replaced field reads as the value put there. -/
theorem getBits_putBits (x v : Word) {lo len : Nat} (fits : lo + len ≤ 64) : getBits (putBits x lo len v) lo len = v.toNat % 2 ^ len := by
  have field : (putBits x lo len v).extractLsb' lo len = v.setWidth len := by
    refine BitVec.eq_of_getLsbD_eq fun i hi => ?_
    rw [BitVec.getLsbD_extractLsb', BitVec.getLsbD_setWidth, getLsbD_putBits x v fits, if_pos ⟨by omega, by omega⟩]
    simp
  rw [getBits, field, BitVec.toNat_setWidth]

/-- A field apart from the one replaced reads as before. -/
theorem getBits_putBits_of_apart (x v : Word) {lo len lo' len' : Nat} (fits : lo + len ≤ 64) (apart : lo' + len' ≤ lo ∨ lo + len ≤ lo') :
    getBits (putBits x lo len v) lo' len' = getBits x lo' len' :=
  getBits_congr fun i _ _ => getLsbD_putBits_of_not fits (by omega)

/-- A field whose bits are those of a number is that number. -/
theorem getBits_eq_toNat {x : Word} {lo len : Nat} {v : BitVec len} (h : ∀ i < len, x.getLsbD (lo + i) = v.getLsbD i) :
    getBits x lo len = v.toNat :=
  congrArg BitVec.toNat (BitVec.eq_of_getLsbD_eq fun i hi => by rw [BitVec.getLsbD_extractLsb', h i hi, decide_eq_true hi, Bool.true_and])

theorem getBits_lt (x : Word) (lo len : Nat) : getBits x lo len < 2 ^ len := (x.extractLsb' lo len).isLt

/-- A counting field counts up to its largest value. -/
theorem getBits_satAdd (x : Word) {lo len : Nat} (n : Nat) (fits : lo + len ≤ 64) :
    getBits (satAdd x lo len n) lo len = Nat.min (getBits x lo len + n) (2 ^ len - 1) := by
  have small : Nat.min (getBits x lo len + n) (2 ^ len - 1) < 2 ^ len :=
    Nat.lt_of_le_of_lt (Nat.min_le_right ..) (Nat.sub_lt (Nat.two_pow_pos len) Nat.one_pos)
  have wide : 2 ^ len ≤ 2 ^ 64 := Nat.pow_le_pow_right (by decide) (by omega)
  rw [satAdd, getBits_putBits _ _ fits, BitVec.toNat_ofNat, Nat.mod_eq_of_lt (Nat.lt_of_lt_of_le small wide), Nat.mod_eq_of_lt small]

end Sys2Proof.Machine
end

section
/-! What a read and a write at the homes and banks leave alone of the state (R64, R73, R126, R308). -/

namespace Sys2Proof.Machine

open Sys2Proof.Claims

/-- A stream without its wait, the one part of it that a write reaches (R315). -/
def Stream.offMemory (x : Stream) : Stream := { x with wait := .none }

/-- A context without what a write reaches: the waits of its streams, and ctl.chk, whose OVF it may set (R315, R371). -/
def Ctx.offMemory (x : Ctx) : Ctx := { x with chk := 0, prim := x.prim.offMemory, sec := x.sec.offMemory }

/-- A core without what reads and writes of its slice count (R123, R125, R335). -/
def Core.offMemory (k : Core) : Core :=
  { k with ctx := k.ctx.offMemory, shadow := k.shadow.offMemory, spstat := 0, spaddr := 0, writeback := [], highWater := 0 }

/-- A state without what the logging of a line changes: the log, the homes, the hub's vectors with the hub, and OVF in every context
of the task (R64, R306, R371). -/
def State.unlogged (s : State) : State :=
  { s with log := [], homes := State.reset.homes, hub := Hub.reset, tasks := [], cores := s.cores.map Core.offMemory }

/-- A state also without memory and its errors: what a read or a write at the homes and banks leaves of it. -/
def State.offMemory (s : State) : State := { s.unlogged with mem := [], poison := [], flips := [], fatals := [] }

theorem State.offMemory_of_unlogged {s t : State} (h : t.unlogged = s.unlogged) : t.offMemory = s.offMemory := by
  unfold State.offMemory
  rw [h]

/-- What changes no more than the log leaves memory and its errors. -/
theorem State.marks_of_unlogged {s t : State} (h : t.unlogged = s.unlogged) :
    t.mem = s.mem ∧ t.poison = s.poison ∧ t.flips = s.flips ∧ t.fatals = s.fatals :=
  ⟨(congrArg State.mem h :), (congrArg State.poison h :), (congrArg State.flips h :), (congrArg State.fatals h :)⟩

theorem State.core_offMemory (s : State) (c : CoreId) : s.offMemory.core c = (s.core c).offMemory := by
  simp [State.core, State.offMemory, State.unlogged]

theorem State.offMemory_core {s t : State} (h : t.offMemory = s.offMemory) (c : CoreId) : (t.core c).offMemory = (s.core c).offMemory := by
  rw [← State.core_offMemory, h, State.core_offMemory]

theorem Core.offMemory_bankCtx (k : Core) (sh : Bool) : k.offMemory.bankCtx sh = (k.bankCtx sh).offMemory := by
  cases sh <;> rfl

theorem Ctx.offMemory_stream (x : Ctx) (sec : Bool) : x.offMemory.stream sec = (x.stream sec).offMemory := by
  cases sec <;> rfl

/-- A stream of either bank keeps everything but its wait. -/
theorem State.offMemory_stream {s t : State} (h : t.offMemory = s.offMemory) (c : CoreId) (sh sec : Bool) :
    (((t.core c).bankCtx sh).stream sec).offMemory = (((s.core c).bankCtx sh).stream sec).offMemory := by
  rw [← Ctx.offMemory_stream, ← Ctx.offMemory_stream, ← Core.offMemory_bankCtx, ← Core.offMemory_bankCtx, State.offMemory_core h]

theorem State.offMemory_spdiag {s t : State} (h : t.offMemory = s.offMemory) (c : CoreId) : (t.core c).spdiag = (s.core c).spdiag :=
  show (t.core c).offMemory.spdiag = (s.core c).offMemory.spdiag by rw [State.offMemory_core h]

theorem State.offMemory_spdiagOf {s t : State} (h : t.offMemory = s.offMemory) (a : Nat) : t.spdiagOf a = s.spdiagOf a := by
  unfold State.spdiagOf
  split
  · split
    · exact State.offMemory_spdiag h _
    · rfl
  · rfl

theorem State.unlogged_updCore (s : State) (c : CoreId) {f : Core → Core} (h : ∀ k, (f k).offMemory = k.offMemory) :
    (s.updCore c f).unlogged = s.unlogged := by
  have cores : (s.cores.set c.val (f s.cores[c.val]) c.isLt).map Core.offMemory = s.cores.map Core.offMemory := by
    ext i hi
    simp only [Vector.getElem_map, Vector.getElem_set]
    split
    · next e => subst e; exact h _
    · rfl
  unfold State.unlogged State.updCore
  rw [cores]

theorem State.offMemory_updCore (s : State) (c : CoreId) {f : Core → Core} (h : ∀ k, (f k).offMemory = k.offMemory) :
    (s.updCore c f).offMemory = s.offMemory := State.offMemory_of_unlogged (s.unlogged_updCore c h)

theorem State.unlogged_updHome (s : State) (h : CoreId) (f : Home → Home) : (s.updHome h f).unlogged = s.unlogged := rfl

theorem State.unlogged_msix (s : State) (v : Nat) : (s.msix v).unlogged = s.unlogged := rfl

theorem State.unlogged_logOld (s : State) (w : Writer) (l : Nat) (kept : Bool) : (s.logOld w l kept).unlogged = s.unlogged := rfl

theorem State.offMemory_updHome (s : State) (h : CoreId) (f : Home → Home) : (s.updHome h f).offMemory = s.offMemory := rfl

theorem State.putByte_offMemory (s : State) (a : Nat) (b : Byte) : (s.putByte a b).offMemory = s.offMemory := rfl

/-- What every step of a fold leaves of the state, the fold leaves. -/
theorem foldl_view {σ α β : Type} {f : σ → α → σ} (view : σ → β) (h : ∀ t a, view (f t a) = view t) (l : List α) (s : σ) :
    view (l.foldl f s) = view s :=
  foldl_keeps (P := fun t => view t = view s) (fun t a e => (h t a).trans e) l s rfl

theorem State.noteLine_offMemory (s : State) (l : Nat) : (s.noteLine l).offMemory = s.offMemory := by
  have mark : ∀ (t : State) (l : Nat), (t.markUe l).offMemory = t.offMemory := fun t l => by
    unfold State.markUe
    extract_lets h was s1
    split <;> rfl
  have setHestat : ∀ (t : State) (c : CoreId) (b : Nat), (t.setHestat c b).offMemory = t.offMemory := fun _ _ _ => rfl
  unfold State.noteLine
  extract_lets h s1 u s2
  have h1 : s1.offMemory = s.offMemory := by
    unfold s1
    split <;> rfl
  have h2 : s2.offMemory = s.offMemory := by
    unfold s2
    split <;> exact h1
  split
  · rw [setHestat, mark, h2]
  · exact h2

theorem State.sliceUe_offMemory (s : State) (w : Nat) : (s.sliceUe w).offMemory = s.offMemory :=
  s.offMemory_updCore _ (fun _ => rfl)

theorem State.noteWord_offMemory (s : State) (w : Nat) : (s.noteWord w).offMemory = s.offMemory := by
  unfold State.noteWord
  extract_lets stuck flip s1
  repeat' split
  · rfl
  · rfl
  · exact s.sliceUe_offMemory w
  · exact s.offMemory_updCore _ (fun _ => rfl)
  · rfl

theorem State.noteUnit_offMemory (s : State) (u : Nat) : (s.noteUnit u).offMemory = s.offMemory := by
  unfold State.noteUnit
  repeat' split
  all_goals simp only [State.noteLine_offMemory, State.noteWord_offMemory]

theorem State.noteReads_offMemory (s : State) (as : List Nat) : (s.noteReads as).offMemory = s.offMemory :=
  foldl_view State.offMemory State.noteUnit_offMemory _ s

theorem State.cacheTouch_offMemory (s : State) (h : CoreId) (ia : Nat) (nt : Bool) : (s.cacheTouch h ia nt).offMemory = s.offMemory := by
  unfold State.cacheTouch State.noteWalk
  extract_lets a s1
  have h1 : s1.offMemory = s.offMemory := by
    unfold s1
    split <;> rfl
  repeat' split
  · exact h1
  · exact h1
  · exact h1
  · rfl

theorem State.unlogged_setOvf (s : State) (task : Nat) : (s.setOvf task).unlogged = s.unlogged := by
  have ctx : ∀ x : Ctx, (if x.task = task then { x with chk := x.chk ||| 8 } else x).offMemory = x.offMemory := fun x => by
    split <;> rfl
  have core : ∀ k : Core, ({ k with
      ctx := if k.ctx.task = task then { k.ctx with chk := k.ctx.chk ||| 8 } else k.ctx
      shadow := if k.shadow.task = task then { k.shadow with chk := k.shadow.chk ||| 8 } else k.shadow } : Core).offMemory = k.offMemory :=
    fun k => by simp only [Core.offMemory, ctx]
  exact foldl_view State.unlogged (fun t c => t.unlogged_updCore c core) _ _

theorem State.unlogged_trimLog (s : State) : s.trimLog.unlogged = s.unlogged := by
  unfold State.trimLog
  extract_lets lo s1
  exact foldl_view State.unlogged (fun t h => t.unlogged_updHome h _) _ s1

theorem State.unlogged_snapLine (s : State) (w : Writer) (l : Nat) : (s.snapLine w l).unlogged = s.unlogged := by
  unfold State.snapLine
  extract_lets m room
  split
  · exact s.unlogged_logOld ..
  · rw [State.unlogged_logOld, State.unlogged_updHome]
    split
    · rfl
    · exact s.unlogged_msix 1

theorem State.unlogged_logSnapshot (s : State) (w : Writer) (l : Nat) : (s.logSnapshot w l).unlogged = s.unlogged := by
  have trimmed := s.unlogged_trimLog
  unfold State.logSnapshot
  extract_lets t
  repeat' split
  · exact trimmed
  · exact (t.unlogged_logOld ..).trans trimmed
  · exact (t.unlogged_snapLine w l).trans trimmed

theorem State.unlogged_logCheckpoint (s : State) (w : Writer) (l : Nat) : (s.logCheckpoint w l).unlogged = s.unlogged := by
  unfold State.logCheckpoint
  split
  · rfl
  · extract_lets m
    repeat' split
    · rfl
    · exact s.unlogged_setOvf _
    · rfl

theorem State.unlogged_logLine (s : State) (w : Writer) (l : Nat) : (s.logLine w l).unlogged = s.unlogged := by
  unfold State.logLine
  extract_lets s1
  have h1 : s1.unlogged = s.unlogged := by
    unfold s1
    split
    · exact s.unlogged_logSnapshot w l
    · rfl
  split
  · exact (s1.unlogged_logCheckpoint w l).trans h1
  · exact h1

theorem State.putBytes_offMemory (s : State) (l : List (Nat × Byte)) : (s.putBytes l).offMemory = s.offMemory :=
  foldl_view State.offMemory (fun _ _ => State.putByte_offMemory ..) l s

theorem State.raiseHigh_offMemory (s : State) (a : Nat) : (s.raiseHigh a).offMemory = s.offMemory := by
  unfold State.raiseHigh
  split
  · exact s.offMemory_updCore _ (fun _ => rfl)
  · rfl

theorem State.writeUnit_offMemory (s : State) (w : Writer) (u : Nat) (bytes : List (Nat × Byte)) :
    (s.writeUnit w u bytes).offMemory = s.offMemory := by
  have put : ∀ t : State, ((t.putBytes bytes).raiseHigh u).offMemory = t.offMemory := fun t =>
    (State.raiseHigh_offMemory _ u).trans (t.putBytes_offMemory bytes)
  unfold State.writeUnit
  extract_lets as whole clear put' s1 s2 anew
  split
  · repeat' split
    · exact put s
    · exact (put _).trans (s.putBytes_offMemory _)
    · exact (State.sliceUe_offMemory _ u).trans (s.noteWord_offMemory u)
    · exact s.noteWord_offMemory u
    · refine (State.offMemory_updCore _ _ ?_).trans ((put s1).trans (s.noteWord_offMemory u))
      exact fun _ => rfl
  · exact (State.putBytes_offMemory _ bytes).trans (State.offMemory_of_unlogged (s.unlogged_logLine w u))

theorem State.rewatch_offMemory (s : State) (hit : Nat → Bool) : (s.rewatch hit).offMemory = s.offMemory := by
  have stream : ∀ x : Stream, (x.rewatch hit).offMemory = x.offMemory := fun x => by
    unfold Stream.rewatch
    repeat' split
    all_goals rfl
  refine foldl_view State.offMemory (fun t c => t.offMemory_updCore c (fun k => ?_)) _ s
  simp only [Core.updCtx, Core.offMemory, Ctx.offMemory, stream]

theorem State.applyWrite_offMemory (s : State) (w : Writer) (l : List (Nat × Byte)) : (s.applyWrite w l).offMemory = s.offMemory :=
  (State.rewatch_offMemory _ _).trans (foldl_view State.offMemory (fun t u => t.writeUnit_offMemory w u _) _ s)

theorem State.dropRequest_offMemory (s : State) (port : Option Nat) : (s.dropRequest port).offMemory = s.offMemory := by
  unfold State.dropRequest State.updPort
  repeat' split
  all_goals rfl

theorem State.dropWrite_offMemory (s : State) (as : List Nat) : (s.dropWrite as).offMemory = s.offMemory := by
  refine (foldl_view State.offMemory (fun t _ => t.dropRequest_offMemory none) _ _).trans ?_
  split <;> rfl

theorem State.deviceWrite_offMemory (s : State) (w : Writer) (l : List (Nat × Byte)) : (s.deviceWrite w l).offMemory = s.offMemory := by
  unfold State.deviceWrite
  repeat' split
  · rfl
  · exact s.applyWrite_offMemory w _
  · exact s.dropWrite_offMemory _

theorem State.snoopsUsed_offMemory (s : State) (as : List Nat) : (s.snoopsUsed as).offMemory = s.offMemory :=
  foldl_view State.offMemory (fun t l => t.offMemory_updHome (homeOf l) _) _ s

theorem State.agentWrite_offMemory (s : State) (w : Writer) (l : List (Nat × Byte)) (nt : Bool) :
    (s.agentWrite w l nt).offMemory = s.offMemory :=
  (foldl_view State.offMemory (fun t l => t.cacheTouch_offMemory _ l nt) _ _).trans
    ((State.deviceWrite_offMemory _ w l).trans (s.snoopsUsed_offMemory _))

end Sys2Proof.Machine
end

section
/-! Memory after a write: the bytes of a list, of a unit, and of a whole write (R52, R64, R73, R126, R308). -/

namespace Sys2Proof.Machine

open Sys2Proof.Claims

/-! ### Bytes after a list of writes -/

/-- A byte other than the one written reads as before, in any table. -/
theorem Memory.get_put_of_ne (m : Table Byte) {a a' : Nat} (b : Byte) (h : a ≠ a') : Memory.get (Memory.put m a b) a' = Memory.get m a' := by
  unfold Memory.get Memory.put
  induction m with
  | nil => unfold tput; split <;> simp [tget, h]
  | cons p r ih =>
    obtain ⟨k, v⟩ := p
    unfold tput
    split
    · split <;> simp [tget, h]
    · split
      · next e => subst e; split <;> simp [tget, h]
      · simp only [tget, ih]

theorem Memory.get_putAll_of_ne (m : Table Byte) {l : List (Nat × Byte)} {a : Nat} (h : ∀ p ∈ l, p.1 ≠ a) :
    Memory.get (Memory.putAll m l) a = Memory.get m a := by
  induction l generalizing m with
  | nil => rfl
  | cons p r ih => exact (ih _ (fun q hq => h q (.tail _ hq))).trans (Memory.get_put_of_ne m p.2 (h p (.head _)))

theorem Memory.putAll_append (m : Table Byte) (l r : List (Nat × Byte)) : Memory.putAll m (l ++ r) = Memory.putAll (Memory.putAll m l) r := by
  induction l generalizing m with
  | nil => rfl
  | cons p l ih => exact ih _

theorem aget_append {β : Type} (l r : List (Nat × β)) (k : Nat) : aget (l ++ r) k = (aget l k).or (aget r k) := by
  induction l with
  | nil => rfl
  | cons p l ih =>
    obtain ⟨k', v⟩ := p
    simp only [List.cons_append, aget]
    split
    · rfl
    · exact ih

/-- A byte after some writes is the one that the last write of it gave. -/
theorem Memory.get_putAll {m : Table Byte} (h : Memory.wf m = true) (l : List (Nat × Byte)) (a : Nat) :
    Memory.get (Memory.putAll m l) a = (aget l.reverse a).getD (Memory.get m a) := by
  induction l generalizing m with
  | nil => rfl
  | cons p l ih =>
    obtain ⟨k, v⟩ := p
    rw [List.reverse_cons, aget_append]
    refine (ih (Memory.wf_put k v h)).trans ?_
    cases aget l.reverse a with
    | some b => rfl
    | none =>
      rw [Memory.get_put h]
      by_cases e : k = a
      · simp [aget, e]
      · simp [aget, e, Ne.symm e]

theorem aget_filter {β : Type} (l : List (Nat × β)) (f : Nat → Bool) (k : Nat) :
    aget (l.filter (fun p => f p.1)) k = if f k then aget l k else none := by
  induction l with
  | nil => simp [aget]
  | cons p l ih =>
    obtain ⟨k', v⟩ := p
    by_cases e : k' = k
    · subst e
      by_cases hf : f k' <;> simp [aget, hf, ih]
    · by_cases hf : f k' <;> simp [aget, hf, ih, e]

theorem aget_isSome_iff {β : Type} (l : List (Nat × β)) (k : Nat) : (aget l k).isSome = true ↔ ∃ p ∈ l, p.1 = k := by
  induction l with
  | nil => simp [aget]
  | cons p l ih =>
    obtain ⟨k', v⟩ := p
    by_cases e : k' = k <;> simp [aget, e, ih]

/-- The bytes from a first address on, as the last write of each gave them. -/
theorem aget_reverse_atAddr (a : Nat) (data : List Byte) (k : Nat) :
    aget (atAddr a data).reverse k = if a ≤ k ∧ k < a + data.length then some (data.getD (k - a) 0) else none := by
  induction data generalizing a with
  | nil => simp [atAddr, aget]
  | cons b r ih =>
    rw [atAddr, List.reverse_cons, aget_append, ih]
    by_cases e : a = k
    · subst e; simp [aget]
    · have shift : a ≤ k → k - a = (k - (a + 1)) + 1 := by omega
      by_cases inside : a + 1 ≤ k ∧ k < a + 1 + r.length
      · have outer : a ≤ k ∧ k < a + (r.length + 1) := by omega
        simp [inside, outer, shift outer.1]
      · have outer : ¬(a ≤ k ∧ k < a + (b :: r).length) := by simp only [List.length_cons]; omega
        rw [if_neg inside, if_neg outer]
        simp [aget, e]

/-- Bytes grouped by unit, in whatever order of units, are the bytes themselves: the last write of each address is the same. -/
theorem aget_reverse_groups (bytes : List (Nat × Byte)) (us : List Nat) (a : Nat) :
    aget (us.flatMap (fun u => bytes.filter (fun p => unitOf p.1 = u))).reverse a = if unitOf a ∈ us then aget bytes.reverse a else none := by
  induction us with
  | nil => rfl
  | cons u us ih =>
    rw [List.flatMap_cons, List.reverse_append, aget_append, ih, ← List.filter_reverse, aget_filter bytes.reverse (fun x => decide (unitOf x = u))]
    by_cases here : unitOf a = u <;> by_cases later : unitOf a ∈ us <;> simp [here, later]
    · subst here; simp [later]
    · subst here; simp [later]

/-! ### Units and their regions (R52, R73, R123) -/

/-- Every boundary of the map is a multiple of 64 bytes, so a unit lies in one region. -/
theorem regionOf_aligned (a : Nat) {n : Nat} (h : n = 8 ∨ n = 64) : regionOf (a / n * n) = regionOf a := by
  have below : ∀ c, c % 64 = 0 → (a / n * n < c ↔ a < c) := fun c hc => by rcases h with rfl | rfl <;> omega
  have minus : ∀ b, b % 64 = 0 → a / n * n - b = (a - b) / n * n := fun b hb => by rcases h with rfl | rfl <;> omega
  have div : ∀ x : Nat, x / n * n / 0x10000000 = x / 0x10000000 ∧ x / n * n / 2 ^ 31 = x / 2 ^ 31 ∧
      x / n * n / 2 ^ 41 = x / 2 ^ 41 ∧ x / n * n / 2 ^ 44 = x / 2 ^ 44 ∧ x / n * n / 2 ^ 28 = x / 2 ^ 28 := fun x => by
    rcases h with rfl | rfl <;> omega
  have mod : ∀ x : Nat, (x / n * n % 0x10000000 < 0x6000000 ↔ x % 0x10000000 < 0x6000000) ∧ x / n * n % 2 ^ 41 = x % 2 ^ 41 / n * n ∧
      (x / n * n < 2 ^ 40 ↔ x < 2 ^ 40) := fun x => by
    rcases h with rfl | rfl <;> omega
  unfold regionOf sliceBytes
  simp only [below _ (show 0x1000000000000 % 64 = 0 by decide), below _ (show 0x1800000000000 % 64 = 0 by decide),
    below _ (show 0x2000000000000 % 64 = 0 by decide), below _ (show 0x4000000000000 % 64 = 0 by decide),
    below _ (show 0x5000000000000 % 64 = 0 by decide), below _ (show 0x8000000000000 % 64 = 0 by decide),
    below _ (show 0x10000000000000 % 64 = 0 by decide), minus _ (show 0x1000000000000 % 64 = 0 by decide),
    minus _ (show 0x2000000000000 % 64 = 0 by decide), minus _ (show 0x8000000000000 % 64 = 0 by decide),
    fun x => (div x).1, fun x => (div x).2.1, fun x => (div x).2.2.1, fun x => (div x).2.2.2.1, fun x => (div x).2.2.2.2,
    fun x => (mod x).1, fun x => (mod x).2.1, fun x => (mod x).2.2]

theorem regionOf_unitOf (a : Nat) : regionOf (unitOf a) = regionOf a := by
  unfold unitOf
  split
  · exact regionOf_aligned a (.inl rfl)
  · exact regionOf_aligned a (.inl rfl)
  · exact regionOf_aligned a (.inr rfl)



theorem State.spdiagOf_unitOf (s : State) (a : Nat) : s.spdiagOf (unitOf a) = s.spdiagOf a := by
  unfold State.spdiagOf
  rw [regionOf_unitOf]

theorem State.putBytes_mem (s : State) (l : List (Nat × Byte)) : (s.putBytes l).mem = Memory.putAll s.mem l := by
  induction l generalizing s with
  | nil => rfl
  | cons p r ih => exact ih (s.putByte p.1 p.2)

theorem State.putBytes_marks (s : State) (l : List (Nat × Byte)) :
    (s.putBytes l).poison = s.poison ∧ (s.putBytes l).fatals = s.fatals := by
  induction l generalizing s with
  | nil => exact ⟨rfl, rfl⟩
  | cons p r ih => exact ih (s.putByte p.1 p.2)

theorem State.raiseHigh_frame (s : State) (a : Nat) :
    (s.raiseHigh a).mem = s.mem ∧ (s.raiseHigh a).poison = s.poison ∧ (s.raiseHigh a).fatals = s.fatals := by
  unfold State.raiseHigh
  split <;> exact ⟨rfl, rfl, rfl⟩

/-! ### The write of a unit (R64, R73, R126) -/

/-- A unit takes a write as it stands: it lies outside the slices, or in one that is read as it is, and has no error (R123,
R126, R411). -/
def State.Sound (s : State) (u : Nat) : Prop :=
  ∀ k, regionOf u = .slice k → s.spdiagOf u = 0 ∧ u ∉ s.poison ∧ u ∉ s.fatals

theorem State.noteWord_sound {s : State} {u : Nat} (diag : s.spdiagOf u = 0) (fatal : u ∉ s.fatals) :
    (s.noteWord u).poison = s.poison ∧ (s.noteWord u).fatals = s.fatals := by
  have undetected : (s.fatals.contains u || (s.stuckDiffers u && s.flips.contains u)) = false := by
    simp [State.stuckDiffers, diag, stuckAt, fatal]
  unfold State.noteWord
  extract_lets stuck flip s1
  rw [undetected]
  repeat' split
  · exact ⟨rfl, rfl⟩
  · exact ⟨rfl, rfl⟩
  · contradiction
  · exact ⟨rfl, rfl⟩
  · exact ⟨rfl, rfl⟩

/-- A unit of a slice that is read as it is takes its bytes or drops them. -/
theorem State.writeUnit_mem {s : State} {u : Nat} (read : (s.spdiagOf u).getLsbD 2 = false) (w : Writer) (bytes : List (Nat × Byte)) :
    (s.writeUnit w u bytes).mem = Memory.putAll s.mem bytes ∨ (s.writeUnit w u bytes).mem = s.mem := by
  have put : ∀ t : State, ((t.putBytes bytes).raiseHigh u).mem = Memory.putAll t.mem bytes := fun t =>
    (State.raiseHigh_frame _ u).1.trans (t.putBytes_mem bytes)
  unfold State.writeUnit
  extract_lets as whole clear put' s1 s2 anew
  split
  · rw [read]
    repeat' split
    · exact .inl (put s)
    · contradiction
    · exact .inr (s.noteWord_mem u)
    · exact .inr (s.noteWord_mem u)
    · exact .inl ((put s1).trans (by rw [s.noteWord_mem u]))
  · refine .inl ((State.putBytes_mem _ bytes).trans ?_)
    rw [(State.marks_of_unlogged (s.unlogged_logLine w u)).1]

/-- A sound unit takes every byte, and loses marks of errors only. -/
theorem State.writeUnit_sound {s : State} {u : Nat} (h : s.Sound u) (w : Writer) (bytes : List (Nat × Byte)) :
    (s.writeUnit w u bytes).mem = Memory.putAll s.mem bytes ∧ (∀ x ∈ (s.writeUnit w u bytes).poison, x ∈ s.poison) ∧
      (∀ x ∈ (s.writeUnit w u bytes).fatals, x ∈ s.fatals) := by
  have put : ∀ t : State, ((t.putBytes bytes).raiseHigh u).mem = Memory.putAll t.mem bytes ∧
      ((t.putBytes bytes).raiseHigh u).poison = t.poison ∧ ((t.putBytes bytes).raiseHigh u).fatals = t.fatals := fun t => by
    obtain ⟨mem, poison, fatals⟩ := State.raiseHigh_frame (t.putBytes bytes) u
    exact ⟨mem.trans (t.putBytes_mem bytes), poison.trans (t.putBytes_marks bytes).1, fatals.trans (t.putBytes_marks bytes).2⟩
  unfold State.writeUnit
  extract_lets as whole clear put' s1 s2 anew
  split
  case h_1 k slice =>
    obtain ⟨diag, poison, fatal⟩ := h k slice
    obtain ⟨poison1, fatals1⟩ := State.noteWord_sound diag fatal
    have raw : (s.spdiagOf u).getLsbD 2 = false := by rw [diag]; rfl
    have clean : s.poison.contains u = false := by simpa using poison
    have clean1 : s1.poison.contains u = false := by rw [poison1]; exact clean
    obtain ⟨mem, poisonPut, fatalsPut⟩ := put s
    obtain ⟨mem1, poisonPut1, fatalsPut1⟩ := put s1
    split
    · refine ⟨mem, fun x hx => ?_, fun x hx => ?_⟩
      · exact poisonPut ▸ (List.mem_filter.1 hx).1
      · exact fatalsPut ▸ (List.mem_filter.1 hx).1
    · simp only [raw, clean, clean1, Bool.false_eq_true, if_false]
      refine ⟨mem1.trans (by rw [s.noteWord_mem u]), fun x hx => ?_, fun x hx => ?_⟩
      · exact (poisonPut1.trans poison1) ▸ hx
      · exact (fatalsPut1.trans fatals1) ▸ hx
  case h_2 =>
    obtain ⟨mem, poison, -, fatals⟩ := State.marks_of_unlogged (s.unlogged_logLine w u)
    obtain ⟨poisonPut, fatalsPut⟩ := (s.logLine w u).putBytes_marks bytes
    refine ⟨((s.logLine w u).putBytes_mem bytes).trans (by rw [mem]), fun x hx => ?_, fun x hx => ?_⟩
    · have kept : x ∈ ((s.logLine w u).putBytes bytes).poison := by
        dsimp only at hx
        split at hx
        · exact (List.mem_filter.1 hx).1
        · exact hx
      exact (poisonPut.trans poison) ▸ kept
    · exact (fatalsPut.trans fatals) ▸ (List.mem_filter.1 hx).1

/-- What is sound stays so after a write of a sound unit. -/
theorem State.Sound.writeUnit {s : State} {u v : Nat} (h : s.Sound u) (w : Writer) (bytes : List (Nat × Byte)) (hv : s.Sound v) :
    (s.writeUnit w u bytes).Sound v := fun k slice => by
  obtain ⟨-, poison, fatals⟩ := State.writeUnit_sound h w bytes
  obtain ⟨diag, p, f⟩ := hv k slice
  exact ⟨(State.offMemory_spdiagOf (s.writeUnit_offMemory w u bytes) v).trans diag, fun e => p (poison v e), fun e => f (fatals v e)⟩

/-! ### The write of a list of bytes (R308) -/

/-- Sound units take their groups of bytes in turn. -/
theorem State.writeUnits_mem {s : State} {us : List Nat} (h : ∀ u ∈ us, s.Sound u) (w : Writer) (part : Nat → List (Nat × Byte)) :
    (us.foldl (fun s u => s.writeUnit w u (part u)) s).mem = Memory.putAll s.mem (us.flatMap part) := by
  induction us generalizing s with
  | nil => rfl
  | cons u us ih =>
    have sound := h u (.head _)
    refine (ih (fun v hv => sound.writeUnit w _ (h v (.tail _ hv)))).trans ?_
    rw [(State.writeUnit_sound sound w _).1, List.flatMap_cons, Memory.putAll_append]

theorem State.rewatch_mem (s : State) (hit : Nat → Bool) : (s.rewatch hit).mem = s.mem :=
  foldl_view State.mem (fun t c => t.updCtx_mem c _) _ s

/-- A write of sound units: each byte reads as the last write of it says, and every other byte as before. -/
theorem State.get_applyWrite {s : State} {l : List (Nat × Byte)} (wf : Memory.wf s.mem = true)
    (sound : ∀ p ∈ s.placed l, s.Sound (unitOf p.1)) (w : Writer) (a : Nat) :
    Memory.get (s.applyWrite w l).mem a = (aget (s.placed l).reverse a).getD (Memory.get s.mem a) := by
  have units : ∀ u ∈ unitsOf ((s.placed l).map (·.1)), s.Sound u := fun u hu => by
    obtain ⟨x, hx, rfl⟩ := List.mem_map.1 (List.mem_eraseDups.1 hu)
    obtain ⟨p, hp, rfl⟩ := List.mem_map.1 hx
    exact sound p hp
  have mem := State.writeUnits_mem units w (fun u => (s.placed l).filter (fun p => unitOf p.1 = u))
  rw [State.applyWrite, State.rewatch_mem, mem, Memory.get_putAll wf, aget_reverse_groups]
  split
  · rfl
  · next absent =>
    have unnamed : aget (s.placed l).reverse a = none := by
      rw [← Option.not_isSome_iff_eq_none, aget_isSome_iff]
      rintro ⟨p, hp, rfl⟩
      exact absent (List.mem_eraseDups.2 (List.mem_map_of_mem (List.mem_map_of_mem (List.mem_reverse.1 hp))))
    rw [unnamed]

/-- A byte that a write does not name reads as before (R411 apart, where a partial write stores its whole word). -/
theorem State.get_applyWrite_of_ne {s : State} {l : List (Nat × Byte)} (read : ∀ p ∈ s.placed l, (s.spdiagOf p.1).getLsbD 2 = false)
    (w : Writer) {a : Nat} (ne : ∀ p ∈ s.placed l, p.1 ≠ a) : Memory.get (s.applyWrite w l).mem a = Memory.get s.mem a := by
  rw [State.applyWrite, State.rewatch_mem]
  have units : ∀ u ∈ unitsOf ((s.placed l).map (·.1)), (s.spdiagOf u).getLsbD 2 = false := fun u hu => by
    obtain ⟨x, hx, rfl⟩ := List.mem_map.1 (List.mem_eraseDups.1 hu)
    obtain ⟨p, hp, rfl⟩ := List.mem_map.1 hx
    rw [s.spdiagOf_unitOf]
    exact read p hp
  generalize unitsOf ((s.placed l).map (·.1)) = us at units
  generalize hb : s.placed l = bytes at ne
  clear read hb
  induction us generalizing s with
  | nil => rfl
  | cons u us ih =>
    refine (ih (fun v hv => ?_)).trans ?_
    · rw [State.offMemory_spdiagOf (s.writeUnit_offMemory w u _)]
      exact units v (.tail _ hv)
    · rcases State.writeUnit_mem (units u (.head _)) w (bytes.filter (fun p => unitOf p.1 = u)) with mem | mem
      · rw [mem]
        exact Memory.get_putAll_of_ne _ (fun p hp => ne p (List.mem_filter.1 hp).1)
      · rw [mem]

end Sys2Proof.Machine
end

section
/-! Memory after a write of an agent and after a read from outside (R69, R71, R79, R85). -/

namespace Sys2Proof.Machine

open Sys2Proof.Claims

/-- A state with other homes. -/
def State.withHomes (s : State) (x : Vector Home 8) : State := { s with homes := x }

/-- What changes only homes is the state with other homes. -/
theorem foldl_homes {α : Type} {f : State → α → State} (h : ∀ t a, ∃ x, f t a = t.withHomes x) (l : List α) (s : State) :
    ∃ x, l.foldl f s = s.withHomes x :=
  foldl_keeps (P := fun t => ∃ x, t = s.withHomes x) (fun t a ⟨x, e⟩ => by
    obtain ⟨y, hy⟩ := h t a
    exact ⟨y, by rw [hy, e]; rfl⟩) l s ⟨s.homes, rfl⟩

theorem State.snoopsUsed_homes (s : State) (as : List Nat) : ∃ x, s.snoopsUsed as = s.withHomes x :=
  foldl_homes (fun _ _ => ⟨_, rfl⟩) _ s

theorem State.noteWalk_homes (s : State) (c : CoreId) (a : Nat) : ∃ x, s.noteWalk c a = s.withHomes x := by
  unfold State.noteWalk
  split
  · exact ⟨_, rfl⟩
  · exact ⟨s.homes, rfl⟩

theorem State.cacheTouch_homes (s : State) (h : CoreId) (ia : Nat) (nt : Bool) : ∃ x, s.cacheTouch h ia nt = s.withHomes x := by
  unfold State.cacheTouch
  extract_lets a s1
  obtain ⟨x, hx⟩ := s.noteWalk_homes h a
  have walked : s1 = s.withHomes x := hx
  split
  · split
    · exact ⟨x, walked⟩
    · split
      · exact ⟨_, by rw [walked]; rfl⟩
      · exact ⟨x, walked⟩
  · exact ⟨s.homes, rfl⟩

theorem State.cacheTouches_homes {α : Type} (at_ : State → α → CoreId) (ia : α → Nat) (nt : Bool) (l : List α) (s : State) :
    ∃ x, l.foldl (fun s y => s.cacheTouch (at_ s y) (ia y) nt) s = s.withHomes x :=
  foldl_homes (fun t y => t.cacheTouch_homes (at_ t y) (ia y) nt) l s

theorem State.dropWrite_mem (s : State) (as : List Nat) : (s.dropWrite as).mem = s.mem := by
  have request : ∀ (t : State) (b : Nat), (t.dropRequest none).mem = t.mem := fun _ _ => rfl
  refine (foldl_view State.mem request _ _).trans ?_
  split <;> rfl

/-- A write of an agent changes memory as the write of its bytes does, or not at all where no link carries it (R85). -/
theorem State.agentWrite_mem (s : State) (w : Writer) (l : List (Nat × Byte)) (nt : Bool) :
    ∃ x, (s.agentWrite w l nt).mem = if l = [] ∨ ∃ p ∈ l.head?, s.linkUp (regionOf p.1) = false then s.mem
      else ((s.withHomes x).applyWrite w l).mem := by
  obtain ⟨x, used⟩ := s.snoopsUsed_homes (l.map (·.1))
  obtain ⟨y, touched⟩ := State.cacheTouches_homes (fun s l => homeOf (s.place l)) id nt (linesOf (l.map (·.1)))
    ((s.withHomes x).deviceWrite w l)
  refine ⟨x, ?_⟩
  unfold State.agentWrite
  extract_lets as
  rw [used]
  refine (congrArg State.mem touched).trans ?_
  show ((s.withHomes x).deviceWrite w l).mem = _
  cases l with
  | nil => rfl
  | cons p r =>
    obtain ⟨a, b⟩ := p
    unfold State.deviceWrite
    dsimp only
    have same : (s.withHomes x).linkUp (regionOf a) = s.linkUp (regionOf a) := rfl
    rw [same]
    by_cases up : s.linkUp (regionOf a) = true
    · rw [if_pos up, if_neg (by simp [up])]
    · rw [if_neg up, if_pos (by simp [up])]
      exact State.dropWrite_mem _ _

theorem State.get_agentWrite {s : State} {l : List (Nat × Byte)} (wf : Memory.wf s.mem = true)
    (sound : ∀ p ∈ s.placed l, s.Sound (unitOf p.1)) (up : ∀ p ∈ l, s.linkUp (regionOf p.1) = true) (w : Writer) (nt : Bool) (a : Nat) :
    Memory.get (s.agentWrite w l nt).mem a = (aget (s.placed l).reverse a).getD (Memory.get s.mem a) := by
  obtain ⟨x, mem⟩ := s.agentWrite_mem w l nt
  rw [mem]
  split
  · next none =>
    rcases none with rfl | ⟨p, hp, down⟩
    · rfl
    · rw [up p (List.mem_of_mem_head? hp)] at down
      cases down
  · exact State.get_applyWrite (s := s.withHomes x) wf sound w a

theorem State.get_agentWrite_of_ne {s : State} {l : List (Nat × Byte)} (read : ∀ p ∈ s.placed l, (s.spdiagOf p.1).getLsbD 2 = false)
    (w : Writer) (nt : Bool) {a : Nat} (ne : ∀ p ∈ s.placed l, p.1 ≠ a) :
    Memory.get (s.agentWrite w l nt).mem a = Memory.get s.mem a := by
  obtain ⟨x, mem⟩ := s.agentWrite_mem w l nt
  rw [mem]
  split
  · rfl
  · exact State.get_applyWrite_of_ne (s := s.withHomes x) read w ne

theorem State.serveOutside_mem (s : State) (as : List Nat) : (s.serveOutside as).mem = s.mem := by
  obtain ⟨x, touched⟩ := State.cacheTouches_homes (fun s l => homeOf (s.place l)) id false (linesOf as) (s.noteReads as)
  exact (congrArg State.mem touched).trans (s.noteReads_mem as)

end Sys2Proof.Machine
end

section
/-! The applied store (R63, R64, R69, R79, R84, R85, R187, R203, R308). -/

namespace Sys2Proof.Machine

open Sys2Proof.Claims

/-! ### Operations that end -/

theorem Core.bankCtx_updBank (k : Core) (sh : Bool) (f : Ctx → Ctx) : (k.updBank sh f).bankCtx sh = f (k.bankCtx sh) := by
  cases sh <;> rfl

/-- A stream of either bank after a change of it. -/
theorem State.bankStream_updBankStream (s : State) (c : CoreId) (sh sec : Bool) (f : Stream → Stream) :
    (((s.updBankStream c sh sec f).core c).bankCtx sh).stream sec = f (((s.core c).bankCtx sh).stream sec) := by
  unfold State.updBankStream State.updBank
  rw [State.core_updCore, Core.bankCtx_updBank, Ctx.stream_updStream]

theorem Ctx.mem_ops_of_findOp {x : Ctx} {id : Nat} {b : Bool} {o : Op} (h : x.findOp id = some (b, o)) : o ∈ (x.stream b).ops := by
  unfold Ctx.findOp at h
  split at h
  · next q found =>
    cases h
    exact List.mem_of_find?_eq_some found
  · obtain ⟨q, found, same⟩ := Option.map_eq_some_iff.1 h
    cases same
    exact List.mem_of_find?_eq_some found

theorem Core.mem_ops_of_opBank {k : Core} {id : Nat} {sh sec : Bool} {o : Op} (h : k.opBank id = some (sh, sec, o)) :
    o ∈ ((k.bankCtx sh).stream sec).ops := by
  unfold Core.opBank at h
  split at h
  · next b q found =>
    cases h
    exact Ctx.mem_ops_of_findOp found
  · obtain ⟨r, found, same⟩ := Option.map_eq_some_iff.1 h
    cases same
    exact Ctx.mem_ops_of_findOp found

/-- No operation of the number is left. -/
theorem Stream.endOp_ops (x : Stream) (o : Op) : (x.endOp o).ops = x.ops.filter (fun q => q.id ≠ o.id) := by
  unfold Stream.endOp
  extract_lets y
  repeat' split
  all_goals rfl

theorem Stream.endOp_st {x : Stream} {o : Op} {bytes : List (Nat × Byte)} {fresh host : Bool} (kind : o.kind = .store bytes fresh host) :
    (x.endOp o).st = fell x o.id x.st := by
  unfold Stream.endOp fell
  rw [kind]
  by_cases old : o.id < x.opBase
  · simp [old]
  · simp [old, Nat.le_of_not_lt old]

/-- The store has ended in its stream: the counter has fallen, and no operation of its number is left. -/
def StoreEnded (x y : Stream) (o : Op) : Prop := y.st = fell x o.id x.st ∧ ∀ p ∈ y.ops, p.id ≠ o.id

theorem storeEnded_endOp {x y : Stream} {o : Op} {bytes : List (Nat × Byte)} {fresh host : Bool} (kind : o.kind = .store bytes fresh host)
    (off : y.offMemory = x.offMemory) (n : Nat) : StoreEnded x ((y.endOp o).markApplied o.id n) o := by
  have st : y.st = x.st := (congrArg Stream.st off :)
  have base : y.opBase = x.opBase := (congrArg Stream.opBase off :)
  refine ⟨?_, fun p hp => ?_⟩
  · show (y.endOp o).st = _
    rw [Stream.endOp_st kind, fell, fell, st, base]
  · have left : p ∈ (y.endOp o).ops := hp
    rw [Stream.endOp_ops] at left
    exact of_decide_eq_true (List.mem_filter.1 left).2

/-- An operation that waits for no grant goes on at once (R121). -/
theorem State.withGrants_granted {s : State} {c : CoreId} {sh sec : Bool} {o : Op} (found : (s.core c).opBank o.id = some (sh, sec, o))
    (granted : o.waits = []) (e : Instr) (k : State → Bool → Bool → Op → State) : s.withGrants c o.id e k = .next (k s sh sec o) := by
  unfold State.withGrants State.opTakes
  rw [found]
  simp only [granted, if_true]

/-! ### Whether a write may be applied (R69, R79, R207) -/

/-- A write that may be applied leaves everything but what the homes hold. -/
theorem State.writeReady_homes {s : State} {e : Instr} {as : List Nat} (ready : (s.writeReady e as).2 = true) :
    ∃ x, (s.writeReady e as).1 = s.withHomes x := by
  unfold State.writeReady at ready ⊢
  dsimp only at ready ⊢
  split at ready
  · next apply_ =>
    rw [if_pos apply_]
    refine foldl_homes (fun t p => ?_) _ s
    unfold State.unholdWrite
    split
    · exact ⟨_, rfl⟩
    · exact ⟨t.homes, rfl⟩
  · cases ready

/-- A state without its homes and the events under way: what the holding of a write leaves of it, which sends its invalidations
and snoops. -/
def State.besideHomes (s : State) : State := { s with homes := State.reset.homes, agenda := [], delays := [] }

theorem State.after_besideHomes (s : State) (i : Instr) : (s.after i).besideHomes = s.besideHomes := rfl

theorem State.afterN_besideHomes (s : State) (n : Nat) (i : Instr) : (s.afterN n i).besideHomes = s.besideHomes := rfl

theorem State.holdWrite_besideHomes (s : State) (e : Instr) (page : Nat) : (s.holdWrite e page).besideHomes = s.besideHomes := by
  unfold State.holdWrite
  split <;> rfl

theorem State.invalidate_besideHomes (s : State) (line : Nat) : (s.invalidate line).besideHomes = s.besideHomes := by
  unfold State.invalidate
  extract_lets h m s1
  split
  · rfl
  · refine (foldl_view State.besideHomes (fun t c => ?_) _ s1).trans rfl
    rw [State.afterN_besideHomes, State.after_besideHomes]

theorem State.snoop_besideHomes (s : State) (l : Nat) : (s.snoop l).besideHomes = s.besideHomes := by
  unfold State.snoop
  split <;> rfl

theorem State.writeReady_besideHomes (s : State) (e : Instr) (as : List Nat) : (s.writeReady e as).1.besideHomes = s.besideHomes := by
  unfold State.writeReady
  extract_lets ls pages copied waiting
  split
  · refine foldl_view State.besideHomes (fun t p => ?_) _ s
    unfold State.unholdWrite
    split <;> rfl
  · exact (foldl_view _ State.snoop_besideHomes _ _).trans ((foldl_view _ State.invalidate_besideHomes _ _).trans
      (foldl_view _ (fun t p => t.holdWrite_besideHomes e p) _ s))

/-! ### The store -/

/-- The state once the home of a store lets it through. lost: its requests sent on no port; rest: those whose port is down. -/
def State.letThrough (s : State) (c : CoreId) (sh sec : Bool) (o : Op) (bytes : List (Nat × Byte)) (fresh host : Bool)
    (lost rest : List (Nat × Option Nat)) : State :=
  let of := fun (ps : List (Nat × Option Nat)) (b : Nat × Byte) => ps.any (fun p => p.1 = b.1 / 256)
  let s1 := s.agentWrite (((s.core c).bankCtx sh).writer c sec) (bytes.filter (fun b => !of lost b && !of rest b)) o.nt
  let s2 := lost.foldl (fun s p => s.dropRequest p.2) s1
  s2.updBankStream c sh sec (fun x =>
    if rest = [] then (x.endOp o).markApplied o.id s2.now
    else x.updOp o.id (fun o => { o with kind := .store (bytes.filter (of rest)) fresh host, ports := rest }))

/-- A request of a store whose port has left the up state (R85). -/
def State.requestDown (s : State) (q : Nat × Option Nat) : Bool :=
  match q.2 with
  | some i => !s.portUp i
  | none => false

/-- A store goes by what its homes say of its bytes. -/
theorem exec_storeApplied {s : State} {c : CoreId} {sh sec fresh host : Bool} {o : Op} {bytes : List (Nat × Byte)}
    (found : (s.core c).opBank o.id = some (sh, sec, o)) (granted : o.waits = []) (kind : o.kind = .store bytes fresh host) :
    exec (.storeApplied c o.id) s =
      .next (if (s.writeReady (.storeApplied c o.id) (bytes.map (·.1))).2 then
          (s.writeReady (.storeApplied c o.id) (bytes.map (·.1))).1.letThrough c sh sec o bytes fresh host
            (o.ports.filter (fun p => p.2.isNone)) (o.ports.filter s.requestDown)
        else (s.writeReady (.storeApplied c o.id) (bytes.map (·.1))).1.afterN 1 (.storeApplied c o.id)) := by
  show execStoreApplied c o.id s = _
  unfold execStoreApplied
  rw [State.withGrants_granted found granted]
  simp only [kind]
  rfl

theorem State.agentWrite_nil (s : State) (w : Writer) (nt : Bool) : s.agentWrite w [] nt = s := rfl

/-- The stream of an operation whose write has been let through, by what became of its requests. -/
theorem State.stream_letThrough (s : State) (c : CoreId) (sh sec : Bool) (o : Op) (bytes : List (Nat × Byte)) (fresh host : Bool)
    (lost rest : List (Nat × Option Nat)) :
    ∃ (y : Stream) (n : Nat), y.offMemory = (((s.core c).bankCtx sh).stream sec).offMemory ∧
      (((s.letThrough c sh sec o bytes fresh host lost rest).core c).bankCtx sh).stream sec =
        if rest = [] then (y.endOp o).markApplied o.id n
        else y.updOp o.id (fun o => { o with kind := .store (bytes.filter (fun b => rest.any (fun p => p.1 = b.1 / 256))) fresh host, ports := rest }) := by
  unfold State.letThrough
  extract_lets of s1 s2
  refine ⟨((s2.core c).bankCtx sh).stream sec, s2.now, State.offMemory_stream ?_ c sh sec, State.bankStream_updBankStream ..⟩
  exact (foldl_view State.offMemory (fun t p => t.dropRequest_offMemory p.2) lost s1).trans (s.agentWrite_offMemory _ _ _)

theorem State.dropRequest_mem (s : State) (port : Option Nat) : (s.dropRequest port).mem = s.mem := by
  unfold State.dropRequest State.updPort
  repeat' split
  all_goals rfl

theorem State.mem_letThrough (s : State) (c : CoreId) (sh sec : Bool) (o : Op) (bytes : List (Nat × Byte)) (fresh host : Bool)
    (lost rest : List (Nat × Option Nat)) :
    (s.letThrough c sh sec o bytes fresh host lost rest).mem =
      (s.agentWrite (((s.core c).bankCtx sh).writer c sec) (bytes.filter (fun b => !(lost.any (fun p => p.1 = b.1 / 256)) &&
        !(rest.any (fun p => p.1 = b.1 / 256)))) o.nt).mem :=
  foldl_view State.mem (fun t (p : Nat × Option Nat) => t.dropRequest_mem p.2) lost _

/-- Where the bytes all lie in the block of a request that is dropped or kept, none of them is written. -/
theorem State.letThrough_of_block (s : State) (c : CoreId) (sh sec : Bool) (o : Op) {bytes : List (Nat × Byte)} (fresh host : Bool)
    {lost rest : List (Nat × Option Nat)} (held : ∀ b ∈ bytes, (lost ++ rest).any (fun p => p.1 = b.1 / 256) = true) :
    s.letThrough c sh sec o bytes fresh host lost rest = (lost.foldl (fun s p => s.dropRequest p.2) s).updBankStream c sh sec (fun x =>
      if rest = [] then (x.endOp o).markApplied o.id (lost.foldl (fun s p => s.dropRequest p.2) s).now
      else x.updOp o.id (fun o =>
        { o with kind := .store (bytes.filter (fun b => rest.any (fun p => p.1 = b.1 / 256))) fresh host, ports := rest })) := by
  have none : bytes.filter (fun b => !(lost.any (fun p => p.1 = b.1 / 256)) && !(rest.any (fun p => p.1 = b.1 / 256))) = [] := by
    rw [List.filter_eq_nil_iff]
    intro b hb
    have := held b hb
    rw [List.any_append] at this
    simp [← Bool.not_or, this]
  unfold State.letThrough
  extract_lets of s1 s2
  have unwritten : s1 = s := (congrArg (fun l => s.agentWrite _ l o.nt) none).trans (s.agentWrite_nil _ _)
  have dropped : s2 = lost.foldl (fun s p => s.dropRequest p.2) s := congrArg (fun t => lost.foldl _ t) unwritten
  rw [dropped]

/-- Settles O15: by what its homes and ports say of it, the store is written, dropped, left outstanding, or tried again. -/
theorem storesApply : Obligations.StoresApply := by
  intro s c sh sec fresh host o bytes found granted kind mine l ended
  have run := exec_storeApplied found granted kind
  have through : ∀ t x lost rest, t = (s.withHomes x).letThrough c sh sec o bytes fresh host lost rest → rest = [] → ended t := by
    rintro t x lost rest rfl rfl
    obtain ⟨y, n, off, stream⟩ := (s.withHomes x).stream_letThrough c sh sec o bytes fresh host lost []
    have same : mine ((s.withHomes x).letThrough c sh sec o bytes fresh host lost []) = (y.endOp o).markApplied o.id n := stream
    show StoreEnded (mine s) (mine _) o
    rw [same]
    exact storeEnded_endOp kind off n
  refine ⟨fun ready => ?_, fun waits => ?_⟩
  · obtain ⟨x, homes⟩ := State.writeReady_homes ready
    rw [ready, homes, if_pos rfl] at run
    refine ⟨fun up => ?_, fun block dropped inside => ?_, fun block i sent down inside => ?_⟩
    · have lost : o.ports.filter (fun p => p.2.isNone) = [] := by
        rw [List.filter_eq_nil_iff]
        intro q hq
        obtain ⟨i, sent, -⟩ := up q hq
        simp [sent]
      have rest : o.ports.filter s.requestDown = [] := by
        rw [List.filter_eq_nil_iff]
        intro q hq
        obtain ⟨i, sent, portUp⟩ := up q hq
        simp [State.requestDown, sent, portUp]
      rw [lost, rest] at run
      refine ⟨_, run, through _ x [] [] rfl rfl, fun read a ne => ?_, fun canonical links sound a b written => ?_⟩
      all_goals rw [State.mem_letThrough]; simp only [List.any_nil, Bool.not_false, Bool.and_true, List.filter_true]
      · exact State.get_agentWrite_of_ne (s := s.withHomes x) read _ _ ne
      · have units : ∀ p ∈ s.placed bytes, s.Sound (unitOf p.1) := fun p hp k _ => by
          obtain ⟨diag, poison, fatal⟩ := sound p hp
          exact ⟨(s.spdiagOf_unitOf p.1).trans diag, poison, fatal⟩
        refine (State.get_agentWrite (s := s.withHomes x) canonical.1 units links _ _ a).trans ?_
        exact congrArg (Option.getD · _) written
    · have lost : o.ports.filter (fun p => p.2.isNone) = [(block, none)] := by rw [dropped]; rfl
      have rest : o.ports.filter s.requestDown = [] := by rw [dropped]; rfl
      rw [lost, rest] at run
      refine ⟨_, run, through _ x _ [] rfl rfl, ?_, fun a => ?_⟩
      all_goals rw [State.letThrough_of_block _ _ _ _ _ _ _ (fun p hp => by simp [inside p hp])]
      · exact getBits_satAdd s.hub.ulunrt 1 (by decide)
      · rfl
    · have lost : o.ports.filter (fun p => p.2.isNone) = [] := by rw [sent]; rfl
      have rest : o.ports.filter s.requestDown = [(block, some i)] := by rw [sent]; simp [State.requestDown, down]
      rw [lost, rest, State.letThrough_of_block _ _ _ _ _ _ _ (fun p hp => by simp [inside p hp])] at run
      have stream : ∀ f : Stream → Stream, mine ((s.withHomes x).updBankStream c sh sec f) = f (mine s) := fun f =>
        State.bankStream_updBankStream (s.withHomes x) c sh sec f
      refine ⟨_, run, ?_, ?_, fun a => rfl⟩
      · have mem := Core.mem_ops_of_opBank found
        exact stream _ ▸ ⟨_, List.mem_map_of_mem mem, by simp⟩
      · exact stream _ ▸ rfl
  · rw [waits] at run
    refine ⟨_, run, ?_⟩
    have beside := s.writeReady_besideHomes (.storeApplied c o.id) (bytes.map (·.1))
    have now : (s.writeReady (.storeApplied c o.id) (bytes.map (·.1))).1.now = s.now := (congrArg State.now beside :)
    have same : mine ((s.writeReady (.storeApplied c o.id) (bytes.map (·.1))).1.afterN 1 (.storeApplied c o.id)) = mine s :=
      (congrArg (fun t : State => ((t.core c).bankCtx sh).stream sec) beside :)
    refine ⟨?_, congrArg Stream.ops same, congrArg Stream.st same, fun a => congrArg (Memory.get · a) (congrArg State.mem beside :)⟩
    rw [← now]
    exact List.mem_append_right _ (.head _)

end Sys2Proof.Machine
end

section
/-! The links of the device as HLSTAT and ULSTAT show them (R75, R81, R86 to R88, R402). -/

namespace Sys2Proof.Machine

open Sys2Proof.Claims

/-! ### Single bits of a status word -/

theorem getLsbD_orBit (x : Word) {k : Nat} (h : k < 64) (i : Nat) : (x ||| BitVec.twoPow 64 k).getLsbD i = (x.getLsbD i || decide (k = i)) := by
  rw [BitVec.getLsbD_or, BitVec.getLsbD_twoPow]
  simp [h]

theorem tget_bumped (t : Table Nat) : tget 0 (tput 0 t 0 (tget 0 t 0 + 1)) 0 = tget 0 t 0 + 1 := tget_tput_zero (Nat.succ_ne_zero _) t

@[simp] theorem State.tryOpen_hub (s : State) : s.tryOpen.hub = s.hub := by
  unfold State.tryOpen
  split <;> rfl

@[simp] theorem State.tryOpen_mem (s : State) : s.tryOpen.mem = s.mem := by
  unfold State.tryOpen
  split <;> rfl

/-! ### The host link -/

/-- What HLSTAT shows of the host link in its low 11 bits (R86). -/
def hostLinkWord (rate width : BitVec 3) (io cache memory lzp : Bool) : Word :=
  rate.setWidth 64 ||| (width.setWidth 64 <<< 3) ||| 0x40 ||| (if io then 0x80 else 0) ||| (if cache then 0x100 else 0) |||
    (if memory then 0x200 else 0) ||| (if lzp then 0x400 else 0)

theorem getLsbD_flag (b : Bool) {k : Nat} (h : k < 64) (i : Nat) : (if b then BitVec.twoPow 64 k else 0).getLsbD i = (b && decide (k = i)) := by
  cases b <;> simp [BitVec.getLsbD_twoPow, h]

theorem getLsbD_hostLinkWord (rate width : BitVec 3) (io cache memory lzp : Bool) (i : Nat) :
    (hostLinkWord rate width io cache memory lzp).getLsbD i = (rate.getLsbD i || (decide (3 ≤ i) && width.getLsbD (i - 3)) || decide (6 = i) ||
      (io && decide (7 = i)) || (cache && decide (8 = i)) || (memory && decide (9 = i)) || (lzp && decide (10 = i))) := by
  have small : (rate.setWidth 64).getLsbD i = rate.getLsbD i := by
    have bound : rate.getLsbD i = true → i < 3 := BitVec.lt_of_getLsbD
    rw [BitVec.getLsbD_setWidth]
    grind
  have shifted : (width.setWidth 64 <<< 3).getLsbD i = (decide (3 ≤ i) && width.getLsbD (i - 3)) := by
    have bound : width.getLsbD (i - 3) = true → i - 3 < 3 := BitVec.lt_of_getLsbD
    rw [BitVec.getLsbD_shiftLeft, BitVec.getLsbD_setWidth]
    grind
  have six : (0x40 : Word).getLsbD i = decide (6 = i) := (BitVec.getLsbD_twoPow 6 i).trans (by simp)
  have flags := And.intro (getLsbD_flag io (k := 7) (by decide) i) (And.intro (getLsbD_flag cache (k := 8) (by decide) i)
    (And.intro (getLsbD_flag memory (k := 9) (by decide) i) (getLsbD_flag lzp (k := 10) (by decide) i)))
  unfold hostLinkWord
  simp only [BitVec.getLsbD_or, small, shifted, six]
  exact congrArg₂ _ (congrArg₂ _ (congrArg₂ _ (congrArg₂ _ rfl flags.1) flags.2.1) flags.2.2.1) flags.2.2.2

/-- The low 11 bits of a status word replaced by another word's. -/
theorem getLsbD_lowReplaced (x v : Word) (i : Nat) : ((x &&& ~~~(0x7FF : Word)) ||| v).getLsbD i =
    ((decide (11 ≤ i) && x.getLsbD i) || v.getLsbD i) := by
  have bound : x.getLsbD i = true → i < 64 := BitVec.lt_of_getLsbD
  have low : (0x7FF : Word).getLsbD i = decide (i < 11) := (congrFun (congrArg _ rfl) i : _ = (BitVec.ofNat 64 (2 ^ 11 - 1)).getLsbD i).trans (by
    rw [BitVec.getLsbD_ofNat, Nat.testBit_two_pow_sub_one]
    grind)
  rw [BitVec.getLsbD_or, BitVec.getLsbD_and, BitVec.getLsbD_not, low]
  grind

theorem exec_hostLinkStateChange {s : State} {rate width : BitVec 3} (io cache memory lzp : Bool) (known : 1 ≤ rate.toNat) (rates : rate.toNat ≤ 3)
    (widths : width.toNat ≤ 3) :
    exec (.hostLinkStateChange rate width io cache memory lzp) s =
      if s.hub.minimal = true ∧ rate ≠ 1 then .next s
      else
        let s1 := s.updHub (fun h => { h with hlstat := (h.hlstat &&& ~~~0x7FF) ||| hostLinkWord rate width io cache memory lzp })
        .next (if width = 0 && !s.hub.devstat.getLsbD 0 then s1.msix 0 else s1.tryOpen) := by
  have nonzero : rate ≠ 0 := fun e => by simp [e] at known
  show execHostLinkStateChange .. = _
  unfold execHostLinkStateChange
  have refused : (decide (rate = 0) || decide (3 < rate.toNat) || decide (3 < width.toNat) || (s.hub.minimal && decide (rate ≠ 1))) =
      decide (s.hub.minimal = true ∧ rate ≠ 1) := by
    rw [decide_eq_false nonzero, decide_eq_false (Nat.not_lt.2 rates), decide_eq_false (Nat.not_lt.2 widths)]
    simp
  rw [refused]
  by_cases minimal : s.hub.minimal = true ∧ rate ≠ 1
  · rw [if_pos minimal, decide_eq_true minimal, if_pos rfl]
  · rw [if_neg minimal, decide_eq_false minimal, if_neg Bool.false_ne_true]
    rfl

theorem hostLink_shown {s : State} {rate width : BitVec 3} (io cache memory lzp : Bool) (known : 1 ≤ rate.toNat) (rates : rate.toNat ≤ 3)
    (widths : width.toNat ≤ 3) :
    if s.hub.minimal = true ∧ rate ≠ 1 then Nothing (.hostLinkStateChange rate width io cache memory lzp) s
    else ∃ t, exec (.hostLinkStateChange rate width io cache memory lzp) s = .next t ∧ getBits t.hub.hlstat 0 3 = rate.toNat ∧
      getBits t.hub.hlstat 3 3 = width.toNat ∧ t.hub.hlstat.getLsbD 6 = true ∧ t.hub.hlstat.getLsbD 9 = memory ∧
      (∀ i, 11 ≤ i → i < 64 → t.hub.hlstat.getLsbD i = s.hub.hlstat.getLsbD i) ∧ SameMemory s t := by
  have run := exec_hostLinkStateChange (s := s) io cache memory lzp known rates widths
  split
  · next minimal => rwa [if_pos minimal] at run
  · next trains =>
    rw [if_neg trains] at run
    have bit := fun i => (getLsbD_lowReplaced s.hub.hlstat (hostLinkWord rate width io cache memory lzp) i).trans
      (by rw [getLsbD_hostLinkWord])
    have above : ∀ (v : BitVec 3) i, 3 ≤ i → v.getLsbD i = false := fun v i h => BitVec.getLsbD_of_ge v i h
    refine ⟨_, run, ?_⟩
    generalize hs1 : s.updHub _ = s1
    have shown : (if width = 0 && !s.hub.devstat.getLsbD 0 then s1.msix 0 else s1.tryOpen).hub.hlstat = s1.hub.hlstat ∧
        (if width = 0 && !s.hub.devstat.getLsbD 0 then s1.msix 0 else s1.tryOpen).mem = s1.mem := by
      split
      · exact ⟨rfl, rfl⟩
      · simp
    subst hs1
    rw [shown.1]
    refine ⟨?_, ?_, ?_, ?_, fun i low _ => ?_, fun a => by rw [shown.2]; rfl⟩
    · refine getBits_eq_toNat fun i hi => (bit _).trans ?_
      interval_cases i <;> simp
    · refine getBits_eq_toNat fun i hi => (bit _).trans ?_
      interval_cases i <;> simp
    · exact (bit 6).trans (by simp)
    · exact (bit 9).trans (by simp)
    · refine (bit i).trans ?_
      rw [above rate i (by omega), above width (i - 3) (by omega)]
      grind

theorem hostLinkDown_shown {s : State} (up : getBits s.hub.hlstat 0 3 ≠ 0) :
    ∃ t, exec .hostLinkDown s = .next t ∧ getBits t.hub.hlstat 0 11 = 0 ∧ t.hub.hlstat.getLsbD 11 = true ∧
      tget 0 t.hub.msix 0 = tget 0 s.hub.msix 0 + 1 ∧ SameMemory s t := by
  have run : exec .hostLinkDown s = _ := if_neg up
  have bit := fun i => (getLsbD_lowReplaced s.hub.hlstat 0x800 i).trans
    (congrArg _ ((BitVec.getLsbD_twoPow 11 i).trans (by simp) : (0x800 : Word).getLsbD i = decide (11 = i)))
  refine ⟨_, run, ?_, (bit 11).trans (by simp), tget_bumped _, fun a => rfl⟩
  refine (getBits_eq_toNat (v := 0#11) fun i hi => ?_).trans rfl
  rw [Nat.zero_add, BitVec.getLsbD_zero]
  refine (bit i).trans ?_
  rw [decide_eq_false (by omega : ¬11 ≤ i), decide_eq_false (by omega : ¬11 = i)]
  rfl

/-- A replay is counted in the host link's own count. -/
theorem linkReplay_host (s : State) : ∃ t, exec (.linkReplay none) s = .next t ∧
    getBits t.hub.hlstat 16 16 = Nat.min (getBits s.hub.hlstat 16 16 + 1) 65535 ∧ SameMemory s t :=
  ⟨_, rfl, getBits_satAdd s.hub.hlstat 1 (by decide), fun _ => rfl⟩

/-! ### The UALink ports -/

theorem State.updPort_hub (s : State) (p : Fin 18) (f : Word → Word) :
    (s.updPort p.val f).hub.ulstat[p] = f s.hub.ulstat[p] ∧ (s.updPort p.val f).hub.msix = s.hub.msix ∧ (s.updPort p.val f).mem = s.mem := by
  unfold State.updPort
  rw [dif_pos p.isLt]
  exact ⟨Vector.getElem_set_self .., rfl, rfl⟩

theorem portState_toList (v : Vector Word 18) (p : Fin 18) : portState (v.toList.getD p.val 0) = getBits v[p] 0 2 := by
  unfold portState
  rw [List.getD_eq_getElem _ 0 (by simp)]
  simp

theorem linkReplay_port (s : State) (p : Fin 18) : ∃ t, exec (.linkReplay (some p.val)) s = .next t ∧
    getBits t.hub.ulstat[p] 32 16 = Nat.min (getBits s.hub.ulstat[p] 32 16 + 1) 65535 ∧ SameMemory s t := by
  have run : exec (.linkReplay (some p.val)) s = _ := dif_pos p.isLt
  refine ⟨_, run, ?_, fun _ => rfl⟩
  refine (congrArg (getBits · 32 16) (Vector.getElem_set_self ..)).trans ?_
  exact getBits_satAdd s.hub.ulstat[p] 1 (by decide)

theorem ualinkPortUp_shown (s : State) (p : Fin 18) :
    ∃ t, exec (.ualinkPortUp p.val s.hub.settings.podDevice.toNat) s = .next t ∧ getBits t.hub.ulstat[p] 0 2 = 2 ∧
      getBits t.hub.ulstat[p] 16 10 = s.hub.settings.podDevice.toNat ∧ SameMemory s t := by
  have run : exec (.ualinkPortUp p.val s.hub.settings.podDevice.toNat) s = _ := if_pos rfl
  obtain ⟨port, -, mem⟩ := s.updPort_hub p (fun u => putBits (putBits u 0 2 2) 16 10 (BitVec.ofNat 64 s.hub.settings.podDevice.toNat))
  have small := s.hub.settings.podDevice.isLt
  refine ⟨_, run, ?_, ?_, fun a => ?_⟩
  · rw [State.tryOpen_hub]
    refine (congrArg (getBits · 0 2) port).trans ?_
    rw [getBits_putBits_of_apart _ _ (by decide) (by decide), getBits_putBits _ _ (by decide)]
    rfl
  · rw [State.tryOpen_hub]
    refine (congrArg (getBits · 16 10) port).trans ?_
    rw [getBits_putBits _ _ (by decide), BitVec.toNat_ofNat]
    omega
  · rw [State.tryOpen_mem]
    exact congrArg (Memory.get · a) mem

theorem ualinkPortDown_shown (s : State) (p : Fin 18) (up : getBits s.hub.ulstat[p] 0 2 = 2) :
    ∃ t, exec (.ualinkPortDown p.val) s = .next t ∧ getBits t.hub.ulstat[p] 0 2 = 0 ∧
      t.hub.ulstat[p].getLsbD 3 = true ∧ tget 0 t.hub.msix 0 = tget 0 s.hub.msix 0 + 1 ∧ SameMemory s t := by
  have run : exec (.ualinkPortDown p.val) s = _ := if_pos ((portState_toList s.hub.ulstat p).trans up)
  obtain ⟨port, msix, mem⟩ := s.updPort_hub p (fun u => putBits u 0 2 0 ||| 8)
  have bit := getLsbD_orBit (putBits s.hub.ulstat[p] 0 2 0) (k := 3) (by decide)
  refine ⟨_, run, ?_, ?_, ?_, fun a => congrArg (Memory.get · a) mem⟩
  · refine (congrArg (getBits · 0 2) port).trans ?_
    refine (getBits_congr (y := putBits s.hub.ulstat[p] 0 2 0) fun i _ hi => (bit i).trans ?_).trans (getBits_putBits _ _ (by decide))
    rw [decide_eq_false (by omega : ¬3 = i), Bool.or_false]
  · exact (congrArg (BitVec.getLsbD · 3) port).trans ((bit 3).trans (by simp))
  · exact (tget_bumped _).trans (by rw [msix])

theorem ualinkIdMismatch_shown (s : State) (p : Fin 18) (down : getBits s.hub.ulstat[p] 0 2 ≠ 2) :
    ∃ t, exec (.ualinkIdMismatch p.val) s = .next t ∧ getBits t.hub.ulstat[p] 0 2 = 3 ∧
      t.hub.ulstat[p].getLsbD 2 = true ∧ tget 0 t.hub.msix 0 = tget 0 s.hub.msix 0 + 1 ∧ SameMemory s t := by
  have run : exec (.ualinkIdMismatch p.val) s = _ := if_pos (by rw [portState_toList, decide_eq_true p.isLt, decide_eq_true down]; rfl)
  obtain ⟨port, msix, mem⟩ := s.updPort_hub p (fun u => putBits u 0 2 3 ||| 4)
  have bit := getLsbD_orBit (putBits s.hub.ulstat[p] 0 2 3) (k := 2) (by decide)
  refine ⟨_, run, ?_, ?_, ?_, fun a => ?_⟩
  · rw [State.tryOpen_hub]
    refine (congrArg (getBits · 0 2) port).trans ?_
    refine (getBits_congr (y := putBits s.hub.ulstat[p] 0 2 3) fun i _ hi => (bit i).trans ?_).trans (getBits_putBits _ _ (by decide))
    rw [decide_eq_false (by omega : ¬2 = i), Bool.or_false]
  · rw [State.tryOpen_hub]
    exact (congrArg (BitVec.getLsbD · 2) port).trans ((bit 2).trans (by simp))
  · rw [State.tryOpen_hub]
    exact (tget_bumped _).trans (by rw [← msix]; rfl)
  · rw [State.tryOpen_mem]
    exact congrArg (Memory.get · a) mem

theorem ualinkTrainingTimeout_shown (s : State) (p : Fin 18) (down : getBits s.hub.ulstat[p] 0 2 ≤ 1)
    (training : s.hub.portSettled.getLsbD p.val = false) :
    ∃ t, exec (.ualinkTrainingTimeout p.val) s = .next t ∧ getBits t.hub.ulstat[p] 0 2 = 3 ∧ t.hub.msix = s.hub.msix ∧ SameMemory s t := by
  have run : exec (.ualinkTrainingTimeout p.val) s = _ :=
    if_pos (by rw [portState_toList, decide_eq_true down, training]; rfl)
  obtain ⟨port, msix, mem⟩ := s.updPort_hub p (fun u => putBits u 0 2 3)
  refine ⟨_, run, ?_, ?_, fun a => ?_⟩
  · rw [State.tryOpen_hub]
    exact (congrArg (getBits · 0 2) port).trans (getBits_putBits _ _ (by decide))
  · rw [State.tryOpen_hub]
    exact msix
  · rw [State.tryOpen_mem]
    exact congrArg (Memory.get · a) mem

end Sys2Proof.Machine

end

section
/-! Writes of consecutive bytes outside the slices (R52, R79, R305). -/

namespace Sys2Proof.Machine

open Sys2Proof.Claims

theorem mem_atAddr {a : Nat} {data : List Byte} {p : Nat × Byte} (h : p ∈ atAddr a data) : ∃ i < data.length, p.1 = a + i := by
  induction data generalizing a with
  | nil => cases h
  | cons b r ih =>
    rcases List.mem_cons.1 h with rfl | h
    · exact ⟨0, Nat.succ_pos _, rfl⟩
    · obtain ⟨i, hi, e⟩ := ih h
      exact ⟨i + 1, Nat.succ_lt_succ hi, by omega⟩

/-- Bytes that lie where their addresses say, in no slice. -/
def State.Plain (s : State) (a : Nat) : Prop := s.place a = a ∧ ∀ k, regionOf a ≠ .slice k

theorem State.placed_plain {s : State} {l : List (Nat × Byte)} (h : ∀ p ∈ l, s.Plain p.1) : s.placed l = l := by
  unfold State.placed
  conv_rhs => rw [← List.map_id l]
  exact List.map_congr_left fun p hp => Prod.ext (h p hp).1 rfl

theorem State.sound_plain {s : State} {a : Nat} (h : s.Plain a) : s.Sound (unitOf a) := fun k slice =>
  absurd ((regionOf_unitOf a).symm.trans slice) (h.2 k)

section Consecutive

variable {s : State} {addr : Nat} {data : List Byte} (wf : Memory.wf s.mem = true) (plain : ∀ i < data.length, s.Plain (addr + i))
include wf plain

/-- Consecutive bytes, written outside the slices. -/
theorem State.get_applyWrite_atAddr (w : Writer) (a : Nat) : Memory.get (s.applyWrite w (atAddr addr data)).mem a =
    if addr ≤ a ∧ a < addr + data.length then data.getD (a - addr) 0 else Memory.get s.mem a := by
  have each : ∀ p ∈ atAddr addr data, s.Plain p.1 := fun p hp => by
    obtain ⟨i, hi, e⟩ := mem_atAddr hp
    exact e ▸ plain i hi
  have placed := State.placed_plain each
  rw [State.get_applyWrite wf (fun p hp => State.sound_plain (each p (placed ▸ hp))), placed, aget_reverse_atAddr]
  split <;> rfl

theorem State.get_agentWrite_atAddr (up : ∀ i < data.length, s.linkUp (regionOf (addr + i)) = true) (w : Writer) (nt : Bool) (a : Nat) :
    Memory.get (s.agentWrite w (atAddr addr data) nt).mem a =
      if addr ≤ a ∧ a < addr + data.length then data.getD (a - addr) 0 else Memory.get s.mem a := by
  have each : ∀ p ∈ atAddr addr data, s.Plain p.1 ∧ s.linkUp (regionOf p.1) = true := fun p hp => by
    obtain ⟨i, hi, e⟩ := mem_atAddr hp
    exact e ▸ ⟨plain i hi, up i hi⟩
  have placed := State.placed_plain (fun p hp => (each p hp).1)
  rw [State.get_agentWrite wf (fun p hp => State.sound_plain (each p (placed ▸ hp)).1) (fun p hp => (each p hp).2), placed,
    aget_reverse_atAddr]
  split <;> rfl

end Consecutive

theorem regionOf_package {a : Nat} (h : a < 2 ^ 48) : regionOf a = .pkg := if_pos h

theorem State.place_below (s : State) {a : Nat} (h : a < 0x8000000000000) : s.place a = a := by
  unfold State.place
  rw [decide_eq_false (Nat.not_le.2 h)]
  rfl

theorem State.plain_package (s : State) {a : Nat} (h : a < 2 ^ 48) : s.Plain a :=
  ⟨s.place_below (by omega), fun k => by rw [regionOf_package h]; exact RegionKind.noConfusion⟩

theorem State.linkUp_package (s : State) {a : Nat} (h : a < 2 ^ 48) : s.linkUp (regionOf a) = true := by
  rw [regionOf_package h]
  rfl

/-- Consecutive bytes of package memory, written by an agent. -/
theorem State.get_agentWrite_package {s : State} {addr : Nat} {data : List Byte} (wf : Memory.wf s.mem = true)
    (inside : addr + data.length ≤ 2 ^ 48) (w : Writer) (nt : Bool) (a : Nat) : Memory.get (s.agentWrite w (atAddr addr data) nt).mem a =
      if addr ≤ a ∧ a < addr + data.length then data.getD (a - addr) 0 else Memory.get s.mem a :=
  State.get_agentWrite_atAddr wf (fun _ _ => s.plain_package (by omega)) (fun _ _ => s.linkUp_package (by omega)) w nt a

/-! ### The bytes of a number (R2) -/

theorem natOfBytes_bytesOfNat (n x : Nat) : natOfBytes (bytesOfNat n x) = x % 256 ^ n := by
  induction n generalizing x with
  | zero => simp [bytesOfNat, natOfBytes, Nat.mod_one]
  | succ n ih =>
    have power : 256 ^ (n + 1) = 256 * 256 ^ n := Nat.pow_succ'
    rw [bytesOfNat, natOfBytes, ih, BitVec.toNat_ofNat, power]
    exact Nat.mod_mul.symm

theorem bytesOfNat_length (n x : Nat) : (bytesOfNat n x).length = n := by
  induction n generalizing x with
  | zero => rfl
  | succ n ih => rw [bytesOfNat, List.length_cons, ih]

theorem natOfBytes_lt (l : List Byte) : natOfBytes l < 256 ^ l.length := by
  induction l with
  | nil => exact Nat.one_pos
  | cons b r ih =>
    have := b.isLt
    rw [natOfBytes, List.length_cons, Nat.pow_succ']
    omega

theorem Memory.bytes_eq_map (m : Table Byte) (a n : Nat) : Memory.bytes m a n = (addrs a n).map (Memory.get m) := by
  induction n generalizing a with
  | zero => rfl
  | succ n ih =>
    rw [Memory.bytes, ih, addrs, addrs, List.range_succ_eq_map]
    simp [Function.comp_def, Nat.add_assoc, Nat.add_comm 1]

theorem Memory.bytes_length (m : Table Byte) (a n : Nat) : (Memory.bytes m a n).length = n := by
  rw [Memory.bytes_eq_map]
  simp [addrs]

/-- The bytes from an address, read one by one. -/
theorem Memory.bytes_eq_of_get {m : Table Byte} {a : Nat} {l : List Byte} (h : ∀ i, (hi : i < l.length) → Memory.get m (a + i) = l[i]) :
    Memory.bytes m a l.length = l := by
  rw [Memory.bytes_eq_map]
  refine List.ext_getElem (by simp [addrs]) fun i hi hi' => ?_
  simp [addrs, h i hi']

end Sys2Proof.Machine

end

section
/-! The host's reads and writes (R73, R78, R79, R305, R408). -/

namespace Sys2Proof.Machine

open Sys2Proof.Claims

/-! ### Units -/

/-- A unit of an access lies in it, and in one aligned unit of 8 bytes. -/
theorem mem_hostUnits {addr len : Nat} {u : Nat × Nat} (h : u ∈ hostUnits addr len) :
    addr ≤ u.1 ∧ u.1 + u.2 ≤ addr + len ∧ u.2 ≤ 8 ∧ u.1 / 8 = (u.1 + (u.2 - 1)) / 8 := by
  obtain ⟨i, hi, rfl⟩ := List.mem_map.1 h
  rw [List.mem_range] at hi
  dsimp only
  simp only [Nat.max_def, Nat.min_def]
  repeat' split
  all_goals omega

/-- An access of one unit at most is none, or lies in an aligned unit of 8 bytes and is that unit. -/
theorem hostUnits_short {addr len : Nat} (h : (hostUnits addr len).length ≤ 1) :
    (len = 0 ∧ hostUnits addr len = []) ∨ (addr / 8 * 8 + 8 ≥ addr + len ∧ hostUnits addr len = [(addr, len)]) := by
  have count : (addr + len + 7) / 8 - addr / 8 ≤ 1 := by simpa [hostUnits] using h
  rcases Nat.le_one_iff_eq_zero_or_eq_one.1 count with none | one
  · exact .inl ⟨by omega, by rw [hostUnits, none]; rfl⟩
  · refine .inr ⟨by omega, ?_⟩
    have lo : Nat.max addr (8 * (addr / 8 + 0)) = addr := Nat.max_eq_left (by omega)
    have hi : Nat.min (addr + len) (8 * (addr / 8 + 0) + 8) = addr + len := Nat.min_eq_left (by omega)
    rw [hostUnits, one]
    simp only [List.range_one, List.map_cons, List.map_nil, lo, hi, Nat.add_sub_cancel_left]

/-! ### Writes -/

theorem exec_hostMemoryWrite_wide {s : State} {addr : Nat} {data : List Byte}
    (admitted : s.hostReach addr data.length = true ∨ s.foreign addr data.length = true) (wide : 1 < (hostUnits addr data.length).length) :
    exec (.hostMemoryWrite addr data) s =
      .next ((hostUnits addr data.length).foldl (fun s u => s.after (.hostMemoryWrite u.1 ((data.drop (u.1 - addr)).take u.2))) s) :=
  if_pos (by simp [wide]; exact admitted)

theorem exec_hostMemoryWrite_reach {s : State} {addr : Nat} {data : List Byte} (reach : s.hostReach addr data.length = true)
    (short : (hostUnits addr data.length).length ≤ 1) :
    exec (.hostMemoryWrite addr data) s = .next (s.agentWrite Writer.outside (atAddr addr data) false) := by
  show execHostMemoryWrite addr data s = _
  unfold execHostMemoryWrite
  rw [if_neg (by simp [Nat.not_lt.2 short]), if_pos reach]

theorem exec_hostMemoryWrite_foreign {s : State} {addr : Nat} {data : List Byte} (reach : s.hostReach addr data.length = false)
    (foreign : s.foreign addr data.length = true) (short : (hostUnits addr data.length).length ≤ 1) :
    exec (.hostMemoryWrite addr data) s = .next (s.applyWrite Writer.outside (atAddr addr data)) := by
  show execHostMemoryWrite addr data s = _
  unfold execHostMemoryWrite
  rw [if_neg (by simp [Nat.not_lt.2 short]), if_neg (by simp [reach]), if_pos foreign]

theorem exec_hostMemoryWrite_elsewhere {s : State} {addr : Nat} {data : List Byte} (reach : s.hostReach addr data.length = false)
    (foreign : s.foreign addr data.length = false) : Nothing (.hostMemoryWrite addr data) s := by
  show execHostMemoryWrite addr data s = _
  unfold execHostMemoryWrite
  rw [reach, foreign]
  rfl

/-- What lies in package memory, up to its end, is no one else's. -/
theorem State.foreign_package (s : State) {addr len : Nat} (inside : addr + len ≤ 2 ^ 48) : s.foreign addr len = false := by
  unfold State.foreign
  rcases Nat.lt_or_ge addr (2 ^ 48) with below | above
  · rw [regionOf_package below]
    simp
  · have edge : addr = 2 ^ 48 := by omega
    subst edge
    simp [regionOf]

/-- Events put under way one after another are all under way. -/
theorem State.underWay_foldl_after {α : Type} (e : α → Instr) (l : List α) (s : State) :
    (l.foldl (fun s x => s.after (e x)) s).now = s.now ∧ (l.foldl (fun s x => s.after (e x)) s).mem = s.mem ∧
      (∀ i, UnderWay s i → UnderWay (l.foldl (fun s x => s.after (e x)) s) i) ∧
      ∀ x ∈ l, UnderWay (l.foldl (fun s x => s.after (e x)) s) (e x) := by
  induction l generalizing s with
  | nil => exact ⟨rfl, rfl, fun _ h => h, fun _ h => by cases h⟩
  | cons y r ih =>
    obtain ⟨now, mem, kept, all⟩ := ih (s.after (e y))
    refine ⟨now, mem, fun i ⟨n, due, later⟩ => kept i ⟨n, List.mem_append_left _ due, later⟩, fun x hx => ?_⟩
    rcases List.mem_cons.1 hx with rfl | hx
    · exact kept _ (s.underWay_after _)
    · exact all x hx

/-- A peer's offset names a place below the peer windows (R53). -/
theorem peerTarget_lt {off x : Nat} (h : peerTarget off = some x) : x < 0x8000000000000 := by
  unfold peerTarget sliceBase sliceBytes at h
  split at h
  · cases h; omega
  · split at h
    · cases h; omega
    · cases h

/-- Of the peer windows, a byte that is in no hole is what its offset names. -/
theorem peerTarget_of_mapped {a : Nat} (lo : 0x8000000000000 ≤ a) (hi : a < 0x10000000000000) (mapped : regionOf a ≠ .hole) :
    ∃ x, peerTarget ((a - 0x8000000000000) % 2 ^ 41) = some x := by
  unfold regionOf sliceBytes at mapped
  rw [if_neg (by omega), if_neg (by omega), if_neg (by omega), if_neg (by omega), if_neg (by omega), if_neg (by omega), if_pos hi] at mapped
  dsimp only at mapped
  have small := Nat.mod_lt (a - 0x8000000000000) (show 0 < 2 ^ 41 by decide)
  unfold peerTarget sliceBytes
  generalize (a - 0x8000000000000) % 2 ^ 41 = o at mapped small ⊢
  split
  · exact ⟨_, rfl⟩
  · next far =>
    rw [if_neg far] at mapped
    obtain ⟨zero, inSlice⟩ : o / 2 ^ 31 % 512 = 0 ∧ o % 2 ^ 28 < 0x6000000 := by simpa using mapped
    rw [decide_eq_true small, decide_eq_true zero, decide_eq_true inSlice]
    exact ⟨_, rfl⟩

/-- In the peer windows, a byte lies where its address says when the window is not this device's own (R53). -/
theorem State.place_eq_self_iff (s : State) {a : Nat} (lo : 0x8000000000000 ≤ a) (hi : a < 0x10000000000000) (mapped : regionOf a ≠ .hole) :
    s.place a = a ↔ (a - 0x8000000000000) / 2 ^ 41 ≠ s.hub.settings.podDevice.toNat := by
  obtain ⟨x, target⟩ := peerTarget_of_mapped lo hi mapped
  have below := peerTarget_lt target
  unfold State.place
  rw [target, decide_eq_true lo, decide_eq_true hi]
  by_cases own : (a - 0x8000000000000) / 2 ^ 41 = s.hub.settings.podDevice.toNat
  · rw [decide_eq_true own]
    show x = a ↔ _
    exact ⟨fun same => by omega, fun other => absurd own other⟩
  · rw [decide_eq_false own]
    exact ⟨fun _ => own, fun _ => rfl⟩

/-- A unit of another owner's memory lies where its address says, in no slice of this device. -/
theorem State.plain_foreign {s : State} {addr len i : Nat} (foreign : s.foreign addr len = true) (hi : i < len)
    (short : addr + len ≤ addr / 8 * 8 + 8) : s.Plain (addr + i) := by
  have unit : (addr + i) / 8 = addr / 8 := by omega
  have region : regionOf (addr + i) = regionOf addr := by
    rw [← regionOf_aligned (addr + i) (.inl rfl), unit, regionOf_aligned addr (.inl rfl)]
  unfold State.foreign at foreign
  simp only [Bool.and_eq_true, decide_eq_true_eq] at foreign
  obtain ⟨⟨-, self⟩, owner⟩ := foreign
  refine ⟨?_, fun k slice => ?_⟩
  · rcases Nat.lt_or_ge addr 0x8000000000000 with low | high
    · exact s.place_below (by omega)
    · have mapped : regionOf addr ≠ .hole := fun hole => by simp [hole] at owner
      have top : addr < 0x10000000000000 := by
        by_contra beyond
        refine mapped ?_
        unfold regionOf
        rw [if_neg (by omega), if_neg (by omega), if_neg (by omega), if_neg (by omega), if_neg (by omega), if_neg (by omega), if_neg beyond]
      have other := (s.place_eq_self_iff high top mapped).1 self
      have window : (addr + i - 0x8000000000000) / 2 ^ 41 = (addr - 0x8000000000000) / 2 ^ 41 := by omega
      rw [s.place_eq_self_iff (by omega) (by omega) (region ▸ mapped), window]
      exact other
  · rw [← region, slice] at owner
    cases owner

theorem hostMemoryWrite_reach {s : State} {addr : Nat} {data : List Byte} (inside : addr + data.length ≤ 2 ^ 48)
    (reach : s.hostReach addr data.length = true) (short : (hostUnits addr data.length).length ≤ 1) (canonical : s.canonical) :
    ∃ t, exec (.hostMemoryWrite addr data) s = .next t ∧
      ∀ a, Memory.get t.mem a = if addr ≤ a ∧ a < addr + data.length then data.getD (a - addr) 0 else Memory.get s.mem a :=
  ⟨_, exec_hostMemoryWrite_reach reach short, State.get_agentWrite_package canonical.1 inside _ _⟩

theorem hostMemoryWrite_foreign {s : State} {addr : Nat} {data : List Byte} (reach : s.hostReach addr data.length = false)
    (foreign : s.foreign addr data.length = true) (short : (hostUnits addr data.length).length ≤ 1) (canonical : s.canonical) :
    ∃ t, exec (.hostMemoryWrite addr data) s = .next t ∧
      ∀ a, Memory.get t.mem a = if addr ≤ a ∧ a < addr + data.length then data.getD (a - addr) 0 else Memory.get s.mem a := by
  refine ⟨_, exec_hostMemoryWrite_foreign reach foreign short, State.get_applyWrite_atAddr canonical.1 (fun i hi => ?_) _⟩
  rcases hostUnits_short short with ⟨empty, -⟩ | ⟨unit, -⟩
  · omega
  · exact State.plain_foreign foreign hi unit

theorem hostMemoryWrite_wide {s : State} {addr : Nat} {data : List Byte}
    (admitted : s.hostReach addr data.length = true ∨ s.foreign addr data.length = true) (wide : 1 < (hostUnits addr data.length).length) :
    ∃ t, exec (.hostMemoryWrite addr data) s = .next t ∧ SameMemory s t ∧
      ∀ u ∈ hostUnits addr data.length, UnderWay t (.hostMemoryWrite u.1 ((data.drop (u.1 - addr)).take u.2)) := by
  obtain ⟨-, mem, -, all⟩ := s.underWay_foldl_after
    (fun u : Nat × Nat => .hostMemoryWrite u.1 ((data.drop (u.1 - addr)).take u.2)) (hostUnits addr data.length)
  exact ⟨_, exec_hostMemoryWrite_wide admitted wide, fun a => congrArg (Memory.get · a) mem, all⟩

end Sys2Proof.Machine

end

section
/-! What a read from outside finds: poison, the errors that it detects, and the bytes (R71 to R73, R408). -/

namespace Sys2Proof.Machine

open Sys2Proof.Claims

/-! ### Errors that a read finds -/

theorem State.noteLine_marks (s : State) (l : Nat) :
    (s.noteLine l).poison = (if 0 < s.fatalsIn l then l :: s.poison.filter (· != l) else s.poison) ∧
      (s.noteLine l).fatals = if 0 < s.fatalsIn l then s.fatals.filter (fun w => w / 64 * 64 ≠ l) else s.fatals := by
  have mark : ∀ t : State, (t.markUe l).poison = t.poison ∧ (t.markUe l).fatals = t.fatals := fun t => by
    unfold State.markUe
    extract_lets h was s1
    split <;> exact ⟨rfl, rfl⟩
  unfold State.noteLine
  extract_lets h s1 u s2
  have h1 : s1.poison = s.poison ∧ s1.fatals = s.fatals := by
    unfold s1
    split <;> exact ⟨rfl, rfl⟩
  have h2 : s2.poison = (if 0 < s.fatalsIn l then l :: s.poison.filter (· != l) else s.poison) ∧
      s2.fatals = if 0 < s.fatalsIn l then s.fatals.filter (fun w => w / 64 * 64 ≠ l) else s.fatals := by
    unfold s2
    split
    · exact ⟨by rw [← h1.1], by rw [← h1.2]⟩
    · exact h1
  split
  · obtain ⟨poison, fatals⟩ := mark s2
    exact ⟨(show (s2.markUe l).poison = _ from poison).trans h2.1, (show (s2.markUe l).fatals = _ from fatals).trans h2.2⟩
  · exact h2

/-- A unit stays poisoned when some unit is read. -/
theorem State.poison_noteUnit (s : State) (u : Nat) {x : Nat} (h : x ∈ s.poison) : x ∈ (s.noteUnit u).poison := by
  have line : x ∈ (s.noteLine u).poison := by
    rw [(s.noteLine_marks u).1]
    split
    · by_cases e : x = u
      · exact e ▸ .head _
      · exact .tail _ (List.mem_filter.2 ⟨h, by simpa using e⟩)
    · exact h
  have word : x ∈ (s.noteWord u).poison := by
    unfold State.noteWord
    extract_lets stuck flip s1
    repeat' split
    · exact h
    · exact h
    · exact .tail _ h
    · exact h
    · exact h
  unfold State.noteUnit
  split
  · exact line
  · exact line
  · exact word
  · split
    · exact line
    · exact h

theorem State.poison_noteReads (s : State) (as : List Nat) {x : Nat} (h : x ∈ s.poison) : x ∈ (s.noteReads as).poison :=
  foldl_keeps (P := fun t : State => x ∈ t.poison) (fun t u ht => t.poison_noteUnit u ht) _ s h

/-- A read of package memory whose lines hold no uncorrectable error finds none. -/
theorem State.marks_noteReads {s : State} {as : List Nat} (inside : ∀ a ∈ as, a < 2 ^ 48)
    (clean : ∀ a ∈ as, ∀ w ∈ s.fatals, lineOf w ≠ lineOf a) : (s.noteReads as).poison = s.poison ∧ (s.noteReads as).fatals = s.fatals := by
  have unit : ∀ u ∈ unitsOf (as.map s.place), ∃ a ∈ as, u = lineOf a := fun u hu => by
    obtain ⟨x, hx, rfl⟩ := List.mem_map.1 (List.mem_eraseDups.1 hu)
    obtain ⟨a, ha, rfl⟩ := List.mem_map.1 hx
    rw [(s.plain_package (inside a ha)).1]
    refine ⟨a, ha, ?_⟩
    unfold unitOf
    rw [regionOf_package (inside a ha)]
    rfl
  have each : ∀ us : List Nat, (∀ u ∈ us, ∃ a ∈ as, u = lineOf a) → ∀ t : State, t.poison = s.poison ∧ t.fatals = s.fatals →
      (us.foldl State.noteUnit t).poison = s.poison ∧ (us.foldl State.noteUnit t).fatals = s.fatals := fun us => by
    induction us with
    | nil => exact fun _ t same => same
    | cons u us ih =>
      intro lines t same
      obtain ⟨a, ha, rfl⟩ := lines u (.head _)
      refine ih (fun v hv => lines v (.tail _ hv)) _ ?_
      have small : lineOf a < 2 ^ 48 := Nat.lt_of_le_of_lt (Nat.div_mul_le_self ..) (inside a ha)
      have note : t.noteUnit (lineOf a) = t.noteLine (lineOf a) := by
        unfold State.noteUnit
        rw [regionOf_package small]
      have none : t.fatalsIn (lineOf a) = 0 := by
        rw [State.fatalsIn, List.length_eq_zero_iff, List.filter_eq_nil_iff]
        intro w hw fatal
        obtain ⟨i, hi, rfl⟩ := List.mem_map.1 hw
        have found : lineOf a + 8 * i ∈ t.fatals := by simpa using fatal
        rw [same.2] at found
        refine clean a ha _ found ?_
        have low : i < 8 := by simp at hi; omega
        unfold lineOf
        omega
      rw [note, (t.noteLine_marks _).1, (t.noteLine_marks _).2, none]
      exact same
  exact each _ unit s ⟨rfl, rfl⟩

/-! ### What the hub keeps of a read -/

/-- The hub without its vectors. -/
def Hub.offVectors (h : Hub) : Hub := { h with msix := [], msixPending := 0 }

theorem State.noteReads_offVectors (s : State) (as : List Nat) : (s.noteReads as).hub.offVectors = s.hub.offVectors := by
  have line : ∀ (t : State) (l : Nat), (t.noteLine l).hub.offVectors = t.hub.offVectors := fun t l => by
    have mark : ∀ v : State, (v.markUe l).hub.offVectors = v.hub.offVectors := fun v => by
      unfold State.markUe
      extract_lets h was s1
      split <;> rfl
    unfold State.noteLine
    extract_lets h s1 u s2
    have h1 : s1.hub = t.hub := by
      unfold s1
      split <;> rfl
    have h2 : s2.hub = t.hub := by
      unfold s2
      split <;> exact h1
    split
    · exact (mark s2).trans (congrArg _ h2)
    · exact congrArg _ h2
  refine foldl_view (fun t : State => t.hub.offVectors) (fun t u => ?_) _ s
  unfold State.noteUnit
  split
  · exact line t u
  · exact line t u
  · unfold State.noteWord
    extract_lets stuck flip s1
    repeat' split
    all_goals rfl
  · split
    · exact line t u
    · rfl

theorem State.serveOutside_touched (s : State) (as : List Nat) : ∃ x, s.serveOutside as = (s.noteReads as).withHomes x :=
  State.cacheTouches_homes (fun s l => homeOf (s.place l)) id false (linesOf as) (s.noteReads as)

theorem State.serveOutside_offVectors (s : State) (as : List Nat) : (s.serveOutside as).hub.offVectors = s.hub.offVectors := by
  obtain ⟨x, touched⟩ := s.serveOutside_touched as
  rw [touched]
  exact s.noteReads_offVectors as

/-! ### Package memory as it is read -/

theorem State.spdiagOf_package (s : State) {a : Nat} (h : a < 2 ^ 48) : s.spdiagOf a = 0 := by
  unfold State.spdiagOf
  rw [regionOf_package h]

theorem State.byteNow_package (s : State) {a : Nat} (h : a < 2 ^ 48) : s.byteNow a = Memory.get s.mem a := by
  unfold State.byteNow
  rw [(s.plain_package h).1]
  dsimp only
  rw [s.spdiagOf_package h]
  rfl

theorem State.poisoned_package (s : State) {a : Nat} (h : a < 2 ^ 48) : s.poisoned a = s.poison.contains (unitOf a) := by
  unfold State.poisoned
  rw [(s.plain_package h).1, s.spdiagOf_package h, s.linkUp_package h]
  simp

section Served

variable {s : State} {addr len : Nat} (inside : addr + len ≤ 2 ^ 48)
include inside

theorem State.mem_addrs_package {a : Nat} (h : a ∈ addrs addr len) : a < 2 ^ 48 := by
  obtain ⟨i, hi, rfl⟩ := List.mem_map.1 h
  rw [List.mem_range] at hi
  omega

/-- A read of clean package memory meets no poison. -/
theorem State.firstPoison_clean (clean : ∀ i < len, unitOf (addr + i) ∉ s.poison ∧ ∀ w ∈ s.fatals, lineOf w ≠ lineOf (addr + i)) :
    (s.serveOutside (addrs addr len)).firstPoison (addrs addr len) = none := by
  obtain ⟨x, touched⟩ := s.serveOutside_touched (addrs addr len)
  have same := State.marks_noteReads (s := s) (as := addrs addr len) (fun a ha => State.mem_addrs_package inside ha) (fun a ha => by
    obtain ⟨i, hi, rfl⟩ := List.mem_map.1 ha
    exact (clean i (List.mem_range.1 hi)).2)
  rw [touched, State.firstPoison, List.find?_eq_none]
  intro a ha poisoned
  rw [State.poisoned_package _ (State.mem_addrs_package inside ha)] at poisoned
  have found : unitOf a ∈ ((s.noteReads (addrs addr len)).withHomes x).poison := by simpa using poisoned
  obtain ⟨i, hi, rfl⟩ := List.mem_map.1 ha
  exact (clean i (List.mem_range.1 hi)).1 (same.1 ▸ (show unitOf (addr + i) ∈ (s.noteReads (addrs addr len)).poison from found))

theorem State.firstPoison_poisoned {i : Nat} (hi : i < len) (poison : unitOf (addr + i) ∈ s.poison) :
    ((s.serveOutside (addrs addr len)).firstPoison (addrs addr len)).isSome = true := by
  obtain ⟨x, touched⟩ := s.serveOutside_touched (addrs addr len)
  have found : unitOf (addr + i) ∈ ((s.noteReads (addrs addr len)).withHomes x).poison := s.poison_noteReads _ poison
  rw [touched, State.firstPoison, List.find?_isSome]
  refine ⟨addr + i, List.mem_map_of_mem (List.mem_range.2 hi), ?_⟩
  rw [State.poisoned_package _ (by omega)]
  simpa using found

theorem State.bytesNow_served : (addrs addr len).map (s.serveOutside (addrs addr len)).byteNow =
    (List.range len).map (fun i => Memory.get s.mem (addr + i)) := by
  unfold addrs
  rw [List.map_map]
  refine List.map_congr_left fun i hi => ?_
  rw [Function.comp_apply, State.byteNow_package _ (by have := List.mem_range.1 hi; omega), State.serveOutside_mem]

end Served

end Sys2Proof.Machine

end

section
/-! The host's reads, and its writes of registers (R71, R73, R74, R79, R80, R86, R87, R399, R408). -/

namespace Sys2Proof.Machine

open Sys2Proof.Claims

/-! ### Reads -/

theorem exec_hostMemoryRead {s : State} {addr len : Nat} (reach : s.hostReach addr len = true) (idle : s.hub.hostAsk = none) :
    exec (.hostMemoryRead addr len) s = .next (s.readUnit { addr := addr, len := len, got := [] }) := by
  show execHostMemoryRead addr len s = _
  unfold execHostMemoryRead
  rw [reach, idle]
  rfl

/-- What a read of a unit finds there (R73). -/
def State.unitRead (s : State) (addr len : Nat) : Option (List Byte) :=
  if ((s.serveOutside (addrs addr len)).firstPoison (addrs addr len)).isSome then none
  else some ((addrs addr len).map (s.serveOutside (addrs addr len)).byteNow)

/-- No unit of a read that begins has been read. -/
theorem units_left (addr len : Nat) :
    (hostUnits addr len).filter (fun u => (aget ([] : List (Nat × Option (List Byte))) u.1).isNone) = hostUnits addr len :=
  List.filter_eq_self.2 fun _ _ => rfl

theorem State.readUnit_wide (s : State) {addr len : Nat} (wide : 1 < (hostUnits addr len).length) :
    ∃ u : Nat × Nat, s.readUnit { addr := addr, len := len, got := [] } = (((s.serveOutside (addrs u.1 u.2)).drawFree.updHub (fun h =>
      { h with hostAsk := some { addr := addr, len := len, got := [(u.1, s.unitRead u.1 u.2)] } })).after (.hostMemoryRead addr len)) := by
  have several : ¬(hostUnits addr len).length ≤ 1 := Nat.not_le.2 wide
  have chosen := List.getElem?_eq_getElem (Nat.mod_lt (Config.freeWord s.free).toNat (Nat.lt_trans Nat.one_pos wide))
  unfold State.readUnit
  simp only [units_left, if_neg several, chosen]
  exact ⟨_, rfl⟩

theorem State.readUnit_none (s : State) {addr len : Nat} (none : hostUnits addr len = []) :
    s.readUnit { addr := addr, len := len, got := [] } = s.updHub (fun h => h.reply { addr := addr, len := len, got := [] }) := by
  unfold State.readUnit
  rw [none]
  rfl

theorem State.readUnit_one (s : State) {addr len : Nat} (one : hostUnits addr len = [(addr, len)]) :
    s.readUnit { addr := addr, len := len, got := [] } =
      (s.serveOutside (addrs addr len)).updHub (fun h => h.reply { addr := addr, len := len, got := [(addr, s.unitRead addr len)] }) := by
  unfold State.readUnit
  rw [one]
  rfl

theorem Hub.reply_none (h : Hub) {addr len : Nat} (none : hostUnits addr len = []) :
    (h.reply { addr := addr, len := len, got := [] }).hostPoison = false ∧ (h.reply { addr := addr, len := len, got := [] }).hostReply = [] := by
  unfold Hub.reply
  rw [none]
  exact ⟨rfl, rfl⟩

theorem Hub.reply_one (h : Hub) {addr len : Nat} (one : hostUnits addr len = [(addr, len)]) (v : Option (List Byte)) :
    (h.reply { addr := addr, len := len, got := [(addr, v)] }).hostPoison = v.isNone ∧
      (h.reply { addr := addr, len := len, got := [(addr, v)] }).hostReply = v.getD (List.replicate len 0xFF) := by
  unfold Hub.reply
  rw [one]
  cases v <;> simp [aget]

theorem hostMemoryRead_wide {s : State} {addr len : Nat} (reach : s.hostReach addr len = true) (idle : s.hub.hostAsk = none)
    (wide : 1 < (hostUnits addr len).length) :
    ∃ t q, exec (.hostMemoryRead addr len) s = .next t ∧ t.hub.hostAsk = some q ∧ q.addr = addr ∧ q.len = len ∧ q.got.length = 1 ∧
      t.hub.hostReply = s.hub.hostReply ∧ UnderWay t (.hostMemoryRead addr len) ∧ SameMemory s t := by
  obtain ⟨u, read⟩ := s.readUnit_wide wide
  exact ⟨_, _, (exec_hostMemoryRead reach idle).trans (congrArg _ read), rfl, rfl, rfl, rfl,
    (congrArg Hub.hostReply (s.serveOutside_offVectors (addrs u.1 u.2)) :), State.underWay_after _ _,
    fun a => congrArg (Memory.get · a) (s.serveOutside_mem (addrs u.1 u.2))⟩

section Short

variable {s : State} {addr len : Nat} (reach : s.hostReach addr len = true) (inside : addr + len ≤ 2 ^ 48) (idle : s.hub.hostAsk = none)
  (short : (hostUnits addr len).length ≤ 1)
include reach inside idle short

theorem hostMemoryRead_clean (clean : ∀ i < len, unitOf (addr + i) ∉ s.poison ∧ ∀ w ∈ s.fatals, lineOf w ≠ lineOf (addr + i)) :
    ∃ t, exec (.hostMemoryRead addr len) s = .next t ∧ t.hub.hostPoison = false ∧
      t.hub.hostReply = (List.range len).map (fun i => Memory.get s.mem (addr + i)) ∧ SameMemory s t := by
  have run := exec_hostMemoryRead reach idle
  rcases hostUnits_short short with ⟨rfl, none⟩ | ⟨-, one⟩
  · rw [s.readUnit_none none] at run
    exact ⟨_, run, (Hub.reply_none _ none).1, (Hub.reply_none _ none).2, fun _ => rfl⟩
  · have found : s.unitRead addr len = some ((List.range len).map (fun i => Memory.get s.mem (addr + i))) := by
      rw [State.unitRead, State.firstPoison_clean inside clean, State.bytesNow_served inside]
      rfl
    rw [s.readUnit_one one, found] at run
    exact ⟨_, run, (Hub.reply_one _ one _).1, (Hub.reply_one _ one _).2, fun a => congrArg (Memory.get · a) (s.serveOutside_mem _)⟩

theorem hostMemoryRead_poisoned (poisoned : ∃ i < len, unitOf (addr + i) ∈ s.poison) :
    ∃ t, exec (.hostMemoryRead addr len) s = .next t ∧ t.hub.hostPoison = true ∧ t.hub.hostReply = List.replicate len 0xFF ∧
      SameMemory s t := by
  obtain ⟨i, hi, poison⟩ := poisoned
  have run := exec_hostMemoryRead reach idle
  rcases hostUnits_short short with ⟨rfl, -⟩ | ⟨-, one⟩
  · cases hi
  · have found : s.unitRead addr len = none := if_pos (State.firstPoison_poisoned inside hi poison)
    rw [s.readUnit_one one, found] at run
    exact ⟨_, run, (Hub.reply_one _ one _).1, (Hub.reply_one _ one _).2, fun a => congrArg (Memory.get · a) (s.serveOutside_mem _)⟩

end Short

/-! ### Registers of the control BAR -/

/-- A write of a whole register whose place is known. -/
theorem registerWrite_hlstat (s : State) (v : Word) : ∃ t, exec (.registerWrite (.bar 0x10000 8) v) s = .next t ∧
    t.hub.hlstat = s.hub.hlstat &&& ~~~(v &&& 0x800) ∧ SameMemory s t :=
  ⟨_, rfl, rfl, fun _ => rfl⟩

theorem registerWrite_ulstat (s : State) (v : Word) (p : Fin 18) :
    ∃ t, exec (.registerWrite (.bar (0x10100 + 8 * p.val) 8) v) s = .next t ∧
      t.hub.ulstat[p] = s.hub.ulstat[p] &&& ~~~(v &&& 0xC) ∧ SameMemory s t := by
  have bound := p.isLt
  have run : exec (.registerWrite (.bar (0x10100 + 8 * p.val) 8) v) s = .next (s.updPort p.val (fun u => rs u v 0xC)) := by
    show s.barWrite _ _ _ = _
    have base : (0x10100 + 8 * p.val) / 8 * 8 = 0x10100 + 8 * p.val := by omega
    have port : (0x10100 + 8 * p.val - 0x10100) / 8 = p.val := by omega
    unfold State.barWrite
    simp only [base, port]
    rw [if_neg (by simp), if_neg (by simp; omega), if_neg (by omega), if_pos (by simp; omega)]
    rfl
  obtain ⟨port, -, mem⟩ := s.updPort_hub p (fun u => rs u v 0xC)
  exact ⟨_, run, port, fun a => congrArg (Memory.get · a) mem⟩

theorem registerWrite_hestat (s : State) (v : Word) (h : CoreId) :
    ∃ t, exec (.registerWrite (.bar (0x20008 + 0x100 * h.val) 8) v) s = .next t ∧
      (t.home h).hestat = (s.home h).hestat &&& ~~~(v &&& 0x1F) ∧ SameMemory s t := by
  have bound := h.isLt
  have run : exec (.registerWrite (.bar (0x20008 + 0x100 * h.val) 8) v) s =
      .next (s.updHome h (fun m => { m with hestat := rs m.hestat v 0x1F })) := by
    show s.barWrite _ _ _ = _
    have base : (0x20008 + 0x100 * h.val) / 8 * 8 = 0x20008 + 0x100 * h.val := by omega
    have home : (0x20008 + 0x100 * h.val - 0x20000) / 0x100 % 8 = h.val := by omega
    unfold State.barWrite
    simp only [base, home]
    rw [if_neg (by simp; omega), if_neg (by simp; omega), if_neg (by omega), if_neg (by simp; omega), if_pos (by simp; omega)]
    rfl
  refine ⟨_, run, ?_, fun _ => rfl⟩
  rw [State.home_updHome]
  rfl

end Sys2Proof.Machine

end

section
/-! The requests of peers to package memory (R53, R84, R121, R204 to R206). -/

namespace Sys2Proof.Machine

open Sys2Proof.Claims

/-! ### A request that may act -/

/-- No sub-bank is asked for package memory (R121). -/
theorem State.slicePlaces_package (s : State) {addr len : Nat} (inside : addr + len ≤ 2 ^ 48) :
    slicePlaces ((addrs addr len).map s.place) = [] := by
  unfold slicePlaces
  rw [List.filterMap_eq_nil_iff.2 fun x hx => ?_]
  · rfl
  · obtain ⟨a, ha, rfl⟩ := List.mem_map.1 hx
    have small := State.mem_addrs_package inside ha
    rw [(s.plain_package small).1, regionOf_package small]

theorem State.hubTakes_package (s : State) (e : Instr) {addr len : Nat} (inside : addr + len ≤ 2 ^ 48) :
    ∃ x, (s.hubTakes e (addrs addr len)).1 = s.updHub (fun h => { h with hubWaits := x }) := by
  unfold State.hubTakes
  split
  · split
    · exact ⟨_, rfl⟩
    · exact ⟨s.hub.hubWaits, rfl⟩
  · rw [s.slicePlaces_package inside]
    exact ⟨s.hub.hubWaits, rfl⟩

/-- A request of a peer to package memory that may act leaves everything but what homes and hub keep of it. -/
theorem State.peerReady_acts {s : State} {port addr len : Nat} {r : PeerReq} (inside : addr + len ≤ 2 ^ 48)
    (ready : (s.peerReady port r (addrs addr len)).2 = true) :
    ∃ x y, (s.peerReady port r (addrs addr len)).1 = (s.withHomes x).updHub (fun h => { h with hubWaits := y }) := by
  have homes : ∀ w : State × Bool, w = (if peerWrites r then s.writeReady (.peerAccessRequest port r) (addrs addr len) else (s, true)) →
      w.2 = true → ∃ x, w.1 = s.withHomes x := by
    rintro _ rfl acts
    split at acts
    · next writes =>
      rw [if_pos writes]
      exact State.writeReady_homes acts
    · next reads =>
      rw [if_neg reads]
      exact ⟨s.homes, rfl⟩
  unfold State.peerReady at ready ⊢
  dsimp only at ready ⊢
  generalize taken : (if peerWrites r then s.writeReady (.peerAccessRequest port r) (addrs addr len) else (s, true)) = w at ready ⊢
  split at ready
  · next acts =>
    rw [if_pos acts]
    obtain ⟨x, same⟩ := homes w taken.symm acts
    obtain ⟨y, taken⟩ := w.1.hubTakes_package (.peerAccessRequest port r) inside
    exact ⟨x, y, by rw [taken, same]⟩
  · next waits => exact absurd ready waits

/-- Nor does one that waits change memory or the time. -/
theorem State.peerReady_waits (s : State) {port addr len : Nat} {r : PeerReq} (inside : addr + len ≤ 2 ^ 48) :
    (s.peerReady port r (addrs addr len)).1.mem = s.mem ∧ (s.peerReady port r (addrs addr len)).1.now = s.now := by
  have beside := s.writeReady_besideHomes (.peerAccessRequest port r) (addrs addr len)
  have waits : ∀ w : State × Bool, w = (if peerWrites r then s.writeReady (.peerAccessRequest port r) (addrs addr len) else (s, true)) →
      w.1.mem = s.mem ∧ w.1.now = s.now := by
    rintro _ rfl
    split
    · exact ⟨(congrArg State.mem beside :), (congrArg State.now beside :)⟩
    · exact ⟨rfl, rfl⟩
  unfold State.peerReady
  extract_lets w
  split
  · obtain ⟨y, taken⟩ := w.1.hubTakes_package (.peerAccessRequest port r) inside
    rw [taken]
    exact waits w rfl
  · exact waits w rfl

/-- What a request of a peer at an IA does once it may act (R84). -/
def State.peerServe (s : State) (ia : Nat) : PeerReq → State
  | .read _ len => (s.serveOutside (addrs ia len)).peerAnswer
      (if ((s.serveOutside (addrs ia len)).firstPoison (addrs ia len)).isSome then []
        else (addrs ia len).map (s.serveOutside (addrs ia len)).byteNow)
  | .write _ data => s.agentWrite Writer.outside (atAddr ia data) false
  | .atom _ f wide b => s.peerAtomic ia (if wide then 8 else 4) (.op f) b.toNat
  | .cas _ wide e v => s.peerAtomic ia (if wide then 8 else 4) (.cas e) v.toNat

section Request

variable {s : State} {port : Fin 18} {off : Nat} (up : getBits s.hub.ulstat[port] 0 2 = 2) (low : off < 2 ^ 40) (resident : s.resident off = true)
include up low resident

/-- A request to a resident share of package memory goes by whether it may act. -/
theorem exec_peerAccessRequest {r : PeerReq} (place : (peerExtent r).1 = off) (ok : peerOk r = true) (short : (peerExtent r).2 ≤ 256) :
    exec (.peerAccessRequest port.val r) s = .next
      (if (s.peerReady port.val r (addrs off (peerExtent r).2)).2 then (s.peerReady port.val r (addrs off (peerExtent r).2)).1.peerServe off r
      else (s.peerReady port.val r (addrs off (peerExtent r).2)).1.afterN 1 (.peerAccessRequest port.val r)) := by
  have target : peerTarget (peerExtent r).1 = some off := by rw [place]; exact if_pos low
  have region : oneRegion off (peerExtent r).2 = true := by
    unfold oneRegion
    rw [regionOf_package (by omega), regionOf_package (by omega)]
    rfl
  show execPeerAccessRequest port.val r s = _
  unfold execPeerAccessRequest
  simp only [target, ok, region, resident, portState_toList, up, decide_eq_true port.isLt]
  cases ready : (s.peerReady port.val r (addrs off (peerExtent r).2)).2 with
  | false => rfl
  | true => cases r <;> rfl

theorem peerRead_answers {len : Nat} (some : 1 ≤ len) (short : len ≤ 256) (block : off / 256 = (off + len - 1) / 256)
    (ready : (s.peerReady port.val (.read off len) (addrs off len)).2 = true)
    (clean : ∀ i < len, unitOf (off + i) ∉ s.poison ∧ ∀ w ∈ s.fatals, lineOf w ≠ lineOf (off + i)) :
    ∃ t, exec (.peerAccessRequest port.val (.read off len)) s = .next t ∧
      t.hub.peerReply = (List.range len).map (fun i => Memory.get s.mem (off + i)) ∧ SameMemory s t := by
  have ok : peerOk (.read off len) = true := by
    simp only [peerOk, peerExtent]
    simp [some, short, ← block]
  have inside : off + len ≤ 2 ^ 48 := by omega
  have run := exec_peerAccessRequest up low resident (r := .read off len) rfl ok short
  obtain ⟨x, y, same⟩ := State.peerReady_acts (r := .read off len) inside ready
  rw [show (peerExtent (.read off len)).2 = len from rfl, if_pos ready, same] at run
  refine ⟨_, run, ?_, fun a => congrArg (Memory.get · a) (State.serveOutside_mem _ _)⟩
  have found := State.firstPoison_clean (s := (s.withHomes x).updHub (fun h => { h with hubWaits := y })) inside clean
  refine (if_neg (by rw [found]; exact Bool.false_ne_true)).trans ?_
  exact State.bytesNow_served (s := (s.withHomes x).updHub (fun h => { h with hubWaits := y })) inside

section Write

variable {data : List Byte} (some : 1 ≤ data.length) (short : data.length ≤ 256) (block : off / 256 = (off + data.length - 1) / 256)
include some short block

theorem exec_peerWrite : exec (.peerAccessRequest port.val (.write off data)) s = .next
    (if (s.peerReady port.val (.write off data) (addrs off data.length)).2 then
      (s.peerReady port.val (.write off data) (addrs off data.length)).1.agentWrite Writer.outside (atAddr off data) false
    else (s.peerReady port.val (.write off data) (addrs off data.length)).1.afterN 1 (.peerAccessRequest port.val (.write off data))) := by
  have ok : peerOk (.write off data) = true := by
    simp only [peerOk, peerExtent]
    simp [some, short, ← block]
  exact exec_peerAccessRequest up low resident (r := .write off data) rfl ok short

theorem peerWrite_acts (canonical : s.canonical) (ready : (s.peerReady port.val (.write off data) (addrs off data.length)).2 = true) :
    ∃ t, exec (.peerAccessRequest port.val (.write off data)) s = .next t ∧
      ∀ a, Memory.get t.mem a = if off ≤ a ∧ a < off + data.length then data.getD (a - off) 0 else Memory.get s.mem a := by
  have run := exec_peerWrite up low resident some short block
  have inside : off + data.length ≤ 2 ^ 48 := by omega
  obtain ⟨x, y, same⟩ := State.peerReady_acts (r := .write off data) inside ready
  rw [if_pos ready, same] at run
  exact ⟨_, run, State.get_agentWrite_package (s := (s.withHomes x).updHub (fun h => { h with hubWaits := y })) canonical.1 inside _ _⟩

theorem peerWrite_waits (waits : (s.peerReady port.val (.write off data) (addrs off data.length)).2 = false) :
    ∃ t, exec (.peerAccessRequest port.val (.write off data)) s = .next t ∧
      (s.now + 1, Instr.peerAccessRequest port.val (.write off data)) ∈ t.agenda ∧ SameMemory s t := by
  have run := exec_peerWrite up low resident some short block
  have inside : off + data.length ≤ 2 ^ 48 := by omega
  obtain ⟨mem, now⟩ := s.peerReady_waits (port := port.val) (r := .write off data) inside
  rw [waits] at run
  refine ⟨_, run, ?_, fun a => congrArg (Memory.get · a) mem⟩
  rw [← now]
  exact List.mem_append_right _ (.head _)

end Write

end Request

/-! ### Atomics -/

theorem toSigned_toNat {w : Nat} (x : BitVec w) : toSigned w x.toNat = x.toInt := by
  rw [BitVec.toInt_eq_toNat_cond]
  unfold toSigned
  simp

/-- The function of an atomic of 64 bits, on numbers and on words (R205). -/
theorem atomNew_toNat {f : Nat} (known : f ≤ 8) (old b : Word) : atomNew f 64 old.toNat b.toNat = (atomValue f old b).toNat := by
  have equal : old.toInt ≤ b.toInt → b.toInt ≤ old.toInt → old = b := fun h h' => BitVec.toInt_inj.1 (Int.le_antisymm h h')
  have total := le_total old.toInt b.toInt
  unfold atomNew atomValue
  interval_cases f <;> simp only [toSigned_toNat, decide_eq_true_eq]
  · exact (BitVec.toNat_add old b).symm
  · exact (BitVec.toNat_and old b).symm
  · exact (BitVec.toNat_or old b).symm
  · exact (BitVec.toNat_xor old b).symm
  all_goals simp <;> grind

theorem natOfBytes_word (m : Table Byte) (a : Nat) : (BitVec.ofNat 64 (natOfBytes (Memory.bytes m a 8))).toNat = natOfBytes (Memory.bytes m a 8) := by
  have small := natOfBytes_lt (Memory.bytes m a 8)
  rw [Memory.bytes_length] at small
  exact Nat.mod_eq_of_lt small

/-- The bytes of a unit of 8 lie in one line, so they are clean together. -/
theorem State.clean_unit {s : State} {off : Nat} (low : off < 2 ^ 40) (aligned : off % 8 = 0) (poison : unitOf off ∉ s.poison)
    (fatals : ∀ w ∈ s.fatals, lineOf w ≠ lineOf off) : ∀ i < 8, unitOf (off + i) ∉ s.poison ∧ ∀ w ∈ s.fatals, lineOf w ≠ lineOf (off + i) := by
  intro i hi
  have line : lineOf (off + i) = lineOf off := by unfold lineOf; omega
  have unit : ∀ a, a < 2 ^ 48 → unitOf a = lineOf a := fun a ha => by
    unfold unitOf
    rw [regionOf_package ha]
    rfl
  rw [unit (off + i) (by omega), line]
  exact ⟨unit off (by omega) ▸ poison, fatals⟩

/-- An atomic of 64 bits on clean package memory: the old value is given back, and the function of it is left there. -/
theorem State.peerAtomic_acts {s : State} {off : Nat} (wf : Memory.wf s.mem = true) (low : off < 2 ^ 40) (aligned : off % 8 = 0)
    (poison : unitOf off ∉ s.poison) (fatals : ∀ w ∈ s.fatals, lineOf w ≠ lineOf off) {f : BitVec 4} (known : f.toNat ≤ 8) (b : Word) :
    let old := BitVec.ofNat 64 (natOfBytes (Memory.bytes s.mem off 8))
    natOfBytes (s.peerAtomic off 8 (.op f) b.toNat).hub.peerReply = old.toNat ∧
      natOfBytes (Memory.bytes (s.peerAtomic off 8 (.op f) b.toNat).mem off 8) = (atomValue f.toNat old b).toNat ∧
      ∀ a, (a < off ∨ off + 8 ≤ a) → Memory.get (s.peerAtomic off 8 (.op f) b.toNat).mem a = Memory.get s.mem a := by
  intro old
  have inside : off + 8 ≤ 2 ^ 48 := by omega
  have clean := State.firstPoison_clean (s := s) inside (State.clean_unit low aligned poison fatals)
  have word : (s.serveOutside (addrs off 8)).wordNow off 8 = old.toNat := by
    rw [State.wordNow, State.bytesNow_served inside]
    refine Eq.trans ?_ (natOfBytes_word s.mem off).symm
    rw [Memory.bytes_eq_map, addrs, List.map_map]
    rfl
  have value : AtomKind.write (.op f) (8 * 8) old.toNat (b.toNat % 2 ^ (8 * 8)) = some (atomValue f.toNat old b).toNat := by
    rw [Nat.mod_eq_of_lt b.isLt]
    exact congrArg some (atomNew_toNat known old b)
  have same : s.peerAtomic off 8 (.op f) b.toNat =
      ((s.serveOutside (addrs off 8)).agentWrite Writer.outside (atAddr off (bytesOfNat 8 (atomValue f.toNat old b).toNat)) false).peerAnswer
        (bytesOfNat 8 old.toNat) := by
    unfold State.peerAtomic
    simp only [clean, word, value]
    rfl
  have length := bytesOfNat_length 8 (atomValue f.toNat old b).toNat
  have get := State.get_agentWrite_package (s := s.serveOutside (addrs off 8)) (data := bytesOfNat 8 (atomValue f.toNat old b).toNat)
    (addr := off) (by rw [State.serveOutside_mem]; exact wf) (by rw [length]; exact inside) Writer.outside false
  rw [same]
  refine ⟨?_, ?_, fun a apart => ?_⟩
  · refine (natOfBytes_bytesOfNat 8 old.toNat).trans (Nat.mod_eq_of_lt old.isLt)
  · have bytes := Memory.bytes_eq_of_get (l := bytesOfNat 8 (atomValue f.toNat old b).toNat) (a := off) fun i hi => (get (off + i)).trans (by
      rw [if_pos ⟨by omega, by omega⟩, Nat.add_sub_cancel_left, List.getD_eq_getElem _ _ hi])
    rw [length] at bytes
    refine (congrArg natOfBytes bytes).trans ?_
    exact (natOfBytes_bytesOfNat 8 _).trans (Nat.mod_eq_of_lt (BitVec.isLt _))
  · refine (get a).trans ?_
    rw [if_neg (by rw [length]; omega), State.serveOutside_mem]

theorem peerAtomic_answers {s : State} {port : Fin 18} {off : Nat} (up : getBits s.hub.ulstat[port] 0 2 = 2) (low : off < 2 ^ 40)
    (resident : s.resident off = true) {f : BitVec 4} {b : Word} (known : f.toNat ≤ 8) (aligned : off % 8 = 0) (canonical : s.canonical)
    (poison : unitOf off ∉ s.poison) (fatals : ∀ w ∈ s.fatals, lineOf w ≠ lineOf off)
    (ready : (s.peerReady port.val (.atom off f true b) (addrs off 8)).2 = true) :
    let old := BitVec.ofNat 64 (natOfBytes (Memory.bytes s.mem off 8))
    ∃ t, exec (.peerAccessRequest port.val (.atom off f true b)) s = .next t ∧ natOfBytes t.hub.peerReply = old.toNat ∧
      natOfBytes (Memory.bytes t.mem off 8) = (atomValue f.toNat old b).toNat ∧
      ∀ a, (a < off ∨ off + 8 ≤ a) → Memory.get t.mem a = Memory.get s.mem a := by
  have ok : peerOk (.atom off f true b) = true := by
    simp only [peerOk, peerExtent]
    simp [aligned]
    omega
  have run := exec_peerAccessRequest up low resident (r := .atom off f true b) rfl ok (by simp [peerExtent])
  obtain ⟨x, y, same⟩ := State.peerReady_acts (r := .atom off f true b) (by omega) ready
  rw [show (peerExtent (.atom off f true b)).2 = 8 from rfl, if_pos ready, same] at run
  exact ⟨_, run, State.peerAtomic_acts (s := (s.withHomes x).updHub (fun h => { h with hubWaits := y })) canonical.1 low aligned poison fatals known b⟩

end Sys2Proof.Machine

end

section
/-! Accesses that have waited 50 ms for their link (R75, R80, R85). -/

namespace Sys2Proof.Machine

open Sys2Proof.Claims

/-! ### The load -/

theorem Stream.endOp_load {x : Stream} {o : Op} {d : BitVec 6} {ia len : Nat} {ea : Word} {newest : Bool}
    (kind : o.kind = .load d ia len ea newest) (r : BitVec 6) : (x.endOp o).rs r = x.rs r ∧ (x.endOp o).ld = fell x o.id x.ld := by
  unfold Stream.endOp fell
  rw [kind]
  by_cases old : o.id < x.opBase
  · simp only [old, if_true, Nat.not_le.2 old, if_false]
    exact ⟨rfl, trivial⟩
  · simp only [old, if_false, Nat.le_of_not_lt old, if_true]
    exact ⟨rfl, trivial⟩

/-- A report pends, or stops a stream that has halted: registers and counters stay. -/
theorem State.report_registers (s : State) (c : CoreId) (b : Bool) (q : TrapReq) (r : BitVec 6) :
    ((s.report c b q).stream c b).rs r = (s.stream c b).rs r ∧ ((s.report c b q).stream c b).ld = (s.stream c b).ld := by
  unfold State.report
  extract_lets x
  repeat' split
  · exact ⟨rfl, rfl⟩
  · rw [s.stream_stopStream]
    exact ⟨rfl, rfl⟩
  · exact ⟨rfl, rfl⟩
  · rw [s.stream_updStream]
    exact ⟨rfl, rfl⟩

/-- A scalar lands in the stream of a live context, and its operation ends. -/
theorem State.stream_landOp_scalar (s : State) (c : CoreId) (sec : Bool) (o : Op) (d : BitVec 6) (v : Word) :
    (s.landOp c false sec o [.scalar d v]).stream c sec =
      Stream.endOp { (s.stream c sec).ws d v with badScalar := (s.stream c sec).badScalar.filter (· != d) } o := by
  refine (State.bankStream_updBankStream (s.updBank c false (fun x => x.land sec (.scalar d v))) c false sec _).trans ?_
  unfold State.updBank
  rw [State.core_updCore, Core.bankCtx_updBank]
  exact congrArg (Stream.endOp · o) (Ctx.stream_updStream ..)

theorem Stream.rs_ws_zero (x : Stream) (d : BitVec 6) : (x.ws d 0).rs d = 0 := by
  rw [Stream.rs_ws]
  by_cases zero : d = 0#6
  · subst zero
    rfl
  · rw [if_pos ⟨rfl, zero⟩]

/-- A load that fails on its link lands zero. -/
theorem State.failOp_load {s : State} {c : CoreId} {sec : Bool} {o : Op} {d : BitVec 6} {ia len : Nat} {ea : Word} {newest : Bool}
    (found : (s.core c).opBank o.id = some (false, sec, o)) (kind : o.kind = .load d ia len ea newest) (drop : State → State) :
    ((s.failOp c o.id drop).stream c sec).rs d = 0 ∧
      ((s.failOp c o.id drop).stream c sec).ld = fell (s.stream c sec) o.id (s.stream c sec).ld ∧ SameMemory s (s.failOp c o.id drop) := by
  have fails : s.failOp c o.id drop = (s.landOp c false sec o [.scalar d 0]).report c sec { cause := 0x11, tval := ea } := by
    unfold State.failOp
    simp only [found, kind]
    rfl
  obtain ⟨rs, ld⟩ := State.report_registers (s.landOp c false sec o [.scalar d 0]) c sec { cause := 0x11, tval := ea } d
  obtain ⟨ended, counted⟩ := Stream.endOp_load
    (x := { (s.stream c sec).ws d 0 with badScalar := (s.stream c sec).badScalar.filter (· != d) }) kind d
  rw [State.stream_landOp_scalar] at rs ld
  rw [fails]
  refine ⟨rs.trans (ended.trans (Stream.rs_ws_zero (s.stream c sec) d)), ld.trans (counted.trans ?_), fun a => ?_⟩
  · unfold Stream.ws
    split <;> rfl
  · rw [State.report_mem]
    rfl

/-! ### The store -/

/-- A store that fails on its link is dropped, and ends. -/
theorem State.failOp_store {s : State} {c : CoreId} {sec : Bool} {o : Op} {bytes : List (Nat × Byte)} {fresh host : Bool}
    (found : (s.core c).opBank o.id = some (false, sec, o)) (kind : o.kind = .store bytes fresh host) (drop : State → State) :
    s.failOp c o.id drop = (drop s).updBankStream c false sec (fun x => (x.endOp o).markApplied o.id s.now) := by
  unfold State.failOp
  simp only [found, kind]

/-- What drops the requests of a store, in the core's own words: hub and counts change, no stream does. -/
theorem State.failOp_store_st {s : State} {c : CoreId} {sec : Bool} {o : Op} {bytes : List (Nat × Byte)} {fresh host : Bool}
    (found : (s.core c).opBank o.id = some (false, sec, o)) (kind : o.kind = .store bytes fresh host) {drop : State → State}
    (off : (drop s).offMemory = s.offMemory) (mem : (drop s).mem = s.mem) :
    ((s.failOp c o.id drop).stream c sec).st = fell (s.stream c sec) o.id (s.stream c sec).st ∧ SameMemory s (s.failOp c o.id drop) ∧
      (s.failOp c o.id drop).hub = (drop s).hub := by
  rw [State.failOp_store found kind]
  have ended := (storeEnded_endOp (y := (drop s).stream c sec) kind (State.offMemory_stream off c false sec) s.now).1
  exact ⟨(congrArg Stream.st (State.bankStream_updBankStream (drop s) c false sec _)).trans ended, fun a => congrArg (Memory.get · a) mem, rfl⟩

/-! ### The timeouts -/

section Timeout

variable {s : State} {c : CoreId} {sec : Bool} {o : Op} (found : (s.core c).opBank o.id = some (false, sec, o))
include found

theorem exec_hostCompletionTimeout : exec (.hostCompletionTimeout c o.id) s = .next (if o.sentAt + 80000000 ≤ s.now ∧ onHost o.kind.addrs = true then
      s.failOp c o.id (fun s => s.updHub (fun h => { h with hlstat := satAdd h.hlstat 32 16 1 })) else s) := by
  show execHostCompletionTimeout c o.id s = _
  unfold execHostCompletionTimeout State.timeOutOp
  simp only [found, Bool.and_eq_true, decide_eq_true_eq]
  rfl

theorem exec_peerAccessTimeout : exec (.peerAccessTimeout c o.id) s = .next (if o.sentAt + 80000000 ≤ s.now ∧ onPeer o.kind.addrs = true then
      s.failOp c o.id (fun s => o.ports.foldl (fun s p => s.dropRequest p.2) s) else s) := by
  show execPeerAccessTimeout c o.id s = _
  unfold execPeerAccessTimeout State.timeOutOp
  simp only [found, Bool.and_eq_true, decide_eq_true_eq]
  rfl

/-- The timeout of an operation over its link, by what it fails with. -/
def timesOut (c : CoreId) (o : Op) (i : Instr) : Prop :=
  (i = .hostCompletionTimeout c o.id ∧ onHost o.kind.addrs = true) ∨ (i = .peerAccessTimeout c o.id ∧ onPeer o.kind.addrs = true)

/-- Before 50 ms, or on the other link, nothing happens. -/
theorem timeout_early {i : Instr} (timeout : i ∈ [Instr.hostCompletionTimeout c o.id, .peerAccessTimeout c o.id])
    (early : s.now < o.sentAt + 80000000 ∨ ¬timesOut c o i) : Nothing i s := by
  simp only [List.mem_cons, List.not_mem_nil, or_false] at timeout
  rcases timeout with rfl | rfl
  · refine (exec_hostCompletionTimeout found).trans (congrArg _ (if_neg fun ⟨late, on⟩ => ?_))
    exact early.elim (fun before => by omega) (fun not => not (.inl ⟨rfl, on⟩))
  · refine (exec_peerAccessTimeout found).trans (congrArg _ (if_neg fun ⟨late, on⟩ => ?_))
    exact early.elim (fun before => by omega) (fun not => not (.inr ⟨rfl, on⟩))

variable (late : o.sentAt + 80000000 ≤ s.now)
include late

theorem timeout_load {d : BitVec 6} {ia len : Nat} {ea : Word} {newest : Bool} (kind : o.kind = .load d ia len ea newest) {i : Instr}
    (waits : timesOut c o i) :
    ∃ t, exec i s = .next t ∧ (t.stream c sec).rs d = 0 ∧ (t.stream c sec).ld = fell (s.stream c sec) o.id (s.stream c sec).ld ∧
      SameMemory s t := by
  rcases waits with ⟨rfl, on⟩ | ⟨rfl, on⟩
  · exact ⟨_, (exec_hostCompletionTimeout found).trans (congrArg _ (if_pos ⟨late, on⟩)), State.failOp_load found kind _⟩
  · exact ⟨_, (exec_peerAccessTimeout found).trans (congrArg _ (if_pos ⟨late, on⟩)), State.failOp_load found kind _⟩

variable {bytes : List (Nat × Byte)} {fresh host : Bool} (kind : o.kind = .store bytes fresh host)
include kind

theorem timeout_hostStore (on : onHost o.kind.addrs = true) :
    ∃ t, exec (.hostCompletionTimeout c o.id) s = .next t ∧ (t.stream c sec).st = fell (s.stream c sec) o.id (s.stream c sec).st ∧
      getBits t.hub.hlstat 32 16 = Nat.min (getBits s.hub.hlstat 32 16 + 1) 65535 ∧ SameMemory s t := by
  obtain ⟨st, same, hub⟩ := State.failOp_store_st found kind
    (drop := fun s => s.updHub (fun h => { h with hlstat := satAdd h.hlstat 32 16 1 })) rfl rfl
  exact ⟨_, (exec_hostCompletionTimeout found).trans (congrArg _ (if_pos ⟨late, on⟩)), st,
    hub ▸ getBits_satAdd s.hub.hlstat 1 (by decide), same⟩

theorem timeout_peerStore (on : onPeer o.kind.addrs = true) :
    ∃ t, exec (.peerAccessTimeout c o.id) s = .next t ∧ (t.stream c sec).st = fell (s.stream c sec) o.id (s.stream c sec).st ∧ SameMemory s t ∧
      ∀ b (n : Fin 18), o.ports = [(b, some n.val)] →
        getBits t.hub.ulstat[n] 48 16 = Nat.min (getBits s.hub.ulstat[n] 48 16 + 1) 65535 := by
  obtain ⟨st, same, hub⟩ := State.failOp_store_st found kind (drop := fun s => o.ports.foldl (fun s p => s.dropRequest p.2) s)
    (foldl_view State.offMemory (fun t (p : Nat × Option Nat) => t.dropRequest_offMemory p.2) _ s)
    (foldl_view State.mem (fun t (p : Nat × Option Nat) => t.dropRequest_mem p.2) _ s)
  refine ⟨_, (exec_peerAccessTimeout found).trans (congrArg _ (if_pos ⟨late, on⟩)), st, same, fun b n ports => ?_⟩
  rw [hub, ports]
  obtain ⟨port, -, -⟩ := s.updPort_hub n (fun u => satAdd u 48 16 1)
  exact (congrArg (getBits · 48 16) port).trans (getBits_satAdd s.hub.ulstat[n] 1 (by decide))

end Timeout

/-- Settles O31: the shown state of each link, the units of host and peer accesses, the kinds of registers, and the timeouts. -/
theorem linksAndHost : Obligations.LinksAndHost := by
  intro s
  refine ⟨fun rate width io cache memory lzp known rates widths => hostLink_shown io cache memory lzp known rates widths,
    hostLinkDown_shown, linkReplay_host s, linkReplay_port s,
    fun p => ⟨ualinkPortUp_shown s p, ualinkPortDown_shown s p, ualinkIdMismatch_shown s p, ualinkTrainingTimeout_shown s p⟩,
    fun addr data inside => ⟨hostMemoryWrite_reach inside, fun out => exec_hostMemoryWrite_elsewhere out (s.foreign_package inside)⟩,
    fun addr data => hostMemoryWrite_wide, fun addr len u => mem_hostUnits, fun addr len => hostMemoryRead_wide,
    fun addr data => hostMemoryWrite_foreign,
    fun addr len reach inside idle short => ⟨hostMemoryRead_clean reach inside idle short, hostMemoryRead_poisoned reach inside idle short⟩,
    fun v => ⟨registerWrite_hlstat s v, registerWrite_ulstat s v, registerWrite_hestat s v, rfl, fun off known => ?_⟩,
    fun port off up low resident => ⟨fun len some short block => peerRead_answers up low resident some short block,
      fun data some short block canonical => ⟨peerWrite_acts up low resident some short block canonical, peerWrite_waits up low resident some short block⟩,
      fun f b known aligned canonical poison fatals => peerAtomic_answers up low resident known aligned canonical poison fatals⟩,
    fun c sec o found => ⟨fun i timeout early => timeout_early found timeout early,
      fun late => ⟨fun d ia len ea newest kind i waits => timeout_load found late kind waits,
        fun bytes fresh host kind => ⟨timeout_hostStore found late kind, timeout_peerStore found late kind⟩⟩⟩⟩
  simp only [List.mem_cons, List.not_mem_nil, or_false] at known
  rcases known with rfl | rfl | rfl | rfl | rfl <;> rfl

end Sys2Proof.Machine

end

section
/-! Soft errors and failing links (R72, R81, R123, R366). -/

namespace Sys2Proof.Machine

open Sys2Proof.Claims

/-! ### Die-to-die links -/

theorem d2dParityError_resends (s : State) (l : Fin 14) :
    ∃ t, exec (.d2dParityError l.val) s = .next t ∧ t.hub.d2dResends[l] = s.hub.d2dResends[l] + 1 ∧
      (s.hub.d2dResends[l] = 8 → UnderWay t (.d2dLinkFailed l.val)) ∧ SameMemory s t := by
  have run : exec (.d2dParityError l.val) s = _ := dif_pos l.isLt
  refine ⟨_, run, ?_, fun ninth => ?_, fun a => ?_⟩
  · split <;> exact Vector.getElem_set_self ..
  · have count : s.hub.d2dResends[l.val] + 1 = 9 := congrArg (· + 1) ninth
    rw [if_pos count]
    exact State.underWay_after _ _
  · split <;> rfl

theorem d2dLinkFailed_rollsBack (s : State) (l : Fin 14) :
    ∃ t, exec (.d2dLinkFailed l.val) s = .next t ∧ t.hub.d2dFailed.getLsbD l.val = true ∧
      tget 0 t.hub.msix 0 = tget 0 s.hub.msix 0 + 1 ∧ SameMemory s t ∧
      ∀ q ∈ s.tasks, q.started = true → q.state ≠ .retired → q.ended = none → (∃ c ∈ q.cores, c ∈ linkEnds l.val) →
        UnderWay t (.rollback q.key) := by
  have kept : ∀ (ts : List Task) (v : State), (ts.foldl (fun v t => v.after (.rollback t.key)) v).hub = v.hub := fun ts v =>
    foldl_view State.hub (fun (v : State) (t : Task) => (rfl : (v.after (.rollback t.key)).hub = v.hub)) ts v
  refine ⟨_, rfl, ?_, ?_, ?_, fun q member started live ended ⟨c, mine, end_⟩ => ?_⟩
  · rw [kept]
    show (s.hub.d2dFailed ||| BitVec.ofNat 14 (2 ^ l.val)).getLsbD l.val = true
    rw [BitVec.getLsbD_or, BitVec.getLsbD_ofNat, Nat.testBit_two_pow_self, decide_eq_true l.isLt]
    simp
  · rw [kept]
    exact tget_bumped _
  · obtain ⟨-, mem, -, -⟩ := State.underWay_foldl_after (fun t : Task => .rollback t.key)
      (s.tasks.filter (fun t => t.started && t.state ≠ .retired && t.ended.isNone && t.cores.any (fun c => (linkEnds l.val).contains c)))
      ((s.updHub (fun h => { h with d2dFailed := h.d2dFailed ||| BitVec.ofNat 14 (2 ^ l.val) })).msix 0)
    exact fun a => congrArg (Memory.get · a) mem
  · obtain ⟨-, -, -, all⟩ := State.underWay_foldl_after (fun t : Task => .rollback t.key)
      (s.tasks.filter (fun t => t.started && t.state ≠ .retired && t.ended.isNone && t.cores.any (fun c => (linkEnds l.val).contains c)))
      ((s.updHub (fun h => { h with d2dFailed := h.d2dFailed ||| BitVec.ofNat 14 (2 ^ l.val) })).msix 0)
    refine all q (List.mem_filter.2 ⟨member, ?_⟩)
    simp only [started, ended, Bool.and_eq_true, decide_eq_true_eq, List.any_eq_true, List.contains_iff_mem]
    exact ⟨⟨⟨trivial, live⟩, rfl⟩, c, mine, end_⟩

/-! ### Soft errors -/

theorem State.strikeWord_mem (s : State) (w : Nat) (fatal : Bool) : (s.strikeWord w fatal).mem = s.mem := by
  unfold State.strikeWord
  split <;> rfl

theorem softError_sameMemory (s : State) (p : SoftError) : ∃ t, exec (.softError p) s = .next t ∧ SameMemory s t := by
  have same : ∃ t, execSoftError p s = .next t ∧ t.mem = s.mem := by
    have refused : ∀ {b : Prop} [Decidable b] (t : State), t.mem = s.mem → ∃ u, (if b then (.next t : Answer) else .next s) = .next u ∧ u.mem = s.mem :=
      fun {b} _ t mem => by
        by_cases h : b
        · exact ⟨t, if_pos h, mem⟩
        · exact ⟨s, if_neg h, rfl⟩
    unfold execSoftError
    extract_lets v
    cases p with
    | hbm addr fatal => exact refused _ (s.strikeWord_mem _ _)
    | slice c word fatal => exact refused _ (s.strikeWord_mem _ _)
    | scalar c sec r => dsimp only; split <;> exact ⟨_, rfl, rfl⟩
    | pred c sec n => dsimp only; split <;> exact ⟨_, rfl, rfl⟩
    | mask c r => dsimp only; split <;> exact ⟨_, rfl, rfl⟩
    | acc c n e fatal => exact refused _ rfl
    | vector | streamReg | latch | ring | plane => exact ⟨_, rfl, rfl⟩
  obtain ⟨t, run, mem⟩ := same
  exact ⟨t, run, fun a => congrArg (Memory.get · a) mem⟩

/-- An error of a stored word waits in it until the patrol or another read finds it. -/
theorem exec_softError_hbm (s : State) {a : Nat} (paged : pagedHere (regionOf (a / 8 * 8)) = true) (fatal : Bool) :
    exec (.softError (.hbm a fatal)) s = .next ((s.strikeWord (a / 8 * 8) fatal).afterAtMost dayCycles (.hbmPatrolRead (a / 8 * 8))) := by
  have low : a / 8 * 8 < 2 ^ 52 := by
    by_contra high
    unfold regionOf at paged
    rw [if_neg (by omega), if_neg (by omega), if_neg (by omega), if_neg (by omega), if_neg (by omega), if_neg (by omega)] at paged
    split at paged
    · omega
    · cases paged
  refine if_pos ?_
  rw [Nat.mod_eq_of_lt low, Nat.div_eq_of_lt low, paged]
  rfl

theorem softError_hbm (s : State) {a : Nat} (paged : pagedHere (regionOf (a / 8 * 8)) = true) :
    (∃ t, exec (.softError (.hbm a false)) s = .next t ∧
      (a / 8 * 8 ∉ s.flips → a / 8 * 8 ∈ t.flips) ∧ (a / 8 * 8 ∈ s.flips → a / 8 * 8 ∈ t.fatals)) ∧
    (∃ t, exec (.softError (.hbm a true)) s = .next t ∧ a / 8 * 8 ∈ t.fatals) := by
  refine ⟨⟨_, exec_softError_hbm s paged false, fun first => ?_, fun second => ?_⟩, ⟨_, exec_softError_hbm s paged true, .head _⟩⟩
  · show a / 8 * 8 ∈ (s.strikeWord (a / 8 * 8) false).flips
    unfold State.strikeWord
    rw [if_neg (by simpa using first)]
    exact .head _
  · show a / 8 * 8 ∈ (s.strikeWord (a / 8 * 8) false).fatals
    unfold State.strikeWord
    rw [if_pos (by simpa using second)]
    exact .head _

/-- An upset changes the one bit that it names. -/
theorem getLsbD_upset {n : Nat} (x : BitVec n) (v : Word) {i : Nat} (h : i < n) :
    (x ^^^ upsetBit n v).getLsbD i = (x.getLsbD i ^^ decide (i = v.toNat % n)) := by
  rw [BitVec.getLsbD_xor, upsetBit, BitVec.getLsbD_ofNat, Nat.testBit_two_pow, decide_eq_true h, Bool.true_and]
  simp only [eq_comm]

theorem softError_scalar (s : State) (c : CoreId) (sec : Bool) {r : BitVec 6} (nonzero : r ≠ 0) :
    ∃ t k, exec (.softError (.scalar c sec r)) s = .next t ∧ k < 64 ∧ r ∈ (t.stream c sec).badScalar ∧
      ∀ i < 64, ((t.stream c sec).rs r).getLsbD i = (((s.stream c sec).rs r).getLsbD i ^^ decide (i = k)) := by
  have run : exec (.softError (.scalar c sec r)) s = _ := if_neg nonzero
  refine ⟨_, s.freeVal.toNat % 64, run, Nat.mod_lt _ (by decide), ?_, fun i hi => ?_⟩
  · refine (congrArg (r ∈ Stream.badScalar ·) (State.stream_updStream ..)).mpr ?_
    exact .head _
  · refine (congrArg (fun x => (Stream.rs x r).getLsbD i) (State.stream_updStream ..)).trans ?_
    refine (congrArg (BitVec.getLsbD · i) (Stream.rs_ws (s.stream c sec) r r _)).trans ?_
    rw [if_pos ⟨rfl, nonzero⟩]
    exact getLsbD_upset _ _ hi

theorem softError_vector (s : State) (c : CoreId) (r : BitVec 6) :
    ∃ t k, exec (.softError (.vector c r)) s = .next t ∧ k < 8192 ∧ (r, k / 64) ∈ (t.ctx c).badVector ∧
      ∀ i < 8192, ((t.ctx c).rv r).getLsbD i = (((s.ctx c).rv r).getLsbD i ^^ decide (i = k)) := by
  refine ⟨_, s.freeVal.toNat % 8192, rfl, Nat.mod_lt _ (by decide), ?_, fun i hi => ?_⟩
  · refine (congrArg (_ ∈ Ctx.badVector ·) (State.ctx_updCtx ..)).mpr ?_
    exact .head _
  · refine (congrArg (fun x => (Ctx.rv x r).getLsbD i) (State.ctx_updCtx ..)).trans ?_
    refine (congrArg (BitVec.getLsbD · i) (Ctx.rv_wv (s.ctx c) r r (BitVec.allOnes 8192) _)).trans ?_
    rw [if_pos rfl, BitVec.not_allOnes, BitVec.and_zero, BitVec.zero_or, BitVec.and_allOnes]
    exact getLsbD_upset _ _ hi

theorem errorsStrike : ErrorsStrike := fun s =>
  ⟨d2dParityError_resends s, d2dLinkFailed_rollsBack s, softError_sameMemory s, fun _ paged => softError_hbm s paged,
    fun c sec _ nonzero => softError_scalar s c sec nonzero, softError_vector s⟩

end Sys2Proof.Machine

end

section
/-! The power budget and the regulator (R394, R396, R398 to R401). -/

namespace Sys2Proof.Machine

open Sys2Proof.Claims

/-! ### A change of every core -/

theorem State.core_foldl_updCore (f : CoreId → Core → Core) {l : List CoreId} (once : l.Nodup) (s : State) (c : CoreId) :
    (l.foldl (fun s c => s.updCore c (f c)) s).core c = if c ∈ l then f c (s.core c) else s.core c := by
  induction l generalizing s with
  | nil => rfl
  | cons d l ih =>
    obtain ⟨fresh, rest⟩ := List.nodup_cons.1 once
    refine (ih rest (s.updCore d (f d))).trans ?_
    by_cases same : c = d
    · subst same
      rw [if_neg fresh, State.core_updCore, if_pos (.head _)]
    · rw [State.core_updCore_ne s _ same]
      simp [same]

theorem State.core_allCores (f : CoreId → Core → Core) (s : State) (c : CoreId) :
    (allCores.foldl (fun s c => s.updCore c (f c)) s).core c = f c (s.core c) := by
  have all : ∀ c : CoreId, c ∈ allCores := by decide
  rw [State.core_foldl_updCore f (by decide), if_pos (all c)]

/-- A change of every core changes only cores. -/
theorem State.allCores_frame (f : CoreId → Core → Core) (s : State) :
    (allCores.foldl (fun s c => s.updCore c (f c)) s).mem = s.mem ∧ (allCores.foldl (fun s c => s.updCore c (f c)) s).hub = s.hub ∧
      (allCores.foldl (fun s c => s.updCore c (f c)) s).now = s.now :=
  ⟨foldl_view State.mem (fun t c => (rfl : (t.updCore c (f c)).mem = t.mem)) _ s,
    foldl_view State.hub (fun t c => (rfl : (t.updCore c (f c)).hub = t.hub)) _ s,
    foldl_view State.now (fun t c => (rfl : (t.updCore c (f c)).now = t.now)) _ s⟩

/-! ### The budget -/

theorem State.setBudget_frame (s : State) (watts : Nat) (floor : Bool) :
    (s.setBudget watts floor).mem = s.mem ∧ (s.setBudget watts floor).now = s.now ∧
      (s.setBudget watts floor).hub = { s.hub with pwrstat := BitVec.ofNat 64 (watts % 4096) ||| (if floor then 0x1000 else 0) } := by
  unfold State.setBudget
  extract_lets v s1
  split
  · exact ⟨rfl, rfl, rfl⟩
  · obtain ⟨mem, hub, now⟩ := State.allCores_frame (fun _ k => { k with balance := 131072 }) s1
    exact ⟨mem, now, hub⟩

/-- A new budget gives every core the balance of a whole interval. -/
theorem State.setBudget_balance {s : State} {watts : Nat} (changed : getBits s.hub.pwrstat 0 12 ≠ watts % 4096) (floor : Bool) (c : CoreId) :
    ((s.setBudget watts floor).core c).balance = 131072 := by
  unfold State.setBudget
  extract_lets v s1
  rw [if_neg changed, State.core_allCores (fun _ k => { k with balance := 131072 })]

theorem clampWatts_mod (n : Nat) : clampWatts n % 4096 = clampWatts n :=
  Nat.mod_eq_of_lt (Nat.max_lt.2 ⟨by decide, Nat.lt_of_le_of_lt (Nat.min_le_left ..) (by decide)⟩)

theorem powerBudgetMessage_sets (s : State) (msg : Word) :
    let ok := getBits msg 44 16 ≠ 0 ∧ getBits msg 60 4 = 0 ∧ (s.hub.pwrlast = 0 ∨ serialAhead (msg.setWidth 32) (s.hub.pwrlast.setWidth 32) = true)
    let watts := Nat.max 600 (Nat.min 2800 (getBits msg 32 12))
    (ok → ∃ t, exec (.powerBudgetMessage msg) s = .next t ∧ t.hub.pwrstat = BitVec.ofNat 64 watts ∧ t.hub.pwrlast = msg ∧
      (s.now + 1600000 * getBits msg 44 16, Instr.powerLeaseExpiry) ∈ t.agenda ∧
      (getBits s.hub.pwrstat 0 12 ≠ watts → ∀ c : CoreId, (t.core c).balance = 131072) ∧ SameMemory s t) ∧
    (¬ok → Nothing (.powerBudgetMessage msg) s) := by
  intro ok watts
  have valid : messageOk s.hub.pwrlast msg = true ↔ ok := by simp [messageOk, ok, and_assoc]
  have clamped : clampWatts (getBits msg 32 12) = watts := rfl
  obtain ⟨mem, now, hub⟩ := s.setBudget_frame (clampWatts (getBits msg 32 12)) false
  refine ⟨fun h => ?_, fun h => if_neg (fun m => h (valid.1 m))⟩
  have run : exec (.powerBudgetMessage msg) s = _ := if_pos (valid.2 h)
  refine ⟨_, run, ?_, rfl, ?_, fun changed c => ?_, fun a => congrArg (Memory.get · a) mem⟩
  · refine (congrArg Hub.pwrstat hub).trans ?_
    rw [clampWatts_mod, clamped]
    exact BitVec.or_zero
  · refine List.mem_append_right _ (List.mem_singleton.2 (Prod.ext ?_ rfl))
    show s.now + 1600000 * getBits msg 44 16 = (s.setBudget _ false).now + 1600 * (1000 * getBits msg 44 16)
    rw [now]
    omega
  · exact State.setBudget_balance (by rw [clampWatts_mod]; exact changed) false c

theorem powerLeaseExpiry_floor {s : State} {n : Nat} (lease : s.hub.lease = some n) (over_ : n ≤ s.now) :
    ∃ t, exec .powerLeaseExpiry s = .next t ∧ t.hub.lease = none ∧
      t.hub.pwrstat = (BitVec.ofNat 64 (s.hub.settings.floorBudget % 4096) ||| 0x1000) ∧ SameMemory s t := by
  have run : exec .powerLeaseExpiry s = .next ((s.setBudget s.hub.settings.floorBudget true).updHub (fun h => { h with lease := none })) := by
    show execPowerLeaseExpiry s = _
    unfold execPowerLeaseExpiry
    simp only [lease, over_, if_true]
  obtain ⟨mem, -, hub⟩ := s.setBudget_frame s.hub.settings.floorBudget true
  exact ⟨_, run, rfl, congrArg Hub.pwrstat hub, fun a => congrArg (Memory.get · a) mem⟩

theorem budgetTick_limits (s : State) : ∃ t, exec .budgetTick s = .next t ∧ SameMemory s t ∧ ∀ c : CoreId,
    16 ≤ (t.core c).rate ∧ (t.core c).rate ≤ 2048 ∧ 128 ≤ (t.core c).slew ∧ (t.core c).slew ≤ 2048 ∧
    ∀ i, (i < 12 ∨ 16 ≤ i) → i < 64 → (t.core c).thr.getLsbD i = (s.core c).thr.getLsbD i := by
  refine ⟨_, rfl, fun a => congrArg (Memory.get · a) (State.allCores_frame _ s).1, fun c => ?_⟩
  rw [State.core_allCores]
  refine ⟨Nat.le_max_left .., ?_, Nat.le_max_left .., ?_, fun i apart _ => getLsbD_putBits_of_not (by decide) apart⟩
  · exact Nat.max_le.2 ⟨by decide, Nat.min_le_left ..⟩
  · exact Nat.max_le.2 ⟨by decide, Nat.min_le_left ..⟩

/-! ### The regulator -/

theorem State.reconsider_besideHomes (s : State) : s.reconsider.besideHomes = s.besideHomes :=
  foldl_view State.besideHomes (fun t q => by split <;> rfl) _ s

theorem Core.regulate_step (k : Core) (cfg : ConfigRecord) (h : Nat) : (k.regulate cfg h).thermalStep =
    if cfg.ttrip ≤ h then 15 else if cfg.thi ≤ h then Nat.min 15 (k.thermalStep + 1) else if cfg.tlo ≤ h then k.thermalStep
      else k.thermalStep - 1 := by
  show (thermalRule cfg k.thermalStep h).1 = _
  unfold thermalRule
  repeat' split
  all_goals rfl

/-- The step in force is the thermal step, and never below the floors (R394, R398). -/
theorem Core.regulate_thr (k : Core) (cfg : ConfigRecord) (h : Nat) (small : (k.regulate cfg h).thermalStep ≤ 15) :
    getBits (k.regulate cfg h).thr 0 4 = Nat.max (k.regulate cfg h).thermalStep (Nat.max (getBits k.thr 12 4) (getBits k.thr 16 4)) := by
  have bound := getBits_lt k.thr 12 4
  have bound' := getBits_lt k.thr 16 4
  refine (getBits_putBits _ _ (by decide)).trans ?_
  have below : Nat.max (k.regulate cfg h).thermalStep (Nat.max (getBits k.thr 12 4) (getBits k.thr 16 4)) < 2 ^ 4 := by
    refine Nat.max_lt.2 ⟨by omega, Nat.max_lt.2 ⟨bound, bound'⟩⟩
  have word : (BitVec.ofNat 64 (Nat.max (k.regulate cfg h).thermalStep (Nat.max (getBits k.thr 12 4) (getBits k.thr 16 4)))).toNat = _ :=
    Nat.mod_eq_of_lt (Nat.lt_of_lt_of_le below (by decide : 2 ^ 4 ≤ 2 ^ 64))
  exact (congrArg (· % 2 ^ 4) word).trans (Nat.mod_eq_of_lt below)

section Evaluate

variable {s : State} {c : CoreId} {h : Nat} (due : (s.core c).evaluated = false) (cycle : (s.core c).cyc.toNat % 1024 = 0)
include due cycle

/-- The state once the regulator of a core has set its step. -/
def State.regulated (s : State) (c : CoreId) (h : Nat) : State :=
  s.updCore c (fun k => { k.regulate s.hub.settings h with sensor := h })

/-- A reading at the trip point or above it raises vector 0, and the trip is dated once. -/
theorem exec_regulatorEvaluate_trip (trip : s.hub.settings.ttrip ≤ h) : exec (.regulatorEvaluate c h) s = .next
    (if (s.core c).tripSince.isSome then (s.regulated c h).msix 0
      else (((s.regulated c h).msix 0).updCore c (fun k => { k with tripSince := some s.now })).afterN 16000000 (.thermalTripTimeout c)) := by
  refine (if_neg (by rw [due, cycle]; decide)).trans ((if_pos trip).trans ?_)
  cases (s.core c).tripSince <;> rfl

/-- A reading below the trip point ends the trip. -/
theorem exec_regulatorEvaluate_below (below : h < s.hub.settings.ttrip) : exec (.regulatorEvaluate c h) s = .next
    ((((s.regulated c h).updCore c (fun k => { k with tripSince := none })).cancelEvent (.thermalTripTimeout c)).reconsider) :=
  (if_neg (by rw [due, cycle]; decide)).trans (if_neg (Nat.not_le.2 below))

end Evaluate

/-- What an evaluation leaves of a core, whatever it says of a trip. -/
theorem State.regulated_core (s : State) (c : CoreId) (h : Nat) (since : Option Nat) :
    (((s.regulated c h).updCore c (fun k => { k with tripSince := since })).core c) =
      { (s.core c).regulate s.hub.settings h with sensor := h, tripSince := since } := by
  unfold State.regulated
  rw [State.core_updCore, State.core_updCore]

theorem regulatorEvaluate_rule (s : State) (c : CoreId) (h : Nat) :
    let k := s.core c
    let g := s.hub.settings
    let step := if g.ttrip ≤ h then 15 else if g.thi ≤ h then Nat.min 15 (k.thermalStep + 1) else if g.tlo ≤ h then k.thermalStep
      else k.thermalStep - 1
    k.evaluated = false → k.cyc.toNat % 1024 = 0 → k.thermalStep ≤ 15 →
    ∃ t, exec (.regulatorEvaluate c h) s = .next t ∧ (t.core c).thermalStep = step ∧ (t.core c).sensor = h ∧
      getBits (t.core c).thr 0 4 = Nat.max step (Nat.max (getBits k.thr 12 4) (getBits k.thr 16 4)) ∧
      (g.ttrip ≤ h → tget 0 t.hub.msix 0 = tget 0 s.hub.msix 0 + 1 ∧
        (k.tripSince = none → (s.now + 16000000, Instr.thermalTripTimeout c) ∈ t.agenda)) ∧
      (h < g.ttrip → (t.core c).tripSince = none) ∧ SameMemory s t := by
  intro k g step due cycle old
  have set : (k.regulate g h).thermalStep = step := k.regulate_step g h
  have small : step ≤ 15 := by
    unfold step
    repeat' split
    · exact Nat.le_refl 15
    · exact Nat.min_le_left ..
    · exact old
    · omega
  have thr := k.regulate_thr g h (set ▸ small)
  rw [set] at thr
  have shown : ∀ (t : State) since, t.core c = { k.regulate g h with sensor := h, tripSince := since } →
      (t.core c).thermalStep = step ∧ (t.core c).sensor = h ∧
        getBits (t.core c).thr 0 4 = Nat.max step (Nat.max (getBits k.thr 12 4) (getBits k.thr 16 4)) ∧ (t.core c).tripSince = since := by
    rintro t since same
    rw [same]
    exact ⟨set, rfl, thr, rfl⟩
  rcases Nat.lt_or_ge h g.ttrip with below | trip
  · have kept := State.reconsider_besideHomes
      (((s.regulated c h).updCore c (fun k => { k with tripSince := none })).cancelEvent (.thermalTripTimeout c))
    obtain ⟨steps, sensor, floors, ended⟩ := shown _ none ((congrArg (State.core · c) kept :).trans (s.regulated_core c h none))
    exact ⟨_, exec_regulatorEvaluate_below due cycle below, steps, sensor, floors, fun trip => absurd trip (Nat.not_le.2 below),
      fun _ => ended, fun a => congrArg (Memory.get · a) (congrArg State.mem kept :)⟩
  · have run := exec_regulatorEvaluate_trip due cycle trip
    by_cases dated : (s.core c).tripSince.isSome = true
    · rw [if_pos dated] at run
      have core : (s.regulated c h).core c = { k.regulate g h with sensor := h, tripSince := (k.regulate g h).tripSince } :=
        State.core_updCore s c _
      obtain ⟨steps, sensor, floors, -⟩ := shown ((s.regulated c h).msix 0) _ core
      exact ⟨_, run, steps, sensor, floors, fun _ => ⟨tget_bumped _, fun none => by rw [none] at dated; cases dated⟩,
        fun below => absurd trip (Nat.not_le.2 below), fun _ => rfl⟩
    · rw [if_neg dated] at run
      have core : (((s.regulated c h).msix 0).updCore c (fun k => { k with tripSince := some s.now })).core c = _ :=
        s.regulated_core c h (some s.now)
      obtain ⟨steps, sensor, floors, -⟩ := shown _ _ core
      exact ⟨_, run, steps, sensor, floors, fun _ => ⟨tget_bumped _, fun _ => List.mem_append_right _ (.head _)⟩,
        fun below => absurd trip (Nat.not_le.2 below), fun _ => rfl⟩

/-- The task is active on a core: a trip of the core that lasts ends it (R394). -/
def Task.activeOn (q : Task) (c : CoreId) : Bool :=
  q.cores.contains c && (q.state = .running || q.state = .staged || q.state = .draining) && q.ended.isNone

theorem exec_thermalTripTimeout {s : State} {c : CoreId} {n : Nat} (trip : (s.core c).tripSince = some n) (long : n + 16000000 ≤ s.now) :
    exec (.thermalTripTimeout c) s = .next ((s.tasks.filter (Task.activeOn · c)).foldl (fun s q => s.after (.taskEnd q.key 0 c false))
      (s.updCore c (fun k => { k with tooHot := true }))) := by
  show execThermalTripTimeout c s = _
  unfold execThermalTripTimeout
  simp only [trip, Nat.not_lt.2 long, if_false]
  rfl

theorem thermalTripTimeout_ends {s : State} {c : CoreId} {n : Nat} (trip : (s.core c).tripSince = some n) (long : n + 16000000 ≤ s.now) :
    ∃ t, exec (.thermalTripTimeout c) s = .next t ∧ (t.core c).tooHot = true ∧ SameMemory s t ∧
      ∀ q ∈ s.tasks, c ∈ q.cores → q.state = .running ∨ q.state = .staged ∨ q.state = .draining → q.ended = none →
        UnderWay t (.taskEnd q.key 0 c false) := by
  obtain ⟨-, mem, -, all⟩ := State.underWay_foldl_after (fun q : Task => .taskEnd q.key 0 c false) (s.tasks.filter (Task.activeOn · c))
    (s.updCore c (fun k => { k with tooHot := true }))
  refine ⟨_, exec_thermalTripTimeout trip long, ?_, fun a => congrArg (Memory.get · a) mem, fun q member mine state ended =>
    all q (List.mem_filter.2 ⟨member, by simp [Task.activeOn, mine, ended, state, or_assoc]⟩)⟩
  have cores := foldl_view (fun v : State => v.core c) (fun (v : State) (q : Task) => (rfl : (v.after (.taskEnd q.key 0 c false)).core c = v.core c))
    (s.tasks.filter (Task.activeOn · c)) (s.updCore c (fun k => { k with tooHot := true }))
  refine (congrArg Core.tooHot cores).trans ?_
  rw [State.core_updCore]

theorem powerAndHeat : PowerAndHeat :=
  ⟨powerBudgetMessage_sets, fun _ _ => powerLeaseExpiry_floor, budgetTick_limits, regulatorEvaluate_rule,
    fun _ _ _ => thermalTripTimeout_ends⟩

/-- Settles O59, in its two parts. -/
theorem errorsPowerAndHeat : Obligations.ErrorsPowerAndHeat := ⟨errorsStrike, powerAndHeat⟩

end Sys2Proof.Machine

end

section
/-! RANGE, and the waits on a word (R59, R315). -/

namespace Sys2Proof.Machine

open Sys2Proof.Claims

/-! ### RANGE -/

theorem getBits_low (x : Word) (n : Nat) : getBits x 0 n = x.toNat % 2 ^ n := by
  rw [getBits, BitVec.extractLsb'_toNat, Nat.shiftRight_zero]

theorem writes_range (s : State) (d a b : BitVec 6) (w r t : Bool) :
    Writes (.range d a b w r t) s 2 d (rangeWord s.curCtx.win (s.cur.rs a) (s.cur.rs b) w r t) := rfl

/-- The word of RANGE in a window: whether the range passes, the window's attributes, and its number (R59). -/
def rangeFound (ok : Bool) (at_ : BitVec 6) (i : Fin 8) : Word := BitVec.ofBool ok ++ 0#41 ++ at_ ++ 0#12 ++ 1#1 ++ BitVec.ofNat 3 i.val

theorem rangeFound_fields (ok : Bool) (at_ : BitVec 6) (i : Fin 8) :
    (rangeFound ok at_ i).getLsbD 63 = ok ∧ getBits (rangeFound ok at_ i) 0 3 = i.val ∧ (rangeFound ok at_ i).getLsbD 3 = true ∧
      (rangeFound ok at_ i).extractLsb' 16 6 = at_ := by
  refine ⟨?_, ?_, ?_, ?_⟩
  · simp only [rangeFound, BitVec.getLsbD_append]
    simp
  · refine (getBits_eq_toNat (v := BitVec.ofNat 3 i.val) fun j hj => ?_).trans (Nat.mod_eq_of_lt i.isLt)
    unfold rangeFound
    rw [BitVec.getLsbD_append, Nat.zero_add, if_pos hj]
  · simp only [rangeFound, BitVec.getLsbD_append]
    simp
  · refine BitVec.eq_of_getLsbD_eq fun j hj => ?_
    unfold rangeFound
    simp only [BitVec.getLsbD_extractLsb', BitVec.getLsbD_append]
    simp [hj, show ¬16 + j < 3 by omega, show ¬16 + j - 3 < 1 by omega, show ¬16 + j - 3 - 1 < 12 by omega, show 16 + j - 3 - 1 - 12 = j by omega]

section Range

variable (w : Vector Word 32) (va len : Word) (needW needR : Bool)

/-- No window holds the address. -/
theorem rangeWord_none (h : canonical va = false ∨ winFind w (va.toNat % 2 ^ 57) = none) (wantIa : Bool) :
    rangeWord w va len needW needR wantIa = if wantIa then BitVec.allOnes 64 else 0 := by
  unfold rangeWord
  rw [getBits_low]
  have none : (if canonical va then winFind w (va.toNat % 2 ^ 57) else none) = none := by
    rcases h with h | h
    · rw [h]
      rfl
    · rw [h]
      exact ite_self none
  simp only [none]

/-- The range passes in the window that holds the address (R59). -/
def RangePasses (i : Fin 8) : Prop :=
  va.toNat % 2 ^ 57 + Nat.max len.toNat 1 ≤ winBase w i + winSize w i ∧ (needR = true → (winAttr w i).getLsbD 0 = true) ∧
    (needW = true → (winAttr w i).getLsbD 1 = true ∧ (winAttr w i).getLsbD 3 = false) ∧
    oneRegion (va.toNat % 2 ^ 57 - winBase w i + winOff w i) (Nat.max len.toNat 1) = true

theorem rangeWord_some {i : Fin 8} (canon : canonical va = true) (found : winFind w (va.toNat % 2 ^ 57) = some i) :
    ∃ ok : Bool, (ok = true ↔ RangePasses w va len needW needR i) ∧
      rangeWord w va len needW needR true =
        (if ok then BitVec.ofNat 64 (va.toNat % 2 ^ 57 - winBase w i + winOff w i) else BitVec.allOnes 64) ∧
      rangeWord w va len needW needR false = rangeFound ok (winAttr w i) i := by
  unfold rangeWord
  rw [getBits_low]
  simp only [canon, if_true, found]
  refine ⟨_, ?_, rfl, rfl⟩
  simp only [RangePasses, Bool.and_eq_true, decide_eq_true_eq, Bool.or_eq_true, Bool.not_eq_true']
  cases needR <;> cases needW <;> simp [and_assoc]

end Range

theorem rangeProbes : RangeProbes := by
  intro s d a b w r va n v
  refine ⟨fun i canon found => ?_, fun nowhere => ?_⟩
  · obtain ⟨ok, passes, ia, word⟩ := rangeWord_some s.curCtx.win va (s.cur.rs b) w r canon found
    obtain ⟨top, number, three, attributes⟩ := rangeFound_fields ok (winAttr s.curCtx.win i) i
    have asked := writes_range s d a b w r true
    have plain := writes_range s d a b w r false
    rw [ia] at asked
    rw [word] at plain
    refine ⟨fun h => ?_, fun h => ?_, _, plain, by rw [top]; exact passes, number, three, attributes⟩
    · rw [passes.2 h] at asked
      exact asked
    · rw [Bool.eq_false_iff.2 (fun yes => h (passes.1 yes))] at asked
      exact asked
  · have none := rangeWord_none s.curCtx.win va (s.cur.rs b) w r nowhere
    have asked := writes_range s d a b w r true
    have plain := writes_range s d a b w r false
    rw [none] at asked plain
    exact ⟨asked, plain⟩

/-! ### WADDR -/

theorem waddr_freezes {s : State} {d a b n : BitVec 6} {ia : Nat} {attr : BitVec 6} (aligned : (s.cur.rs a).toNat % 8 = 0)
    (translates : Translates s (s.cur.rs a) 8 .read ia attr) (confirmed : Confirmed s (sharesFor ia 8 (s.cur.rs a)))
    (order : ∀ o ∈ s.cur.ops, o.kind.newest = true → s.place (ia / 64 * 64) ∉ o.kind.lines.map s.place) :
    Freezes (.waddr d a b n) s (.addr { d := d, va := s.cur.rs a, ia := ia, attr := attr, expect := s.cur.rs b
                                        left := if n = 0 then none else some (2 ^ n.toNat)
                                        last := s.cur.rs b, poll := 0, sent := none, pend := s.cur.pending.length }) := by
  have free : ¬(s.cur.ops.any (fun o => o.kind.newest && (o.kind.lines.map s.place).contains (s.place (ia / 64 * 64)))) = true := by
    rw [List.any_eq_true]
    rintro ⟨o, ho, held⟩
    obtain ⟨newest, line⟩ := Bool.and_eq_true_iff.1 held
    exact order o ho newest (List.contains_iff_mem.1 line)
  rcases s.withScalar_cases (s.cur.rs a) 8 .read (fun ia attr =>
    if s.cur.ops.any (fun o => o.kind.newest && (o.kind.lines.map s.place).contains (s.place (ia / 64 * 64))) then s.holdFor .order
    else s.freeze (.addr { d := d, va := s.cur.rs a, ia := ia, attr := attr, expect := s.cur.rs b
                           left := if n = 0 then none else some (2 ^ n.toNat), last := s.cur.rs b, poll := 0, sent := none
                           pend := s.cur.pending.length })) with ⟨off, -⟩ | ⟨-, fault, -⟩ | ⟨-, ia', attr', found, checked⟩
  · exact absurd aligned off
  · exact absurd (translates.symm.trans fault) (by simp)
  · obtain ⟨rfl, rfl⟩ : ia = ia' ∧ attr = attr' := by simpa using (translates.symm.trans found)
    refine congrArg _ (checked.trans ((s.withResidency_cached _ _ _ confirmed).trans ?_))
    rw [if_neg free]
    rfl

/-- The state in which a poll reads its word: the access over the link is over, and the home has served the line. -/
def State.polled (s : State) (c : CoreId) (w : Watch) : State :=
  (match w.sent with | some q => s.linkDone c q.1 | none => s).watchServe c w

theorem State.polled_sameStreams (s : State) (c : CoreId) (w : Watch) : s.SameStreams (s.polled c w) := by
  have done : s.SameStreams (match w.sent with | some q => s.linkDone c q.1 | none => s) := by
    split <;> exact .of_cores rfl rfl
  exact done.trans ((State.SameStreams.noteReads _ _).trans (.cacheTouch _ _ _ _))

/-- A report to a stream that runs pends there, if its cause is not pending yet; nothing else of the stream changes (R345). -/
theorem State.report_pends {s : State} {c : CoreId} {sec : Bool} {q : TrapReq} (running : (s.stream c sec).halted = false)
    (live : (s.stream c sec).stopped = none) :
    (∃ r ∈ ((s.report c sec q).stream c sec).pending, r.cause = q.cause) ∧
      ∃ p, (s.report c sec q).stream c sec = { s.stream c sec with pending := p } := by
  have goes : s.report c sec q = if (s.stream c sec).pending.any (fun r => r.cause == q.cause) then s
      else s.updStream c sec (fun x => { x with pending := x.pending ++ [q] }) :=
    (if_neg (by rw [live]; decide)).trans (if_neg (by rw [running]; decide))
  rw [goes]
  split
  · next pending =>
    obtain ⟨r, member, same⟩ := List.any_eq_true.1 pending
    exact ⟨⟨r, member, by simpa using same⟩, (s.stream c sec).pending, rfl⟩
  · rw [State.stream_updStream]
    exact ⟨⟨q, List.mem_append_right _ (.head _), rfl⟩, _, rfl⟩

/-- What pends for a stream is none of its registers. -/
theorem sameRegs_pending {x y : Stream} (h : SameRegs x y) (p : List TrapReq) : SameRegs x { y with pending := p } :=
  ⟨h.scalars, h.preds, h.ring, h.stat, h.fflags, h.seed, h.gens, h.traps, h.counts⟩

section Wait

variable {s : State} {c : CoreId} {sec : Bool} {w : Watch} (wait : (s.stream c sec).wait = .addr w)
include wait

theorem waddrWake_pending (pending : w.pend < (s.stream c sec).pending.length) :
    ∃ t, exec (.waddrWake c sec) s = .next t ∧ Woken (s.stream c sec) (t.stream c sec) w.d w.last ∧ SameMemory s t := by
  have met : s.waddrMet c sec = true := by
    unfold State.waddrMet
    rw [wait]
    exact decide_eq_true pending
  refine ⟨s.wakeAddr c sec w.d w.va (some w.last), ?_, s.woken c sec w.d w.last, fun _ => rfl⟩
  show execWaddrWake c sec s = _
  unfold execWaddrWake
  simp only [wait, met, if_true]

theorem waddrTimeout_wakes (over_ : w.left = some 0) :
    ∃ t, exec (.waddrTimeout c sec) s = .next t ∧ Woken (s.stream c sec) (t.stream c sec) w.d w.last ∧ SameMemory s t := by
  refine ⟨s.wakeAddr c sec w.d w.va (some w.last), ?_, s.woken c sec w.d w.last, fun _ => rfl⟩
  show execWaddrTimeout c sec s = _
  unfold execWaddrTimeout
  simp only [wait, over_, if_true]

/-- Over a link the poll goes out first. -/
theorem waddrPoll_sends (far : watched (regionOf w.ia) = false ∧ s.linkUp (regionOf w.ia) = true) (unsent : w.sent = none) (due : w.poll = 0) :
    ∃ t, exec (.waddrPoll c sec) s = .next t ∧ UnderWay t (.waddrPoll c sec) ∧
      (t.stream c sec).wait = .addr { w with poll := 1600, sent := some (s.nextId, s.now) } ∧ SameMemory s t := by
  obtain ⟨unwatched, up⟩ := far
  have await : ∀ (v : State) (id : Nat) (as : List Nat), (v.awaitLinks c id as).cores = v.cores ∧ (v.awaitLinks c id as).mem = v.mem ∧
      (UnderWay v (.waddrPoll c sec) → UnderWay (v.awaitLinks c id as) (.waddrPoll c sec)) := fun v id as => by
    have each : ∀ (u : State) (n : Nat) (i : Instr), UnderWay u (.waddrPoll c sec) → UnderWay (u.afterN n i) (.waddrPoll c sec) :=
      fun u n i ⟨m, due, later⟩ => ⟨m, List.mem_append_left _ due, later⟩
    unfold State.awaitLinks
    extract_lets s1
    have one : s1.cores = v.cores ∧ s1.mem = v.mem ∧ (UnderWay v (.waddrPoll c sec) → UnderWay s1 (.waddrPoll c sec)) := by
      unfold s1
      split
      · exact ⟨rfl, rfl, each _ _ _⟩
      · exact ⟨rfl, rfl, fun h => h⟩
    split
    · exact ⟨one.1, one.2.1, fun h => each _ _ _ (one.2.2 h)⟩
    · exact one
  obtain ⟨cores, mem, kept⟩ := await (State.after { s.updStream c sec (fun x => { x with wait := .addr { w with poll := 1600, sent := some (s.nextId, s.now) } })
                                                    with nextId := s.nextId + 1 } (.waddrPoll c sec)) s.nextId (addrs w.ia 8)
  refine ⟨s.sendPoll c sec w, ?_, kept (State.underWay_after _ _), ?_, fun a => congrArg (Memory.get · a) mem⟩
  · show execWaddrPoll c sec s = _
    unfold execWaddrPoll
    simp only [wait, unwatched, up, unsent, due]
    rfl
  · have same : (s.sendPoll c sec w).stream c sec =
        (s.updStream c sec (fun x => { x with wait := .addr { w with poll := 1600, sent := some (s.nextId, s.now) } })).stream c sec :=
      (congrArg (fun k : Vector Core 8 => (k[c].ctx).stream sec) cores :)
    rw [same, State.stream_updStream]

/-- A poll that reads its word goes by what it finds. -/
theorem exec_waddrPoll_reads (near : ¬(watched (regionOf w.ia) = false ∧ s.linkUp (regionOf w.ia) = true) ∨ w.sent ≠ none) :
    exec (.waddrPoll c sec) s = .next (if (s.polled c w).watchRead c w = some w.expect then
      (s.polled c w).updStream c sec (fun x =>
        { x with wait := .addr { w with last := w.expect, poll := if w.sent.isSome then w.poll else 1600, sent := none } })
      else (s.polled c w).wakeAddr c sec w.d w.va ((s.polled c w).watchRead c w)) := by
  have reads : ¬(!watched (regionOf w.ia) && w.sent.isNone && s.linkUp (regionOf w.ia)) = true := by
    intro sends
    simp only [Bool.and_eq_true, Bool.not_eq_true', Option.isNone_iff_eq_none] at sends
    obtain ⟨⟨unwatched, unsent⟩, up⟩ := sends
    exact near.elim (fun h => h ⟨unwatched, up⟩) (fun h => h unsent)
  show execWaddrPoll c sec s = _
  unfold execWaddrPoll
  simp only [wait]
  rw [if_neg reads]
  show (match (s.polled c w).watchRead c w with | none => _ | some v => _) = _
  cases found : (s.polled c w).watchRead c w with
  | none => rfl
  | some v =>
    by_cases equal : v = w.expect
    · subst equal
      simp
      rfl
    · simp [equal]
      rfl

section Read

variable (near : ¬(watched (regionOf w.ia) = false ∧ s.linkUp (regionOf w.ia) = true) ∨ w.sent ≠ none)
include near

theorem waddrPoll_differs {v : Word} (read : (s.polled c w).watchRead c w = some v) (differs : v ≠ w.expect) :
    ∃ t, exec (.waddrPoll c sec) s = .next t ∧ Woken (s.stream c sec) (t.stream c sec) w.d v ∧ SameMemory s t := by
  have run := exec_waddrPoll_reads wait near
  have served := s.polled_sameStreams c w
  rw [read, if_neg (by simpa using differs)] at run
  refine ⟨_, run, ?_, fun a => congrArg (Memory.get · a) served.mem⟩
  rw [← served.streams c sec]
  exact State.woken _ c sec w.d v

theorem waddrPoll_equal (read : (s.polled c w).watchRead c w = some w.expect) :
    ∃ t, exec (.waddrPoll c sec) s = .next t ∧ SameMemory s t ∧
      (t.stream c sec).wait = .addr { w with last := w.expect, poll := if w.sent.isSome then w.poll else 1600, sent := none } := by
  have run := exec_waddrPoll_reads wait near
  rw [if_pos read] at run
  refine ⟨_, run, fun a => congrArg (Memory.get · a) (s.polled_sameStreams c w).mem, ?_⟩
  rw [State.stream_updStream]

theorem waddrPoll_poisoned (read : (s.polled c w).watchRead c w = none) (running : (s.stream c sec).halted = false)
    (live : (s.stream c sec).stopped = none) :
    ∃ t, exec (.waddrPoll c sec) s = .next t ∧ Woken (s.stream c sec) (t.stream c sec) w.d 0 ∧
      (∃ q ∈ (t.stream c sec).pending, q.cause = 0x11) ∧ SameMemory s t := by
  have run := exec_waddrPoll_reads wait near
  have served := s.polled_sameStreams c w
  have same := served.streams c sec
  rw [read, if_neg (by simp)] at run
  have wakes := (s.polled c w).woken c sec w.d 0
  rw [same] at wakes
  have woken : ((s.polled c w).updStream c sec (fun x => { x with wait := .none }.emit 2 (.scalar w.d 0))).stream c sec =
      { s.stream c sec with wait := .none }.emit 2 (.scalar w.d 0) := by rw [State.stream_updStream, same]
  obtain ⟨pends, pended⟩ := State.report_pends (s := (s.polled c w).updStream c sec (fun x => { x with wait := .none }.emit 2 (.scalar w.d 0)))
    (q := { cause := 0x11, tval := w.va }) (by rw [woken]; exact running) (by rw [woken]; exact live)
  obtain ⟨p, only⟩ := pended
  refine ⟨_, run, ?_, pends, fun a => ?_⟩
  · obtain ⟨ended, lands, registers⟩ := wakes
    exact (congrArg (fun x => Woken (s.stream c sec) x w.d 0) only).mpr ⟨ended, lands, sameRegs_pending registers p⟩
  · show Memory.get (State.report ..).mem a = _
    rw [State.report_mem]
    exact congrArg (Memory.get · a) served.mem

end Read

end Wait

theorem wordWaits : WordWaits := by
  refine ⟨fun s d a b n ia attr => waddr_freezes, fun s c sec w wait => ⟨waddrWake_pending wait, waddrPoll_sends wait, fun near => ?_,
    waddrTimeout_wakes wait⟩⟩
  exact ⟨fun v => waddrPoll_differs wait near, waddrPoll_equal wait near, waddrPoll_poisoned wait near⟩

/-- Settles O42, in its two parts. -/
theorem rangesAndWordWaits : Obligations.RangesAndWordWaits := ⟨rangeProbes, wordWaits⟩

end Sys2Proof.Machine

end

section
/-! Page tables: a walk after the leaf that it finds has been replaced (R60 to R63). -/

namespace Sys2Proof.Machine

open Sys2Proof.Claims

/-- The entries on the path of one address lie under different keys. -/
theorem pteKey_inj {l m : Nat} (ia : Nat) (hl : 1 ≤ l ∧ l ≤ 4) (hm : 1 ≤ m ∧ m ≤ 4) (h : pteKey l ia = pteKey m ia) : l = m := by
  obtain ⟨hl1, hl4⟩ := hl
  obtain ⟨hm1, hm4⟩ := hm
  interval_cases l <;> interval_cases m <;> simp [pteKey] at h ⊢ <;> omega

/-- What a walk finds at a level where the entry is no pointer. -/
def leafWalk (level ia : Nat) (e : Word) : Walk :=
  if e.getLsbD 0 && !pteBad level ia e then .leaf level e else if level = 4 then .under else .absent

/-- An entry that makes a leaf of its level. -/
structure IsLeaf (level ia : Nat) (e : Word) : Prop where
  present : e.getLsbD 0 = true
  good : pteBad level ia e = false
  leaf : e.getLsbD 1 = true

/-- A walk that finds a leaf finds, once that entry is replaced by another leaf or by none, what then stands there. -/
theorem walkFrom_replaced {pte : Table Word} (wf : twf 0 pte = true) {ia level n l : Nat} {e : Word} (low : 1 ≤ level) (high : level + n ≤ 5)
    (found : (walkFrom pte ia level n).1 = .leaf l e) :
    level ≤ l ∧ l < level + n ∧ tget 0 pte (pteKey l ia) = e ∧ IsLeaf l ia e ∧ ∀ v, (v.getLsbD 1 = true ∨ v = 0) →
      (walkFrom (tput 0 pte (pteKey l ia) v) ia level n).1 = leafWalk l ia v := by
  induction n generalizing level with
  | zero => cases found
  | succ n ih =>
    unfold walkFrom at found
    extract_lets e0 at found
    split at found
    · split at found <;> cases found
    · next present =>
      split at found
      · split at found <;> cases found
      · next good =>
        split at found
        · next leaf =>
          obtain ⟨rfl, rfl⟩ : level = l ∧ e0 = e := by simpa using found
          refine ⟨Nat.le_refl _, by omega, rfl, ⟨by simpa using present, by simpa using good, leaf⟩, fun v kind => ?_⟩
          unfold walkFrom leafWalk
          extract_lets w
          have same : w = v := (tget_tput wf ..).trans (if_pos rfl)
          rw [same]
          rcases kind with last | rfl
          · rw [last]
            cases v.getLsbD 0 <;> cases pteBad level ia v <;> simp
          · simp
        · next pointer =>
          obtain ⟨le, lt, at_, leaf, replaced⟩ := ih (by omega) (by omega) found
          refine ⟨by omega, by omega, at_, leaf, fun v kind => ?_⟩
          have other : tget 0 (tput 0 pte (pteKey l ia) v) (pteKey level ia) = e0 := (tget_tput wf ..).trans (if_neg fun h => by
            have := pteKey_inj ia (by omega) (by omega) h
            omega)
          rw [← replaced v kind]
          conv_lhs => unfold walkFrom
          dsimp only
          rw [other, if_neg present, if_neg good, if_neg pointer]

/-- A leaf is found at level 3 or 4. -/
theorem walk_leaf {pte : Table Word} (wf : twf 0 pte = true) {ia l : Nat} {e : Word} (found : (walk pte ia).1 = .leaf l e) :
    (l = 3 ∨ l = 4) ∧ tget 0 pte (pteKey l ia) = e ∧ IsLeaf l ia e := by
  obtain ⟨-, below, at_, leaf, -⟩ := walkFrom_replaced wf (Nat.le_refl 1) (Nat.le_refl 5) found
  refine ⟨?_, at_, leaf⟩
  have deep : ¬l < 3 := fun h => by
    have good := leaf.good
    unfold pteBad at good
    rw [leaf.leaf, decide_eq_true h] at good
    simp at good
  omega

/-- Without its leaf, an address is found nowhere. -/
theorem walk_cleared {pte : Table Word} (wf : twf 0 pte = true) {ia l : Nat} {e : Word} (found : (walk pte ia).1 = .leaf l e) (k : Nat) (f : Word) :
    (walk (tput 0 pte (pteKey l ia) 0) ia).1 ≠ .leaf k f := by
  obtain ⟨-, -, -, -, replaced⟩ := walkFrom_replaced wf (Nat.le_refl 1) (Nat.le_refl 5) found
  rw [walk, replaced 0 (.inr rfl)]
  unfold leafWalk
  intro leaf
  split at leaf
  · next present => simp at present
  · split at leaf <;> cases leaf

/-- A leaf replaced by another is found in its place. -/
theorem walk_replaced {pte : Table Word} (wf : twf 0 pte = true) {ia l : Nat} {e v : Word} (found : (walk pte ia).1 = .leaf l e)
    (leaf : IsLeaf l ia v) : (walk (tput 0 pte (pteKey l ia) v) ia).1 = .leaf l v := by
  obtain ⟨-, -, -, -, replaced⟩ := walkFrom_replaced wf (Nat.le_refl 1) (Nat.le_refl 5) found
  rw [walk, replaced v (.inl leaf.leaf), leafWalk, leaf.present, leaf.good]
  rfl

/-- RMASK makes no leaf of another (R61). -/
theorem IsLeaf.putRmask {level ia : Nat} {e : Word} (leaf : IsLeaf level ia e) (m : Word) : IsLeaf level ia (putBits e 3 8 m) := by
  have apart : ∀ i, i < 3 ∨ 11 ≤ i → (putBits e 3 8 m).getLsbD i = e.getLsbD i := fun i h => getLsbD_putBits_of_not (by decide) h
  have bad : pteBad level ia (putBits e 3 8 m) = pteBad level ia e := by
    unfold pteBad pteAddr
    rw [apart 1 (by omega), apart 11 (by omega), getBits_putBits_of_apart e m (by decide) (.inr (by decide)),
      getBits_putBits_of_apart e m (by decide) (.inr (by decide))]
  exact ⟨(apart 0 (by omega)).trans leaf.present, bad.trans leaf.good, (apart 1 (by omega)).trans leaf.leaf⟩

theorem putRmask_field (e : Word) (m : BitVec 8) : (putBits e 3 8 (m.setWidth 64)).extractLsb' 3 8 = m := by
  refine BitVec.eq_of_getLsbD_eq fun i hi => ?_
  rw [BitVec.getLsbD_extractLsb', getLsbD_putBits _ _ (by decide), if_pos ⟨by omega, by omega⟩, Nat.add_sub_cancel_left,
    BitVec.getLsbD_setWidth]
  simp [hi, show i < 64 by omega]

/-! ### Leaves and RMASK of the homes -/

theorem State.leafOf_eq_some {s : State} {ia l : Nat} {e : Word} : s.leafOf ia = some (l, e) ↔ (walk (s.home (homeOf ia)).pte ia).1 = .leaf l e := by
  unfold State.leafOf
  split
  · next found => simp [found]
  · next other => exact ⟨(fun h => by cases h), fun h => absurd h (other l e)⟩

theorem State.leafOf_eq_none {s : State} {ia : Nat} : s.leafOf ia = none ↔ ∀ l e, (walk (s.home (homeOf ia)).pte ia).1 ≠ .leaf l e := by
  rw [Option.eq_none_iff_forall_ne_some]
  exact ⟨fun h l e found => h (l, e) (State.leafOf_eq_some.2 found), fun h p found => h p.1 p.2 (State.leafOf_eq_some.1 found)⟩

theorem State.setRmask_of_leaf {s : State} {ia l : Nat} {e : Word} (found : s.leafOf ia = some (l, e)) (m : BitVec 8) :
    s.setRmask ia m = s.updHome (homeOf ia) (fun h => { h with pte := tput 0 h.pte (pteKey l ia) (putBits e 3 8 (m.setWidth 64)) }) := by
  unfold State.setRmask
  rw [found]

/-- What the change of RMASK leaves: everything but the page tables. -/
theorem State.setRmask_frame (s : State) (ia : Nat) (m : BitVec 8) :
    (s.setRmask ia m).mem = s.mem ∧ (s.setRmask ia m).hub = s.hub ∧ (∀ h, h ≠ homeOf ia → (s.setRmask ia m).home h = s.home h) ∧
      ((s.setRmask ia m).home (homeOf ia)).invalidating = (s.home (homeOf ia)).invalidating ∧
      ((s.setRmask ia m).home (homeOf ia)).hestat = (s.home (homeOf ia)).hestat := by
  unfold State.setRmask
  split
  · refine ⟨rfl, rfl, fun h other => State.home_updHome_ne s _ other, ?_, ?_⟩ <;> rw [State.home_updHome]
  · exact ⟨rfl, rfl, fun _ _ => rfl, rfl, rfl⟩

/-- Where a page has a leaf, RMASK can be changed in it. -/
theorem State.leafOf_setRmask {s : State} {ia l : Nat} {e : Word} (wf : twf 0 (s.home (homeOf ia)).pte = true)
    (found : s.leafOf ia = some (l, e)) (m : BitVec 8) : (s.setRmask ia m).leafOf ia = some (l, putBits e 3 8 (m.setWidth 64)) := by
  have walked := State.leafOf_eq_some.1 found
  rw [State.leafOf_eq_some, State.setRmask_of_leaf found, State.home_updHome]
  exact walk_replaced wf walked ((walk_leaf wf walked).2.2.putRmask _)

/-- RMASK as it is read once it has been changed (R61). -/
theorem State.rmask_setRmask {s : State} {ia k l : Nat} {e : Word} (wf : twf 0 (s.home (homeOf ia)).pte = true)
    (region : regionOf ia = .stack k) (found : s.leafOf ia = some (l, e)) (m : BitVec 8) : (s.setRmask ia m).rmask ia = m := by
  unfold State.rmask
  rw [region, State.leafOf_setRmask wf found]
  exact putRmask_field e m

/-- A cleared RMASK is zero, also of a page without a leaf. -/
theorem State.rmask_setRmask_zero {s : State} {ia : Nat} (wf : twf 0 (s.home (homeOf ia)).pte = true) : (s.setRmask ia 0).rmask ia = 0 := by
  cases found : s.leafOf ia with
  | none =>
    have same : s.setRmask ia 0 = s := by
      unfold State.setRmask
      rw [found]
    unfold State.rmask
    rw [same, found]
    split <;> rfl
  | some p =>
    unfold State.rmask
    rw [State.leafOf_setRmask wf found]
    split
    · exact putRmask_field p.2 0
    · rfl

/-! ### Leaves taken away -/

/-- A page that a home has unmapped has no leaf there (R63). -/
theorem Home.walk_unmap {m : Home} (wf : twf 0 m.pte = true) (ia k : Nat) (f : Word) : (walk (m.unmap ia).pte ia).1 ≠ .leaf k f := by
  unfold Home.unmap
  split
  · next l e found =>
    rw [Home.release_pte]
    exact walk_cleared wf found k f
  · next other => exact other k f

theorem Home.unpin_twf {m : Home} (ia : Nat) (wf : twf 0 m.pte = true) : twf 0 (m.unpin ia).pte = true := by
  unfold Home.unpin
  split
  · exact twf_tput _ _ wf
  · exact wf

end Sys2Proof.Machine

end

section
/-! Pools, shares that are unmapped, and copies of pages (R63, R65, R67 to R70). -/

namespace Sys2Proof.Machine

open Sys2Proof.Claims

/-! ### Pools -/

theorem poolRefill_fills (s : State) (h : CoreId) : ∃ t, exec (.poolRefill h) s = .next t ∧ SameMemory s t ∧
    ((256 ≤ (t.home h).pool8.length ∧ 256 ≤ (t.home h).pool64.length) ∨ UnderWay t (.poolRefill h)) := by
  refine ⟨_, rfl, ?_⟩
  split
  · exact ⟨fun _ => rfl, .inr (State.underWay_after _ _)⟩
  · next filled => exact ⟨fun _ => rfl, .inl (by simpa using filled)⟩

/-! ### Shares -/

/-- The shares of the page tables lie in package and stack-local memory, each below its bytes, in steps of 64 KiB or 2 MiB. -/
theorem pagedHere_cases {ia : Nat} (paged : pagedHere (regionOf ia) = true) :
    (ia < 2 ^ 48 ∧ regionOf ia = .pkg) ∨ (2 ^ 48 ≤ ia ∧ ia < 0x1800000000000 ∧ ∃ k, regionOf ia = .stack k) := by
  rcases Nat.lt_or_ge ia (2 ^ 48) with low | high
  · exact .inl ⟨low, regionOf_package low⟩
  · rcases Nat.lt_or_ge ia 0x1800000000000 with stack | beyond
    · exact .inr ⟨high, stack, _, (if_neg (Nat.not_lt.2 high)).trans (if_pos stack)⟩
    · unfold regionOf at paged
      rw [if_neg (show ¬ia < 0x1000000000000 by omega), if_neg (show ¬ia < 0x1800000000000 by omega)] at paged
      dsimp only at paged
      repeat' split at paged
      all_goals cases paged

/-- The share of a page, of either size, is named alike by itself and by any byte of it. -/
theorem bigShare_shareOf {ia : Nat} (paged : pagedHere (regionOf ia) = true) : bigShare (shareOf ia) = bigShare ia ∧
    bigShare (bigShare ia) = bigShare ia ∧ shareOf ia < 0x8000000000000 ∧ bigShare ia < 0x8000000000000 := by
  have down : ∀ a b, b < 2 ^ 21 → (a / 2 ^ 21 * 2 ^ 21 + b) / 2 ^ 21 = a / 2 ^ 21 := fun a b h => by omega
  rcases pagedHere_cases paged with ⟨low, pkg⟩ | ⟨high, top, k, stack⟩
  · have share : shareOf ia = ia / 65536 * 65536 + ia / 4096 % 8 * 4096 := by unfold shareOf; rw [pkg]
    have big : bigShare ia = ia / 2 ^ 21 * 2 ^ 21 + ia / 4096 % 8 * 4096 + 1 := by unfold bigShare; rw [pkg]
    have inside : ∀ a, a < 2 ^ 48 → bigShare a = a / 2 ^ 21 * 2 ^ 21 + a / 4096 % 8 * 4096 + 1 := fun a h => by
      unfold bigShare
      rw [regionOf_package h]
    refine ⟨?_, ?_, by omega, by omega⟩
    · rw [inside _ (by omega), inside _ low]
      omega
    · rw [inside (bigShare ia) (by omega), big]
      omega
  · have share : shareOf ia = ia / 65536 * 65536 := by unfold shareOf; rw [stack]
    have big : bigShare ia = ia / 2 ^ 21 * 2 ^ 21 + 1 := by unfold bigShare; rw [stack]
    have inside : ∀ a, 2 ^ 48 ≤ a → a < 0x1800000000000 → bigShare a = a / 2 ^ 21 * 2 ^ 21 + 1 := fun a h h' => by
      unfold bigShare regionOf
      rw [if_neg (by omega), if_pos h']
    refine ⟨?_, ?_, by omega, by omega⟩
    · rw [inside _ (by omega) (by omega), inside _ high top]
      omega
    · rw [inside (bigShare ia) (by omega) (by omega), big]
      omega

theorem State.resident_of_unmapped {s : State} {ia : Nat} (paged : pagedHere (regionOf ia) = true) (hidden : s.hostVisible ia = false)
    (none : s.leafOf ia = none) : s.resident ia = false := by
  have below : ia < 0x8000000000000 := by rcases pagedHere_cases paged with ⟨_, -⟩ | ⟨_, _, -⟩ <;> omega
  unfold State.resident
  rw [s.place_below below]
  dsimp only
  rw [hidden, none]
  rcases pagedHere_cases paged with ⟨-, region⟩ | ⟨-, -, k, region⟩ <;> rw [region] <;> rfl

/-- A share that its home unmaps is not resident. -/
theorem State.resident_unmap {s : State} {ia : Nat} (paged : pagedHere (regionOf ia) = true) (hidden : s.hostVisible ia = false)
    (wf : twf 0 (s.home (homeOf ia)).pte = true) : (s.updHome (homeOf ia) (fun m => m.unmap ia)).resident ia = false := by
  refine State.resident_of_unmapped paged hidden (State.leafOf_eq_none.2 fun l e => ?_)
  rw [State.home_updHome]
  exact Home.walk_unmap wf ia l e

theorem State.forgetShares_core (s : State) (hit : Nat → Bool) (c : CoreId) :
    ((s.forgetShares hit).core c).resCache = (s.core c).resCache.filter (fun a => !hit a) :=
  congrArg Core.resCache (State.core_allCores (fun _ k =>
    { k with resCache := k.resCache.filter (fun a => !hit a)
             ctx := { k.ctx with prim := k.ctx.prim.forget hit, sec := k.ctx.sec.forget hit }
             shadow := { k.shadow with prim := k.shadow.prim.forget hit, sec := k.shadow.sec.forget hit } }) s c)

/-- To forget a share changes only cores. -/
theorem State.forgetShares_frame (s : State) (hit : Nat → Bool) :
    (s.forgetShares hit).mem = s.mem ∧ (s.forgetShares hit).hub = s.hub ∧ (s.forgetShares hit).homes = s.homes :=
  ⟨foldl_view State.mem (fun _ _ => State.updCore_mem ..) _ s, foldl_view State.hub (fun _ _ => State.updCore_hub ..) _ s,
    foldl_view State.homes (fun _ _ => State.updCore_homes ..) _ s⟩

theorem State.forgetShares_home (s : State) (hit : Nat → Bool) (h : CoreId) : (s.forgetShares hit).home h = s.home h :=
  congrArg (fun v : Vector Home 8 => v[h]) (s.forgetShares_frame hit).2.2

/-- Whatever of a share is recorded names the share of its leaf. -/
theorem State.namesLeafOf_shares (s : State) {ia : Nat} (paged : pagedHere (regionOf ia) = true) :
    s.namesLeafOf ia (s.place (shareOf ia)) = true ∧ s.namesLeafOf ia (s.place (bigShare (shareOf ia))) = true := by
  obtain ⟨share, big, low, low'⟩ := bigShare_shareOf paged
  rw [share, s.place_below low, s.place_below low']
  unfold State.namesLeafOf
  split
  · exact ⟨decide_eq_true share, decide_eq_true big⟩
  · simp

theorem Core.holds_eq_false {k : Core} {sh : Nat} (share : k.resCache.contains sh = false) (big : k.resCache.contains (bigShare sh) = false) :
    k.holds sh = false := Bool.or_eq_false_iff.2 ⟨share, big⟩

/-- A share that is forgotten is in no residency cache. -/
theorem State.forgetShares_holds (s : State) {hit : Nat → Bool} {sh : Nat} (share : hit sh = true) (big : hit (bigShare sh) = true) (c : CoreId) :
    ((s.forgetShares hit).core c).holds sh = false := by
  refine Core.holds_eq_false ?_ ?_ <;> rw [State.forgetShares_core]
  · simp [share]
  · simp [big]

theorem shareUnmap_drops {s : State} {h : CoreId} {ia : Nat} (canonical : s.canonical) (home : homeOf ia = h) (may : s.mayUnmap ia = true)
    (free : s.shareInUse ia = false) :
    ∃ t, exec (.shareUnmap h ia) s = .next t ∧ t.resident ia = false ∧ (∀ c, (t.core c).holds (shareOf ia) = false) ∧ SameMemory s t := by
  subst home
  have run : exec (.shareUnmap (homeOf ia) ia) s = .next ((((s.updHome (homeOf ia) (fun m => m.unpin ia)).forgetShares
      (fun k => s.namesLeafOf ia (s.place k))).updHome (homeOf ia) (fun m => m.unmap ia))) := by
    refine congrArg _ ((if_neg (by rw [may]; simp)).trans ?_)
    unfold State.unmapShare
    rw [free]
    rfl
  obtain ⟨paged, hidden⟩ : pagedHere (regionOf ia) = true ∧ s.hostVisible ia = false := by
    unfold State.mayUnmap at may
    simp only [Bool.and_eq_true, Bool.not_eq_true'] at may
    exact may.1
  obtain ⟨mem, hub, -⟩ := State.forgetShares_frame (s.updHome (homeOf ia) (fun m => m.unpin ia)) (fun k => s.namesLeafOf ia (s.place k))
  refine ⟨_, run, ?_, fun c => ?_, fun a => congrArg (Memory.get · a) mem⟩
  · refine State.resident_unmap paged ?_ ?_
    · unfold State.hostVisible
      rw [hub]
      exact hidden
    · rw [State.forgetShares_home, State.home_updHome]
      exact Home.unpin_twf ia (canonical.2 (homeOf ia))
  · obtain ⟨share, big⟩ := s.namesLeafOf_shares paged
    have forgotten := State.forgetShares_holds (s.updHome (homeOf ia) (fun m => m.unpin ia)) (hit := fun k => s.namesLeafOf ia (s.place k)) share big c
    unfold State.core at forgotten ⊢
    rw [State.updHome_cores]
    exact forgotten

end Sys2Proof.Machine

end

section
/-! Copies of pages, and the host's answers (R68 to R70, R79). -/

namespace Sys2Proof.Machine

open Sys2Proof.Claims

/-! ### Bitmaps of cores -/

theorem getLsbD_coreBit : ∀ d c : CoreId, (coreBit d).getLsbD c.val = decide (d = c) := by decide

theorem coreBit_eq_shift : ∀ c : CoreId, coreBit c = 1#8 <<< c.val := by decide

theorem mem_coresOf (m : BitVec 8) (c : CoreId) : c ∈ coresOf m ↔ m.getLsbD c.val = true := by
  have all : ∀ c : CoreId, c ∈ [(0 : CoreId), 1, 2, 3, 4, 5, 6, 7] := by decide
  rw [coresOf, List.mem_filter]
  exact ⟨fun h => h.2, fun h => ⟨all c, h⟩⟩

/-- The bitmap of those of some cores that have a property. -/
theorem getLsbD_foldl_coreBit (p : CoreId → Bool) (l : List CoreId) (m : BitVec 8) (c : CoreId) :
    (l.foldl (fun m c => if p c then m ||| coreBit c else m) m).getLsbD c.val = (m.getLsbD c.val || (decide (c ∈ l) && p c)) := by
  induction l generalizing m with
  | nil => simp
  | cons d l ih =>
    rw [List.foldl_cons, ih]
    by_cases same : d = c
    · subst same
      cases holds : p d <;> simp [getLsbD_coreBit]
    · have bit : (if p d then m ||| coreBit d else m).getLsbD c.val = m.getLsbD c.val := by
        split
        · rw [BitVec.getLsbD_or, getLsbD_coreBit, decide_eq_false same, Bool.or_false]
        · rfl
      rw [bit]
      simp [Ne.symm same]

/-! ### Copies are placed -/

theorem State.placeCopies_frame {h : CoreId} (page : Nat) {l : List CoreId} (others : h ∉ l) (s : State) :
    (l.foldl (fun s c => s.placeCopy page c) s).mem = s.mem ∧ (l.foldl (fun s c => s.placeCopy page c) s).home h = s.home h := by
  induction l generalizing s with
  | nil => exact ⟨rfl, rfl⟩
  | cons c l ih =>
    obtain ⟨mem, home⟩ := ih (fun later => others (.tail _ later)) (s.placeCopy page c)
    exact ⟨mem, home.trans (State.home_updHome_ne s (fun m => (m.pointers page).mapLeaf page false)
      (fun same => others (List.mem_cons.2 (.inl same))))⟩

theorem replicaPlace_sets {s : State} {h : CoreId} {page k : Nat} {e : Word} (copies : BitVec 8) (canonical : s.canonical)
    (region : regionOf page = .stack k) (home : homeOf page = h) (found : s.leafOf page = some (4, e)) (replicable : s.replicable page = true) :
    ∃ t, exec (.replicaPlace h page copies) s = .next t ∧ SameMemory s t ∧
      ∀ c : CoreId, (t.rmask page).getLsbD c.val = (copies.getLsbD c.val && decide (c ≠ h) && t.copyLeaf c page) := by
  subst home
  have others : homeOf page ∉ coresOf (copies &&& ~~~coreBit (homeOf page)) := by
    rw [mem_coresOf, BitVec.getLsbD_and, BitVec.getLsbD_not, getLsbD_coreBit]
    simp
  obtain ⟨mem, same⟩ := State.placeCopies_frame page others s
  generalize placed : (coresOf (copies &&& ~~~coreBit (homeOf page))).foldl (fun s c => s.placeCopy page c) s = s1 at mem same
  have leaf : s1.leafOf page = some (4, e) := by
    rw [State.leafOf_eq_some, same]
    exact State.leafOf_eq_some.1 found
  have wf : twf 0 (s1.home (homeOf page)).pte = true := same ▸ canonical.2 _
  generalize bits : (coresOf (copies &&& ~~~coreBit (homeOf page))).foldl (fun m c => if s1.copyLeaf c page then m ||| coreBit c else m) 0 = m
  have run : exec (.replicaPlace (homeOf page) page copies) s = .next (s1.setRmask page m) := by
    show execReplicaPlace (homeOf page) page copies s = _
    unfold execReplicaPlace
    simp only [region, found, replicable, placed, bits]
    simp
  obtain ⟨mem', -, homes, -, -⟩ := s1.setRmask_frame page m
  refine ⟨_, run, fun a => congrArg (Memory.get · a) (mem'.trans mem), fun c => ?_⟩
  have bit : m.getLsbD c.val = _ := bits ▸ getLsbD_foldl_coreBit (s1.copyLeaf · page) _ 0 c
  rw [State.rmask_setRmask wf region leaf, bit]
  by_cases own : c = homeOf page
  · subst own
    simp [others]
  · have kept : (s1.setRmask page m).copyLeaf c page = s1.copyLeaf c page := by
      unfold State.copyLeaf
      rw [homes c own]
    rw [kept]
    have named : c ∈ coresOf (copies &&& ~~~coreBit (homeOf page)) ↔ copies.getLsbD c.val = true := by
      rw [mem_coresOf, BitVec.getLsbD_and, BitVec.getLsbD_not, getLsbD_coreBit]
      simp [Ne.symm own]
    simp [named, own]

/-! ### Copies are invalidated -/

theorem aget_adel {β : Type} (l : List (Nat × β)) (k : Nat) : aget (adel l k) k = none := by
  have kept := aget_filter l (fun x => x != k) k
  rw [if_neg (by simp)] at kept
  exact kept

theorem aget_aput {β : Type} (l : List (Nat × β)) (k : Nat) (v : β) : aget (aput l k v) k = some v := by
  induction l with
  | nil => simp [aput, aget]
  | cons p r ih =>
    obtain ⟨k', v'⟩ := p
    by_cases same : k' = k
    · simp [aput, aget, same]
    · simp [aput, aget, same, ih]

/-- A copy that is gone leaves everything but the state of the invalidation, and RMASK. -/
theorem State.copyGone_frame (s : State) (line : Nat) (copy : CoreId) :
    (s.copyGone (homeOf line) line copy).mem = s.mem ∧ (s.copyGone (homeOf line) line copy).hub = s.hub ∧
      (∀ c, c ≠ homeOf line → (s.copyGone (homeOf line) line copy).home c = s.home c) ∧
      ((s.copyGone (homeOf line) line copy).home (homeOf line)).hestat = (s.home (homeOf line)).hestat := by
  unfold State.copyGone
  split
  · exact ⟨rfl, rfl, fun _ _ => rfl, rfl⟩
  · extract_lets left s1
    split
    · obtain ⟨mem, hub, homes, -, hestat⟩ := (s1.updHome (homeOf line) (fun q => { q with invalidating := adel q.invalidating line })).setRmask_frame line 0
      refine ⟨mem, hub, fun c other => (homes c other).trans (State.home_updHome_ne s1 _ other), hestat.trans ?_⟩
      rw [State.home_updHome]
      rfl
    · refine ⟨rfl, rfl, fun c other => State.home_updHome_ne s1 _ other, ?_⟩
      rw [State.home_updHome]
      rfl

/-- The last copy to go ends the invalidation. -/
theorem State.copyGone_last {s : State} {line : Nat} {copy : CoreId} {m : BitVec 8} (canonical : s.canonical)
    (waits : aget (s.home (homeOf line)).invalidating line = some m) (last : m &&& ~~~coreBit copy = 0) :
    aget ((s.copyGone (homeOf line) line copy).home (homeOf line)).invalidating line = none ∧ (s.copyGone (homeOf line) line copy).rmask line = 0 := by
  have gone : s.copyGone (homeOf line) line copy = ((s.cancelEvent (.replicaFence (homeOf line) line copy)).updHome (homeOf line)
      (fun q => { q with invalidating := adel q.invalidating line })).setRmask line 0 := by
    unfold State.copyGone
    simp only [waits, last, if_true]
  obtain ⟨-, -, -, invalidating, -⟩ := State.setRmask_frame ((s.cancelEvent (.replicaFence (homeOf line) line copy)).updHome (homeOf line)
    (fun q => { q with invalidating := adel q.invalidating line })) line 0
  rw [gone]
  refine ⟨?_, State.rmask_setRmask_zero ?_⟩
  · rw [invalidating, State.home_updHome]
    exact aget_adel _ line
  · rw [State.home_updHome]
    exact canonical.2 (homeOf line)

/-- Until then it waits for those that are left. -/
theorem State.copyGone_left {s : State} {line : Nat} {copy : CoreId} {m : BitVec 8}
    (waits : aget (s.home (homeOf line)).invalidating line = some m) (left : m &&& ~~~coreBit copy ≠ 0) :
    aget ((s.copyGone (homeOf line) line copy).home (homeOf line)).invalidating line = some (m &&& ~~~coreBit copy) := by
  have gone : s.copyGone (homeOf line) line copy = (s.cancelEvent (.replicaFence (homeOf line) line copy)).updHome (homeOf line)
      (fun q => { q with invalidating := aput q.invalidating line (m &&& ~~~coreBit copy) }) := by
    unfold State.copyGone
    simp only [waits, left, if_false]
  rw [gone, State.home_updHome]
  exact aget_aput _ line _

/-- A copy that is dropped is absent from the table of its home. -/
theorem Home.dropCopy_absent {q : Home} (wf : twf 0 q.pte = true) (ia : Nat) : tget 0 (q.dropCopy ia).pte (pteKey 4 ia) = 0 := by
  unfold Home.dropCopy
  extract_lets p
  have wf' : twf 0 p.pte = true := by
    unfold p
    split
    · exact Home.unmap_twf ia wf
    · exact wf
  exact (tget_tput wf' ..).trans (if_pos rfl)

/-- The state once a silent copy has been fenced. -/
def State.fenced (s : State) (line : Nat) (copy : CoreId) : State :=
  let s1 := (s.updHome copy (fun q => q.dropCopy line)).setHestat (homeOf line) 2
  let s2 := (s1.setRmask line (s1.rmask line &&& ~~~coreBit copy)).msix 0
  s2.updHub (fun q => { q with reports := q.reports ++ [.copyFenced (homeOf line) (s.pageOf line) (coreBit copy)] })

theorem replicaFence_fences {s : State} {line : Nat} {copy : CoreId} {m : BitVec 8} (canonical : s.canonical)
    (waits : aget (s.home (homeOf line)).invalidating line = some m) (silent : m.getLsbD copy.val = true) (other : copy ≠ homeOf line) :
    ∃ t, exec (.replicaFence (homeOf line) line copy) s = .next t ∧ (t.home (homeOf line)).hestat.getLsbD 2 = true ∧
      tget 0 (t.home copy).pte (pteKey 4 line) = 0 ∧ .copyFenced (homeOf line) (s.pageOf line) (1#8 <<< copy.val) ∈ t.hub.reports ∧
      tget 0 t.hub.msix 0 = tget 0 s.hub.msix 0 + 1 ∧ SameMemory s t := by
  have run : exec (.replicaFence (homeOf line) line copy) s =
      .next (((s.fenced line copy).cancelEvent (.replicaInvalidationAck (homeOf line) line copy)).copyGone (homeOf line) line copy) := by
    show execReplicaFence (homeOf line) line copy s = _
    unfold execReplicaFence
    simp only [waits, silent, if_true]
    rfl
  obtain ⟨mem, hub, homes, hestat⟩ :=
    ((s.fenced line copy).cancelEvent (.replicaInvalidationAck (homeOf line) line copy)).copyGone_frame line copy
  generalize marked : (s.updHome copy (fun q => q.dropCopy line)).setHestat (homeOf line) 2 = s1
  have fenced : s.fenced line copy = ((s1.setRmask line (s1.rmask line &&& ~~~coreBit copy)).msix 0).updHub (fun q =>
      { q with reports := q.reports ++ [.copyFenced (homeOf line) (s.pageOf line) (coreBit copy)] }) := by rw [← marked]; rfl
  obtain ⟨mem1, hub1, homes1, -, hestat1⟩ := s1.setRmask_frame line (s1.rmask line &&& ~~~coreBit copy)
  refine ⟨_, run, ?_, ?_, ?_, ?_, fun a => congrArg (Memory.get · a) (mem.trans ?_)⟩
  · rw [hestat]
    show ((s.fenced line copy).home (homeOf line)).hestat.getLsbD 2 = true
    rw [fenced]
    show ((s1.setRmask line _).home (homeOf line)).hestat.getLsbD 2 = true
    rw [hestat1, ← marked, State.setHestat, State.home_updHome]
    rw [BitVec.getLsbD_or]
    simp
  · rw [homes copy other]
    show tget 0 ((s.fenced line copy).home copy).pte _ = 0
    rw [fenced]
    show tget 0 ((s1.setRmask line _).home copy).pte _ = 0
    rw [homes1 copy other, ← marked, State.setHestat, State.home_updHome_ne _ _ other, State.home_updHome]
    exact Home.dropCopy_absent (canonical.2 copy) line
  · rw [hub, ← coreBit_eq_shift]
    exact List.mem_append_right _ (.head _)
  · rw [hub]
    show tget 0 (s.fenced line copy).hub.msix 0 = _
    rw [fenced]
    refine (tget_bumped _).trans ?_
    rw [hub1, ← marked]
    rfl
  · show (s.fenced line copy).mem = s.mem
    rw [fenced]
    exact mem1.trans (by rw [← marked]; rfl)

/-! ### The host answers -/

/-- The answer to a snoop is recorded. -/
theorem aget_answered (l : List (Nat × Bool)) {line : Nat} {v : Bool} (asked : aget l line = some v) :
    aget (l.map (fun p => if p.1 = line then (line, true) else p)) line = some true := by
  induction l with
  | nil => cases asked
  | cons p r ih =>
    obtain ⟨k, b⟩ := p
    by_cases same : k = line
    · simp [aget, same]
    · simp only [aget, same, if_false] at asked
      simpa [aget, same] using ih asked

/-- The state in which the host's answer for a line stands. -/
def State.answered (s : State) (line : Nat) : State :=
  s.updHome (homeOf line) (fun q => { q with snoops := q.snoops.map (fun p => if p.1 = line then (line, true) else p) })

theorem State.answered_snoop {s : State} {line : Nat} {v : Bool} (asked : aget (s.home (homeOf line)).snoops line = some v) :
    aget ((s.answered line).home (homeOf line)).snoops line = some true := by
  unfold State.answered
  rw [State.home_updHome]
  exact aget_answered _ asked

theorem hostSnoopResponse_recorded {s : State} {line : Nat} {v : Bool} (asked : aget (s.home (homeOf line)).snoops line = some v)
    (idle : s.hub.fwWrites = []) :
    ∃ t, exec (.hostSnoopResponse line) s = .next t ∧ aget (t.home (homeOf line)).snoops line = some true ∧ SameMemory s t := by
  have run : exec (.hostSnoopResponse line) s = .next (s.answered line) := congrArg _ (if_pos idle)
  exact ⟨_, run, State.answered_snoop asked, fun _ => rfl⟩

theorem package_of_regionOf {a : Nat} (region : regionOf a = .pkg) : a < 2 ^ 48 := by
  rcases pagedHere_cases (show pagedHere (regionOf a) = true by rw [region]; rfl) with ⟨low, -⟩ | ⟨-, -, k, stack⟩
  · exact low
  · rw [region] at stack
    cases stack

/-- The bytes of a line lie in one line. -/
theorem linesOf_within {line len l : Nat} (aligned : line % 64 = 0) (short : len ≤ 64) (h : l ∈ linesOf (addrs line len)) : l = line := by
  obtain ⟨a, ha, rfl⟩ := List.mem_map.1 (List.mem_eraseDups.1 h)
  obtain ⟨i, hi, rfl⟩ := List.mem_map.1 ha
  have := List.mem_range.1 hi
  omega

/-- A write of the firmware to a line for which the host has answered is applied. -/
theorem hostSnoopResponse_frees {s : State} {line : Nat} {v : Bool} {bytes : List Byte} (asked : aget (s.home (homeOf line)).snoops line = some v)
    (waits : s.hub.fwWrites = [(line, bytes, none)]) (whole : ∀ o ∈ s.allOps, o.half = none) (canonical : s.canonical) (aligned : line % 64 = 0)
    (region : regionOf line = .pkg) (short : bytes.length ≤ 64) :
    ∃ t, exec (.hostSnoopResponse line) s = .next t ∧ t.hub.fwWrites = [] ∧
      (∀ i (h : i < bytes.length), Memory.get t.mem (line + i) = bytes[i]) ∧
      ∀ a, (a < line ∨ line + bytes.length ≤ a) → Memory.get t.mem a = Memory.get s.mem a := by
  have low := package_of_regionOf region
  have answers : (s.answered line).unanswered (linesOf (addrs line bytes.length)) = [] := by
    rw [State.unanswered, List.filter_eq_nil_iff]
    intro l hl
    rw [linesOf_within aligned short hl, State.answered_snoop asked]
    simp
  have idle : (s.answered line).hubBusy none (linesOf (addrs line bytes.length)) = false := by
    have none : ∀ o ∈ (s.answered line).allOps, o.half = Option.none := whole
    unfold State.hubBusy
    rw [List.any_eq_false]
    intro o ho
    rw [none o ho]
    simp
  have run : exec (.hostSnoopResponse line) s =
      .next (((s.answered line).agentWrite Writer.outside (atAddr line bytes) false).updHub (fun h => { h with fwWrites := [] })) := by
    refine congrArg _ ((if_neg (by rw [State.updHome_hub, waits]; simp)).trans ?_)
    show (s.answered line).drainFirmware s.hub.fwWrites = _
    rw [waits, State.drainFirmware, answers, idle]
    rfl
  have written := State.get_agentWrite_package (s := s.answered line) (addr := line) (data := bytes) canonical.1 (by omega) Writer.outside false
  refine ⟨_, run, rfl, fun i hi => (written (line + i)).trans ?_, fun a apart => (written a).trans (if_neg (by omega))⟩
  rw [if_pos ⟨by omega, by omega⟩, Nat.add_sub_cancel_left, List.getD_eq_getElem _ _ hi]

theorem homesAnswer : HomesAnswer := by
  intro s h copy
  refine ⟨poolRefill_fills s h, fun ia canonical home may free => shareUnmap_drops canonical home may free,
    fun page copies k e canonical region home found replicable => replicaPlace_sets copies canonical region home found replicable,
    fun page m canonical waits home => ?_, fun line v asked => ⟨hostSnoopResponse_recorded asked,
      fun bytes waits whole canonical aligned region short => hostSnoopResponse_frees asked waits whole canonical aligned region short⟩⟩
  subst home
  rw [← coreBit_eq_shift]
  refine ⟨fun last => ?_, fun left => ?_, fun silent other => ?_⟩
  · obtain ⟨ended, cleared⟩ := State.copyGone_last canonical waits last
    exact ⟨_, rfl, ended, cleared, fun a => congrArg (Memory.get · a) (s.copyGone_frame page copy).1⟩
  · exact ⟨_, rfl, State.copyGone_left waits left, fun a => congrArg (Memory.get · a) (s.copyGone_frame page copy).1⟩
  · have fences := replicaFence_fences canonical waits silent other
    rwa [← coreBit_eq_shift] at fences

end Sys2Proof.Machine

end

section
/-! Patrols, and the sub-banks of the slices (R72 to R74, R121, R123 to R125). -/

namespace Sys2Proof.Machine

open Sys2Proof.Claims

/-! ### The patrol of a home -/

/-- Marking an uncorrectable error of a line shows it at its home, and changes nothing else but the vectors. -/
theorem State.markUe_shows (s : State) (u : Nat) : ((s.markUe u).home (markHome u)).hestat.getLsbD 0 = true ∧
    (s.markUe u).poison = s.poison ∧ (s.markUe u).fatals = s.fatals ∧ (s.markUe u).mem = s.mem := by
  have bit : ∀ x : Word, (x ||| BitVec.ofNat 64 (2 ^ 0)).getLsbD 0 = true := fun x => by
    rw [BitVec.getLsbD_or]
    simp
  unfold State.markUe
  extract_lets h was s1
  have shown : (s1.home h).hestat.getLsbD 0 = true := by
    unfold s1 State.setHestat
    rw [State.home_updHome]
    exact bit _
  split
  · exact ⟨shown, rfl, rfl, rfl⟩
  · refine ⟨?_, rfl, rfl, rfl⟩
    have home := State.home_updHome s1 h (fun m => { m with headdr := BitVec.ofNat 64 (u % 2 ^ 52) })
    exact (congrArg (fun m : Home => m.hestat.getLsbD 0) home).trans shown

/-- The state once the patrol has corrected a line. -/
def State.corrected (s : State) (u : Nat) : State :=
  let s1 := s.updHome (markHome u) (fun m => { m with hecnt := satAdd m.hecnt 0 32 (s.flipsIn u) })
  { s1 with flips := s1.flips.filter (fun w => lineOf w ≠ u || s1.fatals.contains w) }

theorem State.corrected_hecnt (s : State) (u : Nat) :
    ((s.corrected u).home (markHome u)).hecnt = satAdd (s.home (markHome u)).hecnt 0 32 (s.flipsIn u) :=
  congrArg Home.hecnt (State.home_updHome s (markHome u) (fun m => { m with hecnt := satAdd m.hecnt 0 32 (s.flipsIn u) }))

/-- The state once the patrol has also found a line to be uncorrectable. -/
def State.condemned (s : State) (u : Nat) : State :=
  let s3 := (s.corrected u).updHome (markHome u) (fun m => { m with hecnt := satAdd m.hecnt 48 12 (s.fatalsIn u) })
  ({ s3 with fatals := s3.fatals.filter (fun w => lineOf w ≠ u) }.addPoison u).markUe u

theorem State.condemned_shows (s : State) (u : Nat) : ((s.condemned u).home (markHome u)).hestat.getLsbD 0 = true ∧ u ∈ (s.condemned u).poison ∧
    (s.condemned u).fatals = s.fatals.filter (fun w => lineOf w ≠ u) ∧ (s.condemned u).mem = s.mem := by
  unfold State.condemned
  extract_lets s3
  obtain ⟨shown, poison, fatals, mem⟩ := State.markUe_shows
    (State.addPoison { s3 with fatals := s3.fatals.filter (fun w => lineOf w ≠ u) } u) u
  refine ⟨shown, ?_, fatals, mem⟩
  rw [poison]
  exact List.mem_cons_self

theorem exec_hbmPatrolRead {s : State} {n : Nat} (paged : pagedHere (regionOf (lineOf n)) = true) (sound : lineOf n ∉ s.poison) :
    exec (.hbmPatrolRead n) s = .next (if s.fatalsIn (lineOf n) = 0 then s.corrected (lineOf n) else s.condemned (lineOf n)) := by
  have read : ¬(!(pagedHere (regionOf (lineOf n)) || decide (2 ^ 52 ≤ lineOf n)) || s.poison.contains (lineOf n)) = true := by
    simp [paged, sound]
  by_cases none : s.fatalsIn (lineOf n) = 0
  · rw [if_pos none]
    exact (if_neg read).trans (if_pos none)
  · rw [if_neg none]
    exact (if_neg read).trans (if_neg none)

theorem markHome_paged {u : Nat} (paged : pagedHere (regionOf u) = true) : markHome u = homeOf u :=
  if_pos (by rcases pagedHere_cases paged with ⟨_, -⟩ | ⟨_, _, -⟩ <;> omega)

section Patrol

variable {s : State} {n : Nat} (paged : pagedHere (regionOf (lineOf n)) = true) (sound : lineOf n ∉ s.poison)
include paged sound

theorem hbmPatrolRead_condemns (fatal : ∃ w ∈ wordsOf (lineOf n), w ∈ s.fatals) :
    ∃ t, exec (.hbmPatrolRead n) s = .next t ∧ lineOf n ∈ t.poison ∧ (∀ w ∈ wordsOf (lineOf n), w ∉ t.fatals) ∧
      (t.home (homeOf (lineOf n))).hestat.getLsbD 0 = true ∧ SameMemory s t := by
  have some : s.fatalsIn (lineOf n) ≠ 0 := by
    obtain ⟨w, member, found⟩ := fatal
    intro zero
    rw [State.fatalsIn, List.length_eq_zero_iff, List.filter_eq_nil_iff] at zero
    exact zero w member (by simpa using found)
  have run := exec_hbmPatrolRead paged sound
  rw [if_neg some] at run
  obtain ⟨shown, poison, fatals, mem⟩ := s.condemned_shows (lineOf n)
  rw [markHome_paged paged] at shown
  refine ⟨_, run, poison, fun w member found => ?_, shown, fun a => congrArg (Memory.get · a) mem⟩
  · rw [fatals] at found
    obtain ⟨i, hi, rfl⟩ := List.mem_map.1 member
    have line : lineOf (lineOf n + 8 * i) = lineOf n := by
      have low : i < 8 := by simp at hi; omega
      unfold lineOf
      omega
    simpa [line] using (List.mem_filter.1 found).2

theorem hbmPatrolRead_corrects (none : ∀ w ∈ wordsOf (lineOf n), w ∉ s.fatals) :
    ∃ t, exec (.hbmPatrolRead n) s = .next t ∧ (∀ w ∈ wordsOf (lineOf n), w ∉ t.flips) ∧
      getBits (t.home (homeOf (lineOf n))).hecnt 0 32 =
        Nat.min (getBits (s.home (homeOf (lineOf n))).hecnt 0 32 +
          ((wordsOf (lineOf n)).filter (fun w => decide (w ∈ s.flips))).length) (2 ^ 32 - 1) ∧
      SameMemory s t := by
  have zero : s.fatalsIn (lineOf n) = 0 := by
    rw [State.fatalsIn, List.length_eq_zero_iff, List.filter_eq_nil_iff]
    exact fun w member found => none w member (by simpa using found)
  have run := exec_hbmPatrolRead paged sound
  rw [if_pos zero] at run
  have count : s.flipsIn (lineOf n) = ((wordsOf (lineOf n)).filter (fun w => decide (w ∈ s.flips))).length := by
    refine congrArg List.length (List.filter_congr fun w member => ?_)
    simp [none w member]
  refine ⟨_, run, fun w member found => ?_, ?_, fun _ => rfl⟩
  · obtain ⟨i, hi, rfl⟩ := List.mem_map.1 member
    have line : lineOf (lineOf n + 8 * i) = lineOf n := by
      have low : i < 8 := by simp at hi; omega
      unfold lineOf
      omega
    have kept := (List.mem_filter.1 found).2
    have clean : lineOf n + 8 * i ∉ s.fatals := none _ member
    simp only [line, ne_eq, not_true_eq_false, decide_false, Bool.false_or] at kept
    exact clean (by simpa using kept)
  · rw [← markHome_paged paged]
    rw [← count, State.corrected_hecnt]
    exact getBits_satAdd _ _ (by decide)

end Patrol

/-- The counts of a scrub are added. -/
theorem hbmRefreshScrub_adds (s : State) (c : CoreId) (n : Nat) : ∃ t, exec (.hbmRefreshScrub c n) s = .next t ∧
    getBits (t.home c).hecnt 32 16 = Nat.min (getBits (s.home c).hecnt 32 16 + n) (2 ^ 16 - 1) ∧ SameMemory s t := by
  refine ⟨_, rfl, ?_, fun _ => rfl⟩
  refine (congrArg (fun m : Home => getBits m.hecnt 32 16) (State.home_updHome s c _)).trans ?_
  exact getBits_satAdd _ _ (by decide)

/-! ### The patrol of a slice -/

theorem sliceWord_region (c : CoreId) {n : Nat} (inside : 8 * n < sliceBytes) : regionOf (sliceBase c.val + 8 * n) = .slice c.val ∧
    sliceCore (sliceBase c.val + 8 * n) = c := by
  have low := c.isLt
  have core : (sliceBase c.val + 8 * n - 0x2000000000000) / 0x10000000 = c.val := by
    unfold sliceBase
    unfold sliceBytes at inside
    omega
  have byte : (sliceBase c.val + 8 * n - 0x2000000000000) % 0x10000000 < sliceBytes := by
    unfold sliceBase
    unfold sliceBytes at inside ⊢
    omega
  have bounds : 0x2000000000000 ≤ sliceBase c.val + 8 * n ∧ sliceBase c.val + 8 * n < 0x4000000000000 := by
    unfold sliceBase
    unfold sliceBytes at inside
    omega
  refine ⟨?_, ?_⟩
  · unfold regionOf
    rw [if_neg (by omega), if_neg (by omega), if_neg (by omega), if_pos bounds.2]
    simp only [core, byte, low]
    rfl
  · unfold sliceCore
    exact Fin.ext ((congrArg (· % 8) core).trans (Nat.mod_eq_of_lt low))

/-- A word with a single-bit error alone is corrected and counted, and its rewrite is queued (R123, R125). -/
theorem State.noteWord_corrects {s : State} {w : Nat} (diag : s.spdiagOf w = 0) (sound : w ∉ s.poison) (fatal : w ∉ s.fatals) (flip : w ∈ s.flips) :
    s.noteWord w = s.updCore (sliceCore w) (fun k =>
      { k with spstat := satAdd k.spstat 0 32 1, writeback := (w :: k.writeback.filter (· != w)) }) := by
  have stuck : s.stuckDiffers w = false := by
    unfold State.stuckDiffers
    rw [diag]
    rfl
  unfold State.noteWord
  rw [diag]
  simp [stuck, sound, fatal, flip]

/-- The patrol reads a word whose sub-bank is free. -/
theorem exec_slicePatrolRead {s : State} {c : CoreId} {n : Nat} (inside : 8 * n < sliceBytes) (raw : (s.core c).raw = false)
    (free : s.bankTaken c (slicePlace (8 * n)).index = false) : exec (.slicePatrolRead c n) s =
      .next ((s.noteWord (sliceBase c.val + 8 * n)).updCore c (fun k =>
        { k with patrol := if n = k.patrol % (sliceBytes / 8) then k.patrol + 1 else k.patrol }.grant (slicePlace (8 * n)).index)) := by
  refine if_pos ?_
  rw [decide_eq_true inside, raw, free]
  rfl

theorem State.spdiagOf_slice {s : State} {c : CoreId} {a : Nat} (region : regionOf a = .slice c.val) : s.spdiagOf a = (s.core c).spdiag := by
  unfold State.spdiagOf
  rw [region]
  exact dif_pos c.isLt

theorem slicePatrolRead_corrects {s : State} {c : CoreId} {n : Nat} (inside : 8 * n < sliceBytes) (diag : (s.core c).spdiag = 0)
    (sound : sliceBase c.val + 8 * n ∉ s.poison) (fatal : sliceBase c.val + 8 * n ∉ s.fatals) (flip : sliceBase c.val + 8 * n ∈ s.flips)
    (free : s.bankTaken c (slicePlace (8 * n)).index = false) :
    ∃ t, exec (.slicePatrolRead c n) s = .next t ∧ (slicePlace (8 * n)).index ∈ (t.core c).granted ∧
      sliceBase c.val + 8 * n ∈ (t.core c).writeback ∧
      getBits (t.core c).spstat 0 32 = Nat.min (getBits (s.core c).spstat 0 32 + 1) (2 ^ 32 - 1) ∧ SameMemory s t := by
  obtain ⟨region, core⟩ := sliceWord_region c inside
  have raw : (s.core c).raw = false := by
    unfold Core.raw
    rw [diag]
    rfl
  have run := exec_slicePatrolRead inside raw free
  rw [State.noteWord_corrects ((State.spdiagOf_slice region).trans diag) sound fatal flip, core] at run
  refine ⟨_, run, ?_⟩
  rw [State.core_updCore, State.core_updCore]
  exact ⟨List.mem_append_right _ (.head _), .head _, getBits_satAdd _ _ (by decide), fun _ => rfl⟩

theorem sliceWordWriteback_clears {s : State} {c : CoreId} {n : Nat} (queued : sliceBase c.val + 8 * n ∈ (s.core c).writeback)
    (plain : (s.core c).raw = false) (free : s.bankTaken c (slicePlace (8 * n)).index = false) :
    ∃ t, exec (.sliceWordWriteback c n) s = .next t ∧ sliceBase c.val + 8 * n ∉ t.flips ∧
      sliceBase c.val + 8 * n ∉ (t.core c).writeback ∧ SameMemory s t := by
  have run : exec (.sliceWordWriteback c n) s = _ :=
    if_pos (by rw [free, plain, List.contains_iff_mem.2 queued]; rfl)
  refine ⟨_, run, fun found => ?_, fun found => ?_, fun _ => rfl⟩
  · simpa using (List.mem_filter.1 found).2
  · have left := (congrArg (fun k : Core => sliceBase c.val + 8 * n ∈ k.writeback) (State.core_updCore s c (fun k =>
      { k with writeback := k.writeback.filter (· != sliceBase c.val + 8 * n) }.grant (slicePlace (8 * n)).index))).mp found
    simpa using (List.mem_filter.1 left).2

/-! ### Remote requests -/

theorem remoteSliceRequest_waits {s : State} {c : CoreId} {n requester : Nat} (bank : n < 256) (known : requester ≤ 8) (other : requester ≠ c.val)
    (first : ∀ r ∈ (s.core c).remote, ¬(r.bank = n ∧ r.requester = requester)) :
    ∃ t, exec (.remoteSliceRequest c n requester) s = .next t ∧
      (t.core c).remote = (s.core c).remote ++ [{ bank := n, requester := requester, arrived := s.now }] ∧ SameMemory s t := by
  have fresh : ¬(s.core c).remote.any (fun r => r.bank = n && r.requester = requester) = true := by
    rw [List.any_eq_true]
    rintro ⟨r, member, same⟩
    exact first r member (by simpa using same)
  have run : exec (.remoteSliceRequest c n requester) s = _ := (if_neg fresh).trans (if_pos (by simp [bank, known, other]))
  refine ⟨_, run, ?_, fun _ => rfl⟩
  rw [State.core_updCore]

/-- A choice among requests one by one that keeps the older at each, keeps the oldest. -/
theorem oldest_foldl {pick : Option RemoteReq → RemoteReq → Option RemoteReq} (first : ∀ r, pick none r = some r)
    (older : ∀ q r, (pick (some q) r = some r ∧ r.arrived ≤ q.arrived) ∨ (pick (some q) r = some q ∧ q.arrived ≤ r.arrived))
    {l : List RemoteReq} {o : Option RemoteReq} {r : RemoteReq} (chosen : l.foldl pick o = some r) :
    (r ∈ l ∨ o = some r) ∧ (∀ q ∈ l, r.arrived ≤ q.arrived) ∧ ∀ q, o = some q → r.arrived ≤ q.arrived := by
  induction l generalizing o with
  | nil => exact ⟨.inr chosen, (fun q h => by cases h), fun q h => by cases h.symm.trans chosen; exact Nat.le_refl _⟩
  | cons p l ih =>
    obtain ⟨from_, rest, start⟩ := ih chosen
    cases o with
    | none =>
      rw [first] at from_ start
      have least := start p rfl
      refine ⟨.inl (from_.elim (.tail _) fun h => by cases h; exact .head _), fun q hq => ?_, fun q h => by cases h⟩
      rcases List.mem_cons.1 hq with rfl | hq
      · exact least
      · exact rest q hq
    | some o =>
      rcases older o p with ⟨picked, le⟩ | ⟨picked, le⟩ <;> rw [picked] at from_ start
      · have least := start p rfl
        refine ⟨.inl (from_.elim (.tail _) fun h => by cases h; exact .head _), fun q hq => ?_, fun q h => by cases h; omega⟩
        rcases List.mem_cons.1 hq with rfl | hq
        · exact least
        · exact rest q hq
      · have least := start o rfl
        refine ⟨from_.imp (.tail _) id, fun q hq => ?_, fun q h => by cases h; exact least⟩
        rcases List.mem_cons.1 hq with rfl | hq
        · omega
        · exact rest q hq

/-- The request that is served next is the oldest that waits at the sub-bank (R121). -/
theorem nextRemote_oldest {l : List RemoteReq} {bank : Nat} {r : RemoteReq} (next_ : nextRemote l bank = some r) :
    r ∈ l ∧ r.bank = bank ∧ ∀ q ∈ l, q.bank = bank → r.arrived ≤ q.arrived := by
  obtain ⟨chosen, least, -⟩ := oldest_foldl (fun _ => rfl) (fun q p => by
    by_cases newer : (decide (p.arrived < q.arrived) || decide (p.arrived = q.arrived) && decide (p.requester < q.requester)) = true
    · refine .inl ⟨if_pos newer, ?_⟩
      simp only [Bool.or_eq_true, Bool.and_eq_true, decide_eq_true_eq] at newer
      omega
    · refine .inr ⟨if_neg newer, ?_⟩
      simp only [Bool.or_eq_true, Bool.and_eq_true, decide_eq_true_eq] at newer
      omega) next_
  obtain ⟨member, here⟩ := List.mem_filter.1 (chosen.resolve_right (by simp))
  exact ⟨member, of_decide_eq_true here, fun q hq same => least q (List.mem_filter.2 ⟨hq, decide_eq_true same⟩)⟩

/-- A grant that is passed on changes no sub-bank and no request. -/
theorem State.bankGranted_frame (s : State) (q : CoreId) (w : CoreId × Nat) (c : CoreId) :
    ((s.bankGranted q w).core c).remote = (s.core c).remote ∧ ((s.bankGranted q w).core c).granted = (s.core c).granted ∧
      (s.bankGranted q w).mem = s.mem := by
  have stream : ∀ (sh sec : Bool) (f : Stream → Stream), ((s.updBankStream q sh sec f).core c).remote = (s.core c).remote ∧
      ((s.updBankStream q sh sec f).core c).granted = (s.core c).granted ∧ (s.updBankStream q sh sec f).mem = s.mem := fun sh sec f => by
    unfold State.updBankStream State.updBank
    refine ⟨?_, ?_, rfl⟩
    all_goals
      by_cases same : c = q
      · subst same
        rw [State.core_updCore]
        cases sh <;> rfl
      · rw [State.core_updCore_ne s _ same]
  unfold State.bankGranted
  extract_lets k
  repeat' split
  · exact stream _ _ _
  · exact stream _ _ _
  · exact stream _ _ _
  · exact stream _ _ _
  · refine ⟨?_, ?_, rfl⟩
    all_goals
      by_cases same : c = q
      · subst same
        rw [State.core_updCore]
        unfold Core.jobGranted
        split <;> rfl
      · rw [State.core_updCore_ne s _ same]

theorem remoteRequestGrant_oldest {s : State} {c : CoreId} {n : Nat} (may : s.mayGrant c n = true) :
    ∃ t r, exec (.remoteRequestGrant c n) s = .next t ∧ r ∈ (s.core c).remote ∧ r.bank = n ∧
      (∀ q ∈ (s.core c).remote, q.bank = n → r.arrived ≤ q.arrived) ∧ (t.core c).remote = (s.core c).remote.erase r ∧
      n ∈ (t.core c).granted ∧ SameMemory s t := by
  cases next_ : nextRemote (s.core c).remote n with
  | none =>
    unfold State.mayGrant at may
    rw [next_] at may
    cases may
  | some r =>
    obtain ⟨member, bank, oldest⟩ := nextRemote_oldest next_
    generalize first : (if (s.core c).xferTakes s.now n then s.putOffTransfer c else s) = s0
    have kept : (s0.core c).remote = (s.core c).remote ∧ s0.mem = s.mem := by
      rw [← first]
      split
      · exact ⟨(congrArg Core.remote (State.core_updCore s c (fun k => { k with xferAt := k.xferAt + 1 })) :), rfl⟩
      · exact ⟨rfl, rfl⟩
    generalize taken : s0.updCore c (fun k => { k with remote := k.remote.erase r }.grant n) = s1
    have core : s1.core c = { s0.core c with remote := (s0.core c).remote.erase r }.grant n := by rw [← taken, State.core_updCore]
    have run : exec (.remoteRequestGrant c n) s = .next (if h : r.requester < 8 then s1.bankGranted ⟨r.requester, h⟩ (c, n)
        else s1.updHub (fun q => { q with hubWaits := hubGranted (c, n) q.hubWaits })) := by
      show execRemoteRequestGrant c n s = _
      unfold execRemoteRequestGrant
      simp only [next_, may, if_true, first, taken]
    refine ⟨_, r, run, member, bank, oldest, ?_⟩
    have remote : (s1.core c).remote = (s.core c).remote.erase r := by rw [core, ← kept.1]; rfl
    have granted : n ∈ (s1.core c).granted := by rw [core]; exact List.mem_append_right _ (.head _)
    have mem : s1.mem = s.mem := by rw [← taken]; exact kept.2
    split
    · next h =>
      obtain ⟨remote', granted', mem'⟩ := s1.bankGranted_frame ⟨r.requester, h⟩ (c, n) c
      exact ⟨remote'.trans remote, granted'.symm ▸ granted, fun a => congrArg (Memory.get · a) (mem'.trans mem)⟩
    · exact ⟨remote, granted, fun a => congrArg (Memory.get · a) mem⟩

theorem patrolsAndBanks : PatrolsAndBanks := by
  intro s c n
  refine ⟨fun paged sound => ⟨hbmPatrolRead_condemns paged sound, hbmPatrolRead_corrects paged sound⟩, hbmRefreshScrub_adds s c n,
    slicePatrolRead_corrects, sliceWordWriteback_clears, fun requester => remoteSliceRequest_waits, remoteRequestGrant_oldest⟩

/-- Settles O47, in its two parts. -/
theorem homesAndBanks : Obligations.HomesAndBanks := ⟨homesAnswer, patrolsAndBanks⟩

end Sys2Proof.Machine

end

section
/-! SpillsAndSlices fails: a place number sends a save area into a slice that is under raw diagnosis (R335, R411). -/

namespace Sys2Proof.Machine
open Sys2Proof.Claims

/-- A task whose areas have a number so high that its slice save area on core 2 is slice 1. -/
def Task.strayed : Task :=
  { key := 0, taskId := 0, state := .running, prio := 0, n := 1, shape := 0, rcls := 0, cores := [2], queue := none, seq := 0, slot := 0
    packet := 0, scratch := 1, order := 0, saved := [], sliced := [2], place := 7 * 2 ^ 16, started := true, protectedFrom := none
    ended := none, checkpoints := [], copying := 0, start := Ctx.reset }

/-- The first KiB of its slice is to be restored. -/
def XferPart.strayed : XferPart := { kind := .restore, task := 0, lo := 0, hi := 1 }

/-- Its transfer on core 2 is under way, while slice 1 is read raw and bit 0 of its first word is stuck at 1 (R411); memory is
all zero. -/
def State.strayed : State :=
  ({ State.reset with tasks := [Task.strayed] }.updCore 1 (fun k => { k with spdiag := 7 })).updCore 2 (fun k =>
    { k with sliceBusy := true, xfer := some [XferPart.strayed] })

theorem State.strayed_canonical : State.strayed.canonical :=
  State.updCore_canonical _ _ (State.updCore_canonical _ _ ⟨rfl, by decide⟩)

theorem State.xferStop_strayed : State.strayed.xferStop 2 .strayed = none := by decide

/-- The archivist reads the stuck bit and writes it into slice 2, where nothing is stored in slice 1. -/
theorem mem_sliceTransferEnd_strayed :
    (match exec (.sliceTransferEnd 2) State.strayed with
      | .next t => Memory.get t.mem (sliceBase 2)
      | _ => 0) = 1 := by decide

/-- Refutes O26: "restoring exactly the bytes of a task's part" fails where the place number of the task is so high that its slice
save area is no package memory but slice 1. While that slice is under raw diagnosis with a stuck bit, the restore copies the byte
as it reads, 1, and not as it is stored, 0; the clause of the save excludes such words (R411), that of the restore does not. -/
theorem not_spillsAndSlices : ¬ Obligations.SpillsAndSlices := by
  unfold Obligations.SpillsAndSlices
  rintro ⟨-, -, -, -, -, transfers, -⟩
  obtain ⟨-, parts, -⟩ := transfers State.strayed 2 rfl rfl
  obtain ⟨-, -, underWay⟩ := parts (by decide) (by decide)
  obtain ⟨-, copied⟩ := underWay .strayed [] rfl
  obtain ⟨-, restored, -⟩ := copied State.xferStop_strayed State.strayed_canonical (by decide)
  obtain ⟨t, ends, -, bytes⟩ := restored rfl
  have stuck := mem_sliceTransferEnd_strayed
  rw [ends] at stuck
  have stored : Memory.get t.mem (sliceBase 2) = 0 := (bytes (sliceBase 2)).trans (by decide)
  exact absurd (stored.symm.trans stuck) (by decide)

end Sys2Proof.Machine
end

section
/-! Jobs in the scheduler of a core: where a job is found, and how it starts (R91, R104, R114). -/

namespace Sys2Proof.Machine

open Sys2Proof.Claims

/-! ### Jobs of a context -/

theorem Ctx.id_of_findJob {x : Ctx} {id : Nat} {j : Job} (found : x.findJob id = some j) : j.id = id := by
  unfold Ctx.findJob at found
  exact of_decide_eq_true (List.find?_some found :)

/-- A change that keeps the numbers of jobs changes the job that is found. -/
theorem Ctx.findJob_updJob {x : Ctx} {id : Nat} {j : Job} (found : x.findJob id = some j) {f : Job → Job} (keeps : ∀ k, (f k).id = k.id) :
    (x.updJob id f).findJob id = some (f j) := by
  have same : (fun k : Job => decide (k.id = id)) ∘ (fun k => if k.id = id then f k else k) = fun k => decide (k.id = id) := by
    funext k
    by_cases here : k.id = id <;> simp [here, keeps]
  unfold Ctx.findJob Ctx.updJob
  rw [List.find?_map, same]
  refine (congrArg (Option.map _) found).trans ?_
  rw [Option.map_some, if_pos (Ctx.id_of_findJob found)]

/-! ### Jobs of a live context -/

/-- A job is the one of its number in the live context of a core, and no copy of a packet has its number (R91, R323). -/
structure State.RunsJob (s : State) (c : CoreId) (j : Job) : Prop where
  found : (s.ctx c).findJob j.id = some j
  packet : (s.core c).packetJob j.id = none

theorem State.findJob_live {s : State} {c : CoreId} {j : Job} (found : (s.ctx c).findJob j.id = some j) :
    s.findJob c j.id = some (some (s.ctx c), j) := by
  have first : s.jobCtx c j.id = some (s.ctx c) := List.find?_cons_of_pos (by exact Option.isSome_of_eq_some found)
  unfold State.findJob
  rw [first, Option.bind_some, found]
  rfl

theorem State.updJobCtx_live {s : State} {c : CoreId} {id : Nat} (found : ((s.ctx c).findJob id).isSome = true) (f : Ctx → Ctx) :
    s.updJobCtx c id f = s.updCtx c f := if_pos found

theorem State.updJob_live {s : State} {c : CoreId} {j : Job} (runs : s.RunsJob c j) (f : Job → Job) :
    s.updJob c j.id f = s.updCtx c (fun x => x.updJob j.id f) := by
  have other : ((s.core c).packetJob j.id).isSome = false := by rw [runs.packet]; rfl
  unfold State.updJob
  rw [other]
  exact State.updJobCtx_live (Option.isSome_of_eq_some runs.found) _

/-- A change of a job's record is the change of the job that runs. -/
theorem State.RunsJob.updJob {s : State} {c : CoreId} {j : Job} (runs : s.RunsJob c j) {f : Job → Job} (keeps : ∀ k, (f k).id = k.id) :
    (s.updCtx c (fun x => x.updJob j.id f)).RunsJob c (f j) where
  found := by
    rw [State.ctx_updCtx, keeps]
    exact Ctx.findJob_updJob runs.found keeps
  packet := by
    rw [State.core_updCtx, keeps]
    exact runs.packet

/-- What leaves the cores alone leaves their jobs. -/
theorem State.RunsJob.of_cores {s t : State} {c : CoreId} {j : Job} (runs : s.RunsJob c j) (cores : t.cores = s.cores) : t.RunsJob c j := by
  have core : t.core c = s.core c := by unfold State.core; rw [cores]
  exact ⟨by rw [State.ctx, core]; exact runs.found, by rw [core]; exact runs.packet⟩

/-! ### The requests of a line -/

theorem State.awaitLinks_only (s : State) (c : CoreId) (id : Nat) (as : List Nat) :
    ∃ l, s.awaitLinks c id as = { s with agenda := s.agenda ++ l } := by
  have later : ∀ (t : State) (b : Bool) (i : Instr),
      ∃ l, (if b then t.afterN accessLimit i else t) = { t with agenda := t.agenda ++ l } := fun t b i => by
    cases b
    · exact ⟨[], by rw [List.append_nil]; rfl⟩
    · exact ⟨_, rfl⟩
  obtain ⟨l, host⟩ := later s (onHost as) (.hostCompletionTimeout c id)
  obtain ⟨k, peer⟩ := later { s with agenda := s.agenda ++ l } (onPeer as) (.peerAccessTimeout c id)
  refine ⟨l ++ k, ?_⟩
  unfold State.awaitLinks
  rw [host, ← List.append_assoc]
  exact peer

/-- The requests of a job's next line are dated, and its completion is under way (R85, R91). -/
theorem State.sendLine_live {s : State} {c : CoreId} {j : Job} (runs : s.RunsJob c j) {k : Job} (same : k.id = j.id) :
    (s.sendLine c k).RunsJob c { j with sentAt := s.now, waits := none } ∧ UnderWay (s.sendLine c k) (.jobComplete c j.id) ∧
      (s.sendLine c k).mem = s.mem ∧
      (s.sendLine c k).ctx c = (s.ctx c).updJob j.id (fun q => { q with sentAt := s.now, waits := none }) := by
  let s1 := (s.cancelEvent (.hostCompletionTimeout c k.id)).cancelEvent (.peerAccessTimeout c k.id)
  let dated : Job → Job := fun q => { q with sentAt := s.now, waits := none }
  let s2 := s1.updCtx c (fun x => x.updJob j.id dated)
  have runs1 : s1.RunsJob c j := runs.of_cores rfl
  obtain ⟨l, awaits⟩ := (s2.after (.jobComplete c j.id)).awaitLinks_only c j.id k.ends
  have sent : s.sendLine c k = { s2.after (.jobComplete c j.id) with agenda := (s2.after (.jobComplete c j.id)).agenda ++ l } := by
    have change : s1.updJob c k.id dated = s2 := same ▸ State.updJob_live runs1 dated
    show ((s1.updJob c k.id dated).after (.jobComplete c k.id)).awaitLinks c k.id k.ends = _
    rw [change, same]
    exact awaits
  rw [sent]
  have runs2 : s2.RunsJob c (dated j) := runs1.updJob (f := dated) (fun _ => rfl)
  obtain ⟨n, due, later⟩ := s2.underWay_after (.jobComplete c j.id)
  exact ⟨runs2.of_cores rfl, ⟨n, List.mem_append_left _ due, later⟩, rfl, s1.ctx_updCtx c _⟩

/-! ### The start of a job -/

/-- A job that may start is the first of its number among those that may. -/
theorem State.readyJobs_find {s : State} {c : CoreId} {j : Job} (found : (s.ctx c).findJob j.id = some j) (live : (s.core c).live = true)
    (swapped : (s.core c).swapEnd ≤ s.now) (slice : (s.core c).sliceBusy = false) (ready : (s.ctx c).jobReady j = true)
    (may : (j.depFailed || (s.freeEngine c).isSome) = true) : (s.readyJobs c).find? (fun k => k.id = j.id) = some j := by
  have running : (s.core c).live && decide ((s.core c).swapEnd ≤ s.now) && !(s.core c).sliceBusy := by simp [live, swapped, slice]
  have own : ((s.ctx c).jobs.filter (fun k => (s.ctx c).jobReady k && (k.depFailed || (s.freeEngine c).isSome))).find?
      (fun k => k.id = j.id) = some j := by
    unfold Ctx.findJob at found
    obtain ⟨here, before, after, split, none⟩ := List.find?_eq_some_iff_append.1 found
    rw [List.find?_filter, List.find?_eq_some_iff_append]
    exact ⟨by simp [ready, may], before, after, split, fun k hk => by have := none k hk; simp_all⟩
  unfold State.readyJobs State.engineCtxs
  extract_lets free k
  rw [if_pos running, List.append_assoc, List.singleton_append, List.flatMap_cons, List.append_assoc, List.find?_append]
  exact congrArg (Option.or · _) own

theorem Ctx.jobReady_of {x : Ctx} {j : Job} (waiting : j.started = false) (engine : j.kind.needsEngine = true) (edges : j.edges = [])
    (stores : ∀ o ∈ (x.stream j.sec).ops, o.id ∉ j.stores) : x.jobReady j = true := by
  have applied : (x.stream j.sec).ops.any (fun o => j.stores.contains o.id) = false := by simpa using stores
  unfold Ctx.jobReady
  rw [waiting, engine, edges, applied]
  rfl

theorem jobsStart : JobsStart := by
  intro s c j found packet live swapped slice waiting engine edges stores
  have runs : s.RunsJob c j := ⟨found, packet⟩
  have ready := Ctx.jobReady_of (x := s.ctx c) waiting engine edges stores
  have first := State.readyJobs_find found live swapped slice ready
  refine ⟨fun sound e free => ?_, fun failed => ?_⟩
  · have starts : exec (.jobStart c j.id) s =
        .next ((s.updCtx c (fun x => x.updJob j.id (fun k => { k with started := true, engine := some e }))).sendLine c j) := by
      show execJobStart c j.id s = _
      unfold execJobStart
      rw [first (by simp [free])]
      simp only [sound, Bool.false_eq_true, if_false, free, State.updJob_live runs]
    have begun := runs.updJob (f := fun k => { k with started := true, engine := some e }) (fun _ => rfl)
    obtain ⟨sent, due, mem, -⟩ := State.sendLine_live begun (k := j) rfl
    exact ⟨_, starts, due, sent.found, fun a => congrArg (Memory.get · a) mem⟩
  · have fails : exec (.jobStart c j.id) s =
        .next ((s.updCtx c (fun x => x.updJob j.id (fun k => { k with started := true, kind := .settled 9 0 }))).afterN 1
          (.jobComplete c j.id)) := by
      show execJobStart c j.id s = _
      unfold execJobStart
      rw [first (by simp [failed])]
      simp only [failed, if_true, State.updJob_live runs]
    have ended := runs.updJob (f := fun k => { k with started := true, kind := .settled 9 0 }) (fun _ => rfl)
    exact ⟨_, fails, List.mem_append_right _ (.head _), ended.found, fun _ => rfl⟩

end Sys2Proof.Machine
end

section
/-! The end of a job in its context, and the write of its last line (R91, R95, R98, R104). -/

namespace Sys2Proof.Machine

open Sys2Proof.Claims

/-! ### What a job leaves in its context -/

/-- A context without its jobs and what a write reaches: what the events of a job leave alone before its end. -/
def Ctx.besideJobs (x : Ctx) : Ctx := { x.offMemory with jobs := [] }

theorem Ctx.besideJobs_of_offMemory {x y : Ctx} (h : y.offMemory = x.offMemory) : y.besideJobs = x.besideJobs := by
  unfold Ctx.besideJobs
  rw [h]

theorem Ctx.besideJobs_updJob (x : Ctx) (id : Nat) (f : Job → Job) : (x.updJob id f).besideJobs = x.besideJobs := rfl

theorem Ctx.besideJobs_stream {x y : Ctx} (h : y.besideJobs = x.besideJobs) (sec : Bool) : (y.stream sec).offMemory = (x.stream sec).offMemory := by
  rw [← Ctx.offMemory_stream, ← Ctx.offMemory_stream]
  cases sec
  · exact (congrArg Ctx.prim h :)
  · exact (congrArg Ctx.sec h :)

/-- Of the contexts x before and y after, the job has ended with the status: its tag is DONE and free, cp has fallen, and no edge
from it is left (R95, R104). -/
structure Ctx.JobEnded (x y : Ctx) (j : Job) (status : Nat) : Prop where
  tags : y.tags = x.tags ||| BitVec.ofNat 64 (2 ^ j.tag.toNat)
  busy : y.tagBusy = x.tagBusy &&& ~~~BitVec.ofNat 64 (2 ^ j.tag.toNat)
  status : y.tagStatus[j.tag.toNat] = BitVec.ofNat 4 status
  cp : (y.stream j.sec).cp = fell (x.stream j.sec) j.id (x.stream j.sec).cp
  gone : ∀ k ∈ y.jobs, k.id ≠ j.id ∧ ∀ e ∈ k.edges, e.1 ≠ j.id

theorem Ctx.jobEnded_endJob {x y : Ctx} (beside : y.besideJobs = x.besideJobs) (j : Job) (status : Nat) (va : Word) (ws : List OwnWrite) :
    x.JobEnded (y.endJob j status va ws) j status where
  tags := (congrArg (fun z : Ctx => z.tags ||| tagBit j.tag) beside :)
  busy := (congrArg (fun z : Ctx => z.tagBusy &&& ~~~tagBit j.tag) beside :)
  status := Vector.getElem_set_self ..
  cp := by
    have stream := Ctx.besideJobs_stream beside j.sec
    have cp : (y.stream j.sec).cp = (x.stream j.sec).cp := (congrArg Stream.cp stream :)
    have base : (y.stream j.sec).opBase = (x.stream j.sec).opBase := (congrArg Stream.opBase stream :)
    have ends : ((y.endJob j status va ws).stream j.sec) =
        { y.stream j.sec with cp := fell (y.stream j.sec) j.id (y.stream j.sec).cp } :=
      y.stream_updStream j.sec (fun t => { t with cp := fell t j.id t.cp })
    rw [ends]
    show fell _ _ _ = _
    unfold fell
    rw [cp, base]
  gone k hk := by
    obtain ⟨q, hq, rfl⟩ := List.mem_map.1 hk
    have other : q.id ≠ j.id := of_decide_eq_true (List.mem_filter.1 hq).2
    split
    · exact ⟨other, fun e he => of_decide_eq_true (List.mem_filter.1 he).2⟩
    · next none => exact ⟨other, fun e he same => none (List.any_eq_true.2 ⟨e, he, decide_eq_true same⟩)⟩

theorem Ctx.cperr_endJob {x y : Ctx} (beside : y.besideJobs = x.besideJobs) (j : Job) (status : Nat) (va : Word) (ws : List OwnWrite) :
    (y.endJob j status va ws).cperr = cperrAfter x.cperr j.tag status va :=
  (congrArg (fun z : Ctx => cperrAfter z.cperr j.tag status va) beside :)

/-! ### The last line -/

/-- A job that ends with its last writes: they are applied, and then it ends in the live context. -/
theorem State.finishJob_live {s : State} {c : CoreId} {j : Job} (found : ((s.ctx c).findJob j.id).isSome = true) (x : Ctx) (status : Nat)
    (va : Word) (out : List (Nat × Byte)) :
    ∃ (y : Ctx) (ws : List OwnWrite), y.besideJobs = (s.ctx c).besideJobs ∧ (s.finishJob c x j status va out).ctx c = y.endJob j status va ws ∧
      (s.finishJob c x j status va out).mem = (s.agentWrite (x.writer c j.sec) out j.nt).mem := by
  have off := s.agentWrite_offMemory (x.writer c j.sec) out j.nt
  unfold State.finishJob
  extract_lets s1
  have same : (s1.ctx c).offMemory = (s.ctx c).offMemory := (congrArg Core.ctx (State.offMemory_core off c) :)
  have jobs : (s1.ctx c).jobs = (s.ctx c).jobs := (congrArg Ctx.jobs same :)
  have still : ((s1.ctx c).findJob j.id).isSome = true := by
    unfold Ctx.findJob at found ⊢
    rw [jobs]
    exact found
  rw [State.updJobCtx_live still]
  exact ⟨s1.ctx c, _, Ctx.besideJobs_of_offMemory same, s1.ctx_updCtx c _, rfl⟩

/-! ### A job that is settled at its issue -/

theorem exec_jobComplete_settled {s : State} {c : CoreId} {j : Job} {status : Nat} {addr : Word} (found : (s.ctx c).findJob j.id = some j)
    (kind : j.kind = .settled status addr) : exec (.jobComplete c j.id) s = .next (s.finishJob c (s.ctx c) j status addr []) := by
  show execJobComplete c j.id s = _
  unfold execJobComplete
  rw [State.findJob_live found]
  simp only [kind]

theorem jobComplete_settled {s : State} {c : CoreId} {j : Job} {status : Nat} {addr : Word} (found : (s.ctx c).findJob j.id = some j)
    (kind : j.kind = .settled status addr) :
    ∃ t, exec (.jobComplete c j.id) s = .next t ∧ (s.ctx c).JobEnded (t.ctx c) j status ∧ SameMemory s t ∧
      (t.ctx c).cperr = cperrAfter (s.ctx c).cperr j.tag status addr := by
  obtain ⟨y, ws, beside, ctx, mem⟩ := State.finishJob_live (Option.isSome_of_eq_some found) (s.ctx c) status addr []
  refine ⟨_, exec_jobComplete_settled found kind, ?_, fun a => congrArg (Memory.get · a) mem, ?_⟩
  · rw [ctx]
    exact Ctx.jobEnded_endJob beside ..
  · rw [ctx]
    exact Ctx.cperr_endJob beside ..

theorem cperrAfter_eq (old : Word) (tag : BitVec 6) (status : Nat) (va : Word) : cperrAfter old tag status va =
    if 2 ≤ status ∧ status ≤ 8 ∧ old.getLsbD 63 = false then 1#1 ++ tag ++ va.extractLsb' 0 57 else old := by
  unfold cperrAfter
  simp only [Bool.and_eq_true, decide_eq_true_eq, Bool.not_eq_true', and_assoc]

end Sys2Proof.Machine
end

section
/-! A plain copy between slices: what it reads and writes of one destination line (R91, R102, R123, R304). -/

namespace Sys2Proof.Machine

open Sys2Proof.Claims

/-! ### Bytes of slices -/

theorem slice_lt {a k : Nat} (slice : regionOf a = .slice k) : a < 0x4000000000000 := by
  by_contra beyond
  unfold regionOf at slice
  rw [if_neg (by omega), if_neg (by omega), if_neg (by omega), if_neg (by omega)] at slice
  dsimp only at slice
  repeat' split at slice
  all_goals simp at slice

theorem State.place_slice (s : State) {a k : Nat} (slice : regionOf a = .slice k) : s.place a = a :=
  s.place_below (by have := slice_lt slice; omega)

/-- A byte of a slice that is read as it is, in a word without error (R123, R411). -/
structure State.CleanByte (s : State) (k a : Nat) : Prop where
  slice : regionOf a = .slice k
  diag : s.spdiagOf a = 0
  poison : unitOf a ∉ s.poison
  fatal : unitOf a ∉ s.fatals

theorem State.CleanByte.sound {s : State} {k a : Nat} (clean : s.CleanByte k a) : s.Sound (unitOf a) := fun _ _ =>
  ⟨(s.spdiagOf_unitOf a).trans clean.diag, clean.poison, clean.fatal⟩

/-- Reads that find no error have led from s to t: memory and its errors are as before (R123). -/
structure State.Unharmed (s t : State) : Prop where
  off : t.offMemory = s.offMemory
  mem : t.mem = s.mem
  poison : t.poison = s.poison
  fatals : t.fatals = s.fatals

theorem State.Unharmed.refl (s : State) : s.Unharmed s := ⟨rfl, rfl, rfl, rfl⟩

theorem State.Unharmed.trans {s t u : State} (h : s.Unharmed t) (k : t.Unharmed u) : s.Unharmed u :=
  ⟨k.off.trans h.off, k.mem.trans h.mem, k.poison.trans h.poison, k.fatals.trans h.fatals⟩

theorem State.Unharmed.withHomes (s : State) (x : Vector Home 8) : s.Unharmed (s.withHomes x) := ⟨rfl, rfl, rfl, rfl⟩

theorem State.CleanByte.of_unharmed {s t : State} {k a : Nat} (clean : s.CleanByte k a) (same : s.Unharmed t) : t.CleanByte k a :=
  ⟨clean.slice, (State.offMemory_spdiagOf same.off a).trans clean.diag, same.poison ▸ clean.poison, same.fatals ▸ clean.fatal⟩

theorem State.readLogs_homes (s : State) (snap : Nat) (as : List Nat) : ∃ x, s.readLogs snap as = s.withHomes x :=
  foldl_homes (fun _ _ => ⟨_, rfl⟩) _ s

theorem State.CleanByte.noteReads {s : State} {k a : Nat} (clean : s.CleanByte k a) : s.Unharmed (s.noteReads [a]) := by
  have one : s.noteReads [a] = s.noteWord (unitOf a) := by
    show (unitsOf [s.place a]).foldl State.noteUnit s = _
    rw [s.place_slice clean.slice]
    show s.noteUnit (unitOf a) = _
    unfold State.noteUnit
    rw [regionOf_unitOf, clean.slice]
  obtain ⟨poison, fatals⟩ := State.noteWord_sound ((s.spdiagOf_unitOf a).trans clean.diag) clean.fatal
  exact ⟨s.noteReads_offMemory _, s.noteReads_mem _, one ▸ poison, one ▸ fatals⟩

/-- No copy of a slice exists, so its bytes are served where they lie (R68). -/
theorem State.servedAt_slice (s : State) (c : CoreId) (rep : Bool) {a k : Nat} (slice : regionOf a = .slice k) : s.servedAt c rep a = a := by
  have none : s.rmask a = 0 := by
    unfold State.rmask
    rw [slice]
  unfold State.servedAt State.servingHome
  simp [s.place_slice slice, none]

theorem State.CleanByte.poisoned_eq {s : State} {k a : Nat} (clean : s.CleanByte k a) : s.poisoned a = false := by
  have up : s.linkUp (regionOf a) = true := by rw [clean.slice]; rfl
  have sound : s.poison.contains (unitOf a) = false := by simpa using clean.poison
  unfold State.poisoned
  rw [s.place_slice clean.slice, up, sound]
  rfl

theorem State.CleanByte.plainByte_eq {s : State} {k a : Nat} (clean : s.CleanByte k a) (snap : Nat) (own : List (Nat × Byte)) :
    s.plainByte snap own a = Memory.get s.mem a := by
  unfold State.plainByte State.byteNow
  extract_lets b here d noise
  have diag : d = 0 := (congrArg s.spdiagOf (s.place_slice clean.slice)).trans clean.diag
  have unlogged : logged (regionOf b) = false := by
    show logged (regionOf (s.place a)) = false
    rw [s.place_slice clean.slice, clean.slice]
    rfl
  rw [unlogged, diag]
  exact congrArg (Memory.get s.mem) (s.place_slice clean.slice)

/-! ### One byte of a job -/

theorem JobRun.touch_slice (r : JobRun) {ia k : Nat} (slice : regionOf ia = .slice k) (z : Bool) : r.touch ia z = (r, true) := by
  unfold JobRun.touch
  rw [slice]
  rfl

theorem JobRun.timedOut_none {r : JobRun} (late : r.late = none) (ia : Nat) : r.timedOut ia = false := by
  unfold JobRun.timedOut
  rw [late]

/-- A job that goes on reads a clean byte as it is stored. -/
theorem JobRun.read_clean {r : JobRun} {k ia : Nat} (clean : r.s.CleanByte k ia) (going : r.stop = none) (late : r.late = none) (v : JobView)
    (e : Extent) (va : Word) :
    ∃ t, r.s.Unharmed t ∧ r.read v e ia va = ({ r with s := t, unit := some (unitOf ia), seen := ia :: r.seen }, Memory.get r.s.mem ia) := by
  have noted := clean.noteReads
  obtain ⟨x, touched⟩ := (r.s.noteReads [ia]).cacheTouch_homes (r.s.servingHome v.core (r.s.place ia) (attrRep e.attr)) ia (v.nt || attrNt e.attr)
  obtain ⟨y, logs⟩ := ((r.s.noteReads [ia]).withHomes x).readLogs_homes v.snap [ia]
  let t := if r.unit = some (unitOf ia) then r.s else ((r.s.noteReads [ia]).withHomes x).withHomes y
  have unharmed : r.s.Unharmed t := by
    unfold t
    split
    · exact .refl _
    · exact noted.trans ((State.Unharmed.withHomes _ x).trans (.withHomes _ y))
  have after := clean.of_unharmed unharmed
  refine ⟨t, unharmed, ?_⟩
  unfold JobRun.read
  rw [r.touch_slice clean.slice, JobRun.timedOut_none late]
  simp only [going, Option.isSome_none, Bool.not_true, Bool.false_eq_true, if_false, r.s.servedAt_slice v.core _ clean.slice, touched, logs]
  rw [show (if r.unit = some (unitOf ia) then r.s else ((r.s.noteReads [ia]).withHomes x).withHomes y) = t from rfl, after.poisoned_eq,
    if_neg Bool.false_ne_true, after.plainByte_eq, unharmed.mem]

theorem JobRun.write_slice {r : JobRun} {ia k : Nat} (slice : regionOf ia = .slice k) (going : r.stop = none) (late : r.late = none)
    (e : Extent) (va : Word) (b : Byte) : r.write e ia va b = { r with out := (ia, b) :: r.out } := by
  have up : r.s.linkUp (regionOf ia) = true := by rw [slice]; rfl
  unfold JobRun.write
  rw [r.touch_slice slice, JobRun.timedOut_none late]
  simp [going, up]

/-! ### One line of a plain copy -/

/-- Consecutive bytes with the values that stand at others. -/
def copiedBytes (m : Table Byte) (src dst n : Nat) : List (Nat × Byte) := (List.range n).map (fun i => (dst + i, Memory.get m (src + i)))

theorem copiedBytes_succ (m : Table Byte) (src dst n : Nat) :
    copiedBytes m src dst (n + 1) = copiedBytes m src dst n ++ [(dst + n, Memory.get m (src + n))] := by
  unfold copiedBytes
  rw [List.range_succ, List.map_append, List.map_singleton]

theorem addrs_succ (ia n : Nat) : addrs ia (n + 1) = addrs ia n ++ [ia + n] := by
  unfold addrs
  rw [List.range_succ, List.map_append, List.map_singleton]

theorem copiedBytes_addrs (m : Table Byte) (src dst n : Nat) : (copiedBytes m src dst n).map (·.1) = addrs dst n := by
  unfold copiedBytes addrs
  rw [List.map_map]
  rfl

theorem mem_copiedBytes {m : Table Byte} {src dst n : Nat} {p : Nat × Byte} (h : p ∈ copiedBytes m src dst n) : p.1 ∈ addrs dst n :=
  copiedBytes_addrs m src dst n ▸ List.mem_map_of_mem h

/-- A run has read n bytes from src on, and is to write them from dst on. -/
structure JobRun.Copied (s : State) (src dst n : Nat) (r : JobRun) : Prop where
  same : s.Unharmed r.s
  out : r.out = (copiedBytes s.mem src dst n).reverse
  seen : r.seen = (addrs src n).reverse
  going : r.stop = none
  late : r.late = none
  table : r.table = none

theorem JobRun.Copied.start (s : State) (src dst : Nat) : JobRun.Copied s src dst 0 { JobRun.start s with late := none } :=
  ⟨.refl s, rfl, rfl, rfl, rfl, rfl⟩

/-- A copy of one row moves its bytes in order, source and destination from their first addresses on. -/
theorem copyAddrs_row (sva dva : Word) {len n : Nat} (inside : n < len) (ss ds : Int) :
    copyAddrs sva dva len ss ds n = (sva + BitVec.ofNat 64 n, dva + BitVec.ofNat 64 n) := by
  unfold copyAddrs
  rw [Nat.div_eq_of_lt inside, Nat.mod_eq_of_lt inside]
  simp

theorem Extent.iaOf_add (e : Extent) {n : Nat} (small : n < 2 ^ 64) : e.iaOf (e.va + BitVec.ofNat 64 n) = e.ia + n := by
  unfold Extent.iaOf
  rw [BitVec.add_comm, BitVec.add_sub_cancel, BitVec.toNat_ofNat, Nat.mod_eq_of_lt small]

theorem line_add_eq (x : Word) {i : Nat} (inside : i < 64 - x.toNat % 64) : (x + BitVec.ofNat 64 i).toNat / 64 = x.toNat / 64 := by
  have := x.isLt
  rw [BitVec.toNat_add, BitVec.toNat_ofNat]
  omega

/-- The next line begins where this one ends, at the end of the address space too. -/
theorem line_add_ne (x : Word) {i : Nat} (next_ : i = 64 - x.toNat % 64) : (x + BitVec.ofNat 64 i).toNat / 64 ≠ x.toNat / 64 := by
  have := x.isLt
  rw [BitVec.toNat_add, BitVec.toNat_ofNat]
  omega

section Row

variable {s : State} {a b : Extent} {ss ds : Int} {d k l : Nat}

/-- One more byte of a row. -/
theorem JobRun.Copied.unit {m : Nat} {r : JobRun} (copied : JobRun.Copied s (a.ia + d) (b.ia + d) m r) (inside : d + m < a.len)
    (small : a.len ≤ 2 ^ 28) (clean : s.CleanByte k (a.ia + d + m)) (slice : regionOf (b.ia + d + m) = .slice l) (v : JobView) :
    JobRun.Copied s (a.ia + d) (b.ia + d) (m + 1) (copyUnit v a b a.va b.va a.len ss ds false (d + m) r) := by
  have src : a.iaOf (a.va + BitVec.ofNat 64 (d + m)) = a.ia + d + m := by rw [a.iaOf_add (by omega), Nat.add_assoc]
  have dst : b.iaOf (b.va + BitVec.ofNat 64 (d + m)) = b.ia + d + m := by rw [b.iaOf_add (by omega), Nat.add_assoc]
  obtain ⟨t, unharmed, read⟩ := JobRun.read_clean (clean.of_unharmed copied.same) copied.going copied.late v a (a.va + BitVec.ofNat 64 (d + m))
  have wrote := JobRun.write_slice (r := { r with s := t, unit := some (unitOf (a.ia + d + m)), seen := (a.ia + d + m) :: r.seen })
    slice copied.going copied.late b (b.va + BitVec.ofNat 64 (d + m)) (Memory.get r.s.mem (a.ia + d + m))
  unfold copyUnit
  rw [copyAddrs_row _ _ inside]
  simp only [Bool.false_eq_true, if_false, src, dst, read, wrote]
  exact ⟨copied.same.trans unharmed, by simp [copiedBytes_succ, copied.out, copied.same.mem], by simp [addrs_succ, copied.seen],
    copied.going, copied.late, copied.table⟩

/-- The bytes of a row that its destination line still takes from byte d on. -/
def lineRest (a b : Extent) (d : Nat) : Nat := Nat.min (a.len - d) (64 - (b.va + BitVec.ofNat 64 d).toNat % 64)

theorem line_rest_eq {m : Nat} (h : m < lineRest a b d) : (b.va + BitVec.ofNat 64 (d + m)).toNat / 64 = (b.va + BitVec.ofNat 64 d).toNat / 64 := by
  rw [BitVec.ofNat_add, ← BitVec.add_assoc]
  exact line_add_eq _ (Nat.lt_of_lt_of_le h (Nat.min_le_right ..))

theorem line_rest_ne (h : d + lineRest a b d < a.len) :
    (b.va + BitVec.ofNat 64 (d + lineRest a b d)).toNat / 64 ≠ (b.va + BitVec.ofNat 64 d).toNat / 64 := by
  have short : lineRest a b d = 64 - (b.va + BitVec.ofNat 64 d).toNat % 64 := by
    rcases Nat.le_total (a.len - d) (64 - (b.va + BitVec.ofNat 64 d).toNat % 64) with ends | goes
    · have row : lineRest a b d = a.len - d := Nat.min_eq_left ends
      omega
    · exact Nat.min_eq_right goes
  rw [BitVec.ofNat_add, ← BitVec.add_assoc]
  exact line_add_ne _ short

/-- The cursor moves on by one unit. -/
theorem JobKind.unit_copy (v : JobView) (codes : List (Nat × Nat × Nat)) (u : JobCursor) (r : JobRun) :
    (JobKind.copy a b a.va b.va a.len 1 ss ds false).unit v codes u r =
      (copyUnit v a b a.va b.va a.len ss ds false u.done r, { u with done := u.done + 1 }) := rfl

/-- A row is copied to the end of its destination line, and no further. -/
theorem JobKind.runFrom_copy (small : a.len ≤ 2 ^ 28) (clean : ∀ i < lineRest a b d, s.CleanByte k (a.ia + d + i))
    (slice : ∀ i < lineRest a b d, regionOf (b.ia + d + i) = .slice l) (v : JobView) (codes : List (Nat × Nat × Nat)) (fuel m : Nat)
    (line : Option Nat) (u : JobCursor) (r : JobRun) (done : u.done = d + m) (enough : fuel = a.len - u.done) (within : m ≤ lineRest a b d)
    (here : line = some ((b.va + BitVec.ofNat 64 d).toNat / 64) ∨ line = none ∧ m < lineRest a b d)
    (copied : JobRun.Copied s (a.ia + d) (b.ia + d) m r) :
    JobRun.Copied s (a.ia + d) (b.ia + d) (lineRest a b d) ((JobKind.copy a b a.va b.va a.len 1 ss ds false).runFrom v codes fuel line u r).1 ∧
      ((JobKind.copy a b a.va b.va a.len 1 ss ds false).runFrom v codes fuel line u r).2.done = d + lineRest a b d := by
  have bound : lineRest a b d ≤ a.len - d := Nat.min_le_left ..
  induction fuel generalizing m line u r with
  | zero =>
    have full : m = lineRest a b d := by omega
    exact full ▸ ⟨copied, done⟩
  | succ fuel ih =>
    have inside : u.done < a.len := by omega
    have at_ : (JobKind.copy a b a.va b.va a.len 1 ss ds false).lineAt u = (b.va + BitVec.ofNat 64 (d + m)).toNat / 64 := by
      show (copyAddrs a.va b.va a.len ss ds u.done).2.toNat / 64 = _
      rw [copyAddrs_row _ _ inside, done]
    have ready : (JobKind.copy a b a.va b.va a.len 1 ss ds false).prepare v u r = (r, u) := rfl
    unfold JobKind.runFrom
    rw [ready]
    dsimp only
    rw [at_]
    rcases Nat.lt_or_eq_of_le within with more | full
    · have same := line_rest_eq more
      have on : ¬((r.stop.isSome || (line.isSome && line ≠ some ((b.va + BitVec.ofNat 64 (d + m)).toNat / 64))) = true) := by
        rw [same]
        rcases here with rfl | ⟨rfl, -⟩ <;> simp [copied.going]
      have next_ := copied.unit (ss := ss) (ds := ds) (by omega) small (clean m more) (slice m more) v
      rw [if_neg on, JobKind.unit_copy, done]
      dsimp only
      rw [if_neg (by rw [next_.going]; decide)]
      exact ih (m + 1) _ _ _ rfl (by dsimp only; omega) more (.inl (by rw [same])) next_
    · have stops : (r.stop.isSome || (line.isSome && line ≠ some ((b.va + BitVec.ofNat 64 (d + m)).toNat / 64))) = true := by
        have other := line_rest_ne (a := a) (b := b) (d := d) (by omega)
        rcases here with rfl | ⟨-, more⟩
        · simpa [full] using Or.inr (Ne.symm other)
        · omega
      rw [if_pos stops]
      exact full ▸ ⟨copied, done⟩

end Row

end Sys2Proof.Machine
end

section
/-! The line of a copy job applied: the sub-banks that it takes, its write, and how the job goes on (R91, R95, R115, R118, R121). -/

namespace Sys2Proof.Machine

open Sys2Proof.Claims

/-! ### The sub-banks of a line -/

def Core.ungranted (k : Core) : Core := { k with granted := [] }

/-- A state without the grants of sub-banks and the events under way: what taking sub-banks leaves of it (R118, R121). -/
def State.offBanks (s : State) : State := { s with agenda := [], delays := [], cores := s.cores.map Core.ungranted }

theorem State.core_offBanks {s t : State} (h : t.offBanks = s.offBanks) (c : CoreId) : (t.core c).ungranted = (s.core c).ungranted := by
  have map : ∀ u : State, u.offBanks.core c = (u.core c).ungranted := fun u => by simp [State.core, State.offBanks]
  rw [← map, h, map]

theorem State.offBanks_grant (s : State) (c : CoreId) (bank : Nat) : (s.updCore c (fun k => k.grant bank)).offBanks = s.offBanks := by
  have cores : (s.cores.set c.val ((s.cores[c.val]).grant bank) c.isLt).map Core.ungranted = s.cores.map Core.ungranted := by
    ext i hi
    simp only [Vector.getElem_map, Vector.getElem_set]
    split
    · next same => subst same; rfl
    · rfl
  unfold State.offBanks State.updCore
  rw [cores]

theorem State.takeBanks_offBanks (s : State) (lslot : Bool) (ws : List (CoreId × Nat)) : (s.takeBanks lslot ws).1.offBanks = s.offBanks :=
  foldl_view (fun q : State × List (CoreId × Nat) => q.1.offBanks) (fun q w => by
    have taken : ∀ held : Bool,
        (if held then (q.1, q.2 ++ [w]) else (q.1.updCore w.1 (fun k => k.grant w.2), q.2)).1.offBanks = q.1.offBanks := fun held => by
      cases held
      · exact q.1.offBanks_grant w.1 w.2
      · rfl
    exact taken _) ws (s, [])

theorem State.RunsJob.of_core {s t : State} {c : CoreId} {j : Job} (runs : s.RunsJob c j) (jobs : (t.ctx c).jobs = (s.ctx c).jobs)
    (copies : (t.core c).packetJobs = (s.core c).packetJobs) : t.RunsJob c j := by
  obtain ⟨found, packet⟩ := runs
  unfold Ctx.findJob at found
  unfold Core.packetJob at packet
  exact ⟨by unfold Ctx.findJob; rw [jobs]; exact found, by unfold Core.packetJob; rw [copies]; exact packet⟩

theorem State.RunsJob.of_offMemory {s t : State} {c : CoreId} {j : Job} (runs : s.RunsJob c j) (off : t.offMemory = s.offMemory) : t.RunsJob c j := by
  have core := State.offMemory_core off c
  exact runs.of_core (congrArg (fun k : Core => k.ctx.jobs) core :) (congrArg Core.packetJobs core :)

theorem State.besideJobs_of_offMemory {s t : State} (off : t.offMemory = s.offMemory) (c : CoreId) :
    (t.ctx c).besideJobs = (s.ctx c).besideJobs :=
  Ctx.besideJobs_of_offMemory (congrArg Core.ctx (State.offMemory_core off c) :)

/-- What a job that takes sub-banks, or waits for none, leaves: its record alone shows what it awaits. -/
structure State.JobTook (s t : State) (c : CoreId) (j : Job) : Prop where
  runs : ∃ w, t.RunsJob c { j with waits := w }
  beside : (t.ctx c).besideJobs = (s.ctx c).besideJobs
  diag : ∀ k, (t.core k).spdiag = (s.core k).spdiag
  mem : t.mem = s.mem
  poison : t.poison = s.poison
  fatals : t.fatals = s.fatals

theorem State.jobTook_jobTakes {s : State} {c : CoreId} {j : Job} (runs : s.RunsJob c j) (as : List Nat) :
    s.JobTook (s.jobTakes c j as).1 c j := by
  unfold State.jobTakes
  extract_lets all s1 need b left
  have asked : s1.offBanks = s.offBanks := by
    unfold s1
    split
    · rfl
    · exact foldl_view State.offBanks (fun t (w : CoreId × Nat) => (rfl : (t.after (.remoteSliceRequest w.1 w.2 c.val)).offBanks = t.offBanks)) _ s
  have took : b.1.offBanks = s.offBanks := (s1.takeBanks_offBanks _ _).trans asked
  have core := State.core_offBanks took
  have ctx : b.1.ctx c = s.ctx c := (congrArg Core.ctx (core c) :)
  have runs1 : b.1.RunsJob c j := runs.of_core (congrArg Ctx.jobs ctx) (congrArg Core.packetJobs (core c) :)
  rw [State.updJob_live runs1]
  refine ⟨⟨some left, runs1.updJob (f := fun k => { k with waits := some left }) (fun _ => rfl)⟩, ?_, fun k => ?_,
    (congrArg State.mem took :), (congrArg State.poison took :), (congrArg State.fatals took :)⟩
  · rw [State.ctx_updCtx, Ctx.besideJobs_updJob, ctx]
  · refine Eq.trans ?_ (congrArg Core.spdiag (core k) :)
    by_cases here : k = c
    · subst here
      rw [State.core_updCtx]
      rfl
    · rw [State.core_updCtx_ne _ _ here]
      rfl

theorem State.JobTook.withHomes {s t : State} {c : CoreId} {j : Job} (took : s.JobTook t c j) (x : Vector Home 8) :
    s.JobTook (t.withHomes x) c j := by
  obtain ⟨⟨w, runs⟩, beside, diag, mem, poison, fatals⟩ := took
  exact ⟨⟨w, runs.of_cores rfl⟩, beside, diag, mem, poison, fatals⟩

theorem State.JobTook.clean {s t : State} {c : CoreId} {j : Job} (took : s.JobTook t c j) {k a : Nat} (clean : s.CleanByte k a) :
    t.CleanByte k a := by
  have diag : t.spdiagOf a = s.spdiagOf a := by
    unfold State.spdiagOf
    split
    · split
      · exact took.diag _
      · rfl
    · rfl
  exact ⟨clean.slice, diag.trans clean.diag, took.poison ▸ clean.poison, took.fatals ▸ clean.fatal⟩

/-! ### The write of a line -/

theorem aget_copiedBytes (m : Table Byte) (src dst : Nat) {n i : Nat} (inside : i < n) :
    aget (copiedBytes m src dst n).reverse (dst + i) = some (Memory.get m (src + i)) := by
  induction n with
  | zero => exact absurd inside (Nat.not_lt_zero i)
  | succ n ih =>
    rw [copiedBytes_succ, List.reverse_append, List.reverse_singleton, List.singleton_append, aget]
    by_cases last : i = n
    · rw [last, if_pos rfl]
    · rw [if_neg (by omega)]
      exact ih (by omega)

/-- Copied bytes that are written where no error stands: each has its value, and every other byte is as before. -/
theorem State.get_agentWrite_copied {s : State} {l dst n : Nat} (wf : Memory.wf s.mem = true) (clean : ∀ i < n, s.CleanByte l (dst + i))
    (m : Table Byte) (src : Nat) (w : Writer) (nt : Bool) :
    (∀ i < n, Memory.get (s.agentWrite w (copiedBytes m src dst n) nt).mem (dst + i) = Memory.get m (src + i)) ∧
      ∀ x, x ∉ addrs dst n → Memory.get (s.agentWrite w (copiedBytes m src dst n) nt).mem x = Memory.get s.mem x := by
  have each : ∀ p ∈ copiedBytes m src dst n, s.CleanByte l p.1 := fun p hp => by
    obtain ⟨i, hi, rfl⟩ := List.mem_map.1 hp
    exact clean i (List.mem_range.1 hi)
  have placed : s.placed (copiedBytes m src dst n) = copiedBytes m src dst n := by
    unfold State.placed
    conv_rhs => rw [← List.map_id (copiedBytes m src dst n)]
    exact List.map_congr_left fun p hp => Prod.ext (s.place_slice (each p hp).slice) rfl
  refine ⟨fun i hi => ?_, fun x out => ?_⟩
  · rw [State.get_agentWrite wf (fun p hp => (each p (placed ▸ hp)).sound) (fun p hp => by rw [(each p hp).slice]; rfl), placed,
      aget_copiedBytes m src dst hi, Option.getD_some]
  · refine State.get_agentWrite_of_ne (fun p hp => ?_) w nt (fun p hp same => out ?_)
    · rw [(each p (placed ▸ hp)).diag]
      rfl
    · exact same ▸ mem_copiedBytes (placed ▸ hp)

/-! ### The job after its line -/

section EndLine

variable {s : State} {c : CoreId} {j q : Job} (runs : s.RunsJob c q) (same : q.id = j.id) (x : Ctx) {r : JobRun} (going : r.stop = none) {u : JobCursor}
include runs same going

/-- With its last line the job ends with status 0. -/
theorem State.endLine_ends (table : r.table = none) (last : j.kind.units ≤ u.done) {z : Ctx} (before : (s.ctx c).besideJobs = z.besideJobs) :
    z.JobEnded ((s.endLine c (some x) j r u).ctx c) j 0 ∧ ((s.endLine c (some x) j r u).ctx c).cperr = z.cperr ∧
      (s.endLine c (some x) j r u).mem = (s.agentWrite (x.writer c j.sec) r.out.reverse j.nt).mem := by
  have ends : s.endLine c (some x) j r u = s.finishJob c x j 0 0 r.out.reverse := by
    unfold State.endLine
    simp only [going, table, Option.isSome_none, Bool.false_or, last, decide_true, if_true]
    rfl
  obtain ⟨y, ws, beside, ctx, mem⟩ := State.finishJob_live (j := j) (same ▸ Option.isSome_of_eq_some runs.found) x 0 0 r.out.reverse
  rw [ends, ctx]
  exact ⟨Ctx.jobEnded_endJob (beside.trans before) .., Ctx.cperr_endJob (beside.trans before) .., mem⟩

/-- Before its last line the job goes on from its cursor. -/
theorem State.endLine_goes (more : u.done < j.kind.units) :
    (∃ w, (s.endLine c (some x) j r u).RunsJob c { q with cursor := u, wrote := w, sentAt := s.now, waits := none }) ∧
      UnderWay (s.endLine c (some x) j r u) (.jobComplete c j.id) ∧
      ((s.endLine c (some x) j r u).ctx c).besideJobs = (s.ctx c).besideJobs ∧
      (s.endLine c (some x) j r u).mem = (s.agentWrite (x.writer c j.sec) r.out.reverse j.nt).mem := by
  have off := s.agentWrite_offMemory (x.writer c j.sec) r.out.reverse j.nt
  have now : (s.agentWrite (x.writer c j.sec) r.out.reverse j.nt).now = s.now := (congrArg State.now off :)
  have written := runs.of_offMemory off
  have noted := written.updJob (f := fun k => { k with cursor := u, wrote := (s.now, r.out.reverse) :: k.wrote }) (fun _ => rfl)
  have goes : s.endLine c (some x) j r u = ((s.agentWrite (x.writer c j.sec) r.out.reverse j.nt).updCtx c (fun y =>
      y.updJob q.id (fun k => { k with cursor := u, wrote := (s.now, r.out.reverse) :: k.wrote }))).sendLine c j := by
    rw [← State.updJob_live written, same]
    unfold State.endLine
    simp only [going, Option.isSome_none, Bool.false_or, decide_eq_true_eq, Nat.not_le.2 more, if_false]
  obtain ⟨sent, due, mem, ctx⟩ := State.sendLine_live noted (k := j) same.symm
  rw [goes]
  refine ⟨⟨_, by rw [State.updCtx_now, now] at sent; exact sent⟩, same ▸ due, ?_, mem⟩
  rw [ctx, Ctx.besideJobs_updJob, State.ctx_updCtx, Ctx.besideJobs_updJob]
  exact State.besideJobs_of_offMemory off c

end EndLine

/-! ### A copy of one row between slices -/

theorem exec_jobComplete_copy {s : State} {c : CoreId} {j : Job} (found : (s.ctx c).findJob j.id = some j)
    (kind : ∀ status addr, j.kind ≠ .settled status addr) (started : j.started = true) :
    exec (.jobComplete c j.id) s = .next (s.moveLine c (some (s.ctx c)) j none (.jobComplete c j.id)) := by
  show execJobComplete c j.id s = _
  unfold execJobComplete
  rw [State.findJob_live found]
  dsimp only
  split
  · next status addr _ settled _ => exact absurd settled (kind status addr)
  · rw [if_pos started]

/-- The line that a job moves once it has the sub-banks of its accesses and its writes may be applied (R91, R118, R121). -/
theorem State.moveLine_ready {s : State} {c : CoreId} {x : Ctx} {j : Job} {e : Instr} {seen out : List Nat}
    (reads : (j.line x (j.view c) none s).1.seen = seen) (writes : (j.line x (j.view c) none s).1.out.map (·.1) = out)
    (banks : (s.jobTakes c j (seen ++ out)).2 = true) (ready : ((s.jobTakes c j (seen ++ out)).1.writeReady e out).2 = true) :
    s.moveLine c (some x) j none e =
      let r := j.line x (j.view c) none ((s.jobTakes c j (seen ++ out)).1.writeReady e out).1
      r.1.s.endLine c (some x) j r.1 r.2 := by
  subst reads writes
  unfold State.moveLine
  extract_lets q b w r
  have granted : b.2 = true := banks
  have may : w.2 = true := ready
  rw [if_neg (by simp), if_neg (by simp), if_neg (by simp [granted]), if_neg (by simp [may])]
  rfl

section Copy

variable {s : State} {c : CoreId} {j : Job} {a b : Extent} {ss ds : Int} {k l : Nat} (kind : j.kind = .copy a b a.va b.va a.len 1 ss ds false)
include kind

theorem Job.line_copied (small : a.len ≤ 2 ^ 28) (more : j.cursor.done < a.len)
    (clean : ∀ i < lineRest a b j.cursor.done, s.CleanByte k (a.ia + j.cursor.done + i))
    (slice : ∀ i < lineRest a b j.cursor.done, regionOf (b.ia + j.cursor.done + i) = .slice l) (x : Ctx) (v : JobView) :
    JobRun.Copied s (a.ia + j.cursor.done) (b.ia + j.cursor.done) (lineRest a b j.cursor.done) (j.line x v none s).1 ∧
      (j.line x v none s).2.done = j.cursor.done + lineRest a b j.cursor.done := by
  have some_ : 0 < lineRest a b j.cursor.done := Nat.lt_min.2 ⟨by omega, by omega⟩
  unfold Job.line
  rw [kind]
  exact JobKind.runFrom_copy small clean slice v _ _ 0 none j.cursor _ rfl (by simp [JobKind.units]) (Nat.zero_le _) (.inr ⟨rfl, some_⟩)
    (.start s _ _)

/-- A started copy moves its next line, and ends with its last (R91, R95, R102). -/
theorem jobComplete_copy (runs : s.RunsJob c j) (small : a.len ≤ 2 ^ 28) (started : j.started = true) (canonical : s.canonical)
    (more : j.cursor.done < a.len)
    (src : ∀ i < lineRest a b j.cursor.done, s.CleanByte k (a.ia + j.cursor.done + i))
    (dst : ∀ i < lineRest a b j.cursor.done, s.CleanByte l (b.ia + j.cursor.done + i)) :
    let n := lineRest a b j.cursor.done
    let from_ := addrs (a.ia + j.cursor.done) n
    let into := addrs (b.ia + j.cursor.done) n
    let banks := s.jobTakes c j (from_.reverse ++ into.reverse)
    banks.2 = true → (banks.1.writeReady (.jobComplete c j.id) into.reverse).2 = true →
    ∃ t, exec (.jobComplete c j.id) s = .next t ∧
      (∀ i < n, Memory.get t.mem (b.ia + j.cursor.done + i) = Memory.get s.mem (a.ia + j.cursor.done + i)) ∧
      (∀ x, x ∉ into → Memory.get t.mem x = Memory.get s.mem x) ∧ (t.ctx c).cperr = (s.ctx c).cperr ∧
      (j.cursor.done + n = a.len → (s.ctx c).JobEnded (t.ctx c) j 0) ∧
      (j.cursor.done + n < a.len → UnderWay t (.jobComplete c j.id) ∧
        ∃ q, (t.ctx c).findJob j.id = some q ∧ q.cursor.done = j.cursor.done + n ∧ q.started = true ∧ q.kind = j.kind) := by
  intro n from_ into banks granted ready
  obtain ⟨first, -⟩ := Job.line_copied kind small more src (fun i hi => (dst i hi).slice) (s.ctx c) (j.view c)
  have outs : (j.line (s.ctx c) (j.view c) none s).1.out.map (·.1) = into.reverse := by
    rw [first.out, List.map_reverse, copiedBytes_addrs]
  have moves := State.moveLine_ready (e := .jobComplete c j.id) first.seen outs granted ready
  obtain ⟨y, homes⟩ := State.writeReady_homes ready
  have took := (State.jobTook_jobTakes runs (from_.reverse ++ into.reverse)).withHomes y
  rw [← homes] at took
  let v := (banks.1.writeReady (.jobComplete c j.id) into.reverse).1
  obtain ⟨copied, done⟩ := Job.line_copied kind (s := v) small more (fun i hi => took.clean (src i hi)) (fun i hi => (dst i hi).slice)
    (s.ctx c) (j.view c)
  let r := j.line (s.ctx c) (j.view c) none v
  have units : j.kind.units = a.len := by rw [kind]; exact Nat.mul_one _
  obtain ⟨w, runsTook⟩ := took.runs
  have runsNow := runsTook.of_offMemory copied.same.off
  have beside : (r.1.s.ctx c).besideJobs = (s.ctx c).besideJobs := (State.besideJobs_of_offMemory copied.same.off c).trans took.beside
  have mem : r.1.s.mem = s.mem := copied.same.mem.trans took.mem
  have out : r.1.out.reverse = copiedBytes s.mem (a.ia + j.cursor.done) (b.ia + j.cursor.done) n := by
    rw [copied.out, List.reverse_reverse, took.mem]
  obtain ⟨moved, kept⟩ := State.get_agentWrite_copied (s := r.1.s) (mem ▸ canonical.1)
    (fun i hi => (took.clean (dst i hi)).of_unharmed copied.same) s.mem (a.ia + j.cursor.done) ((s.ctx c).writer c j.sec) j.nt
  refine ⟨r.1.s.endLine c (some (s.ctx c)) j r.1 r.2, ?_, ?_⟩
  · rw [exec_jobComplete_copy runs.found (by simp [kind]) started, moves]
  have within : n ≤ a.len - j.cursor.done := Nat.min_le_left ..
  rcases Nat.lt_or_ge (j.cursor.done + n) a.len with goes | last
  · obtain ⟨⟨w', next_⟩, due, same, written⟩ := State.endLine_goes (j := j) runsNow rfl (s.ctx c) copied.going (u := r.2) (by rw [units, done]; exact goes)
    rw [out] at written
    refine ⟨fun i hi => written ▸ moved i hi, fun x hx => written ▸ (kept x hx).trans (by rw [mem]),
      (congrArg Ctx.cperr (same.trans beside) :), fun ends => by omega, fun _ => ⟨due, _, next_.found, done, started, rfl⟩⟩
  · obtain ⟨ended, error, written⟩ := State.endLine_ends (j := j) runsNow rfl (s.ctx c) copied.going copied.table (u := r.2) (by rw [units, done]; exact last) beside
    rw [out] at written
    refine ⟨fun i hi => written ▸ moved i hi, fun x hx => written ▸ (kept x hx).trans (by rw [mem]),
      error, fun _ => ended, fun goes => by omega⟩

end Copy

/-- The statement's words for a clean byte. -/
theorem State.cleanByte_addrs {s : State} {k ia n : Nat}
    (h : ∀ x ∈ addrs ia n, regionOf x = .slice k ∧ s.spdiagOf x = 0 ∧ unitOf x ∉ s.poison ∧ unitOf x ∉ s.fatals) :
    ∀ i < n, s.CleanByte k (ia + i) := fun i hi => by
  obtain ⟨slice, diag, poison, fatal⟩ := h (ia + i) (List.mem_map_of_mem (List.mem_range.2 hi))
  exact ⟨slice, diag, poison, fatal⟩

theorem jobsComplete : JobsComplete := by
  intro s c j found bit ended
  have ends : ∀ {t : State} {status : Nat}, (s.ctx c).JobEnded (t.ctx c) j status → ended t status := fun h =>
    ⟨h.tags, h.busy, h.status, h.cp, h.gone⟩
  refine ⟨fun status addr kind _ => ?_, fun a b ss ds k l kind _ small started packet canonical => ?_⟩
  · obtain ⟨t, runs, done, mem, error⟩ := jobComplete_settled found kind
    exact ⟨t, runs, ends done, mem, error.trans (cperrAfter_eq ..)⟩
  · intro d n src dst more from_ into banks granted ready
    obtain ⟨t, runs, moved, kept, error, last, goes⟩ := jobComplete_copy kind ⟨found, packet⟩ small started canonical more
      (State.cleanByte_addrs from_) (State.cleanByte_addrs into) granted ready
    exact ⟨t, runs, moved, kept, error, fun h => ends (last h), goes⟩

/-- Settles O56: a job starts on a free engine, and as it completes moves exactly the bytes of its line or ends with its status. -/
theorem jobsRun : Obligations.JobsRun := ⟨jobsStart, jobsComplete⟩

end Sys2Proof.Machine
end

section
/-! The jobs that instructions enter: their footprints and edges, and what the issue does (R93, R94, R103, R104). -/

namespace Sys2Proof.Machine

open Sys2Proof.Claims

/-! ### Footprints that meet -/

/-- Two ranges share a line just when neither ends before the other's first line (R103). -/
theorem lines_meet_iff (a b c d : Nat) : (∃ p q, a ≤ p ∧ p < b ∧ c ≤ q ∧ q < d ∧ p / 64 = q / 64) ↔
    a < b ∧ c < d ∧ a / 64 ≤ (d - 1) / 64 ∧ c / 64 ≤ (b - 1) / 64 := by
  constructor
  · rintro ⟨p, q, hp⟩
    omega
  · intro meet
    rcases Nat.le_total (a / 64) (c / 64) with first | second
    · exact ⟨Nat.max a (c / 64 * 64), c, Nat.le_max_left .., Nat.max_lt.2 ⟨by omega, by omega⟩, by omega, by omega, by
        rcases Nat.le_total a (c / 64 * 64) with le | le
        · rw [show Nat.max a (c / 64 * 64) = c / 64 * 64 from Nat.max_eq_right le]; omega
        · rw [show Nat.max a (c / 64 * 64) = a from Nat.max_eq_left le]; omega⟩
    · exact ⟨a, Nat.max c (a / 64 * 64), by omega, by omega, Nat.le_max_left .., Nat.max_lt.2 ⟨by omega, by omega⟩, by
        rcases Nat.le_total c (a / 64 * 64) with le | le
        · rw [show Nat.max c (a / 64 * 64) = a / 64 * 64 from Nat.max_eq_right le]; omega
        · rw [show Nat.max c (a / 64 * 64) = c from Nat.max_eq_left le]; omega⟩

theorem overlaps_iff_touch (x y : Region) : x.overlaps y = true ↔ Touch x y := by
  unfold Region.overlaps Touch
  cases x.table <;> cases y.table
  · simp only [Bool.and_eq_true, decide_eq_true_eq, lines_meet_iff, and_assoc]
  · exact ⟨Bool.noConfusion, False.elim⟩
  · exact ⟨Bool.noConfusion, False.elim⟩
  · exact decide_eq_true_iff

/-! ### Edges (R104) -/

/-- The two footprints meet where one of them writes. -/
def Conflicts (later earlier : List Region) : Prop := ∃ x ∈ later, ∃ y ∈ earlier, Touch x y ∧ (x.wr = true ∨ y.wr = true)

/-- The later one reads what the earlier one writes. -/
def ReadsAfterWrite (later earlier : List Region) : Prop := ∃ x ∈ later, ∃ y ∈ earlier, Touch x y ∧ y.wr = true ∧ x.wr = false

theorem edgeFrom_eq_some (earlier later : List Region) (b : Bool) :
    edgeFrom earlier later = some b ↔ Conflicts later earlier ∧ (b = true ↔ ReadsAfterWrite later earlier) := by
  have hits : ∀ f : Bool × Bool → Bool, (later.flatMap (fun x => (earlier.filter x.overlaps).map (fun y => (x.wr, y.wr)))).any f = true ↔
      ∃ x ∈ later, ∃ y ∈ earlier, Touch x y ∧ f (x.wr, y.wr) = true := fun f => by
    simp only [List.any_eq_true, List.mem_flatMap, List.mem_map, List.mem_filter, overlaps_iff_touch]
    constructor
    · rintro ⟨p, ⟨x, hx, y, ⟨hy, touch⟩, rfl⟩, hf⟩
      exact ⟨x, hx, y, hy, touch, hf⟩
    · rintro ⟨x, hx, y, hy, touch, hf⟩
      exact ⟨_, ⟨x, hx, y, ⟨hy, touch⟩, rfl⟩, hf⟩
  have raw : ReadsAfterWrite later earlier → Conflicts later earlier := fun ⟨x, hx, y, hy, touch, writes, _⟩ =>
    ⟨x, hx, y, hy, touch, .inr writes⟩
  unfold edgeFrom
  extract_lets h
  split
  case isTrue reads =>
    have reads : ReadsAfterWrite later earlier := by
      obtain ⟨x, hx, y, hy, touch, kind⟩ := (hits _).1 reads
      exact ⟨x, hx, y, hy, touch, by simpa using kind⟩
    simp [reads, raw reads, eq_comm]
  case isFalse none =>
    have none : ¬ReadsAfterWrite later earlier := fun ⟨x, hx, y, hy, touch, kind⟩ =>
      none ((hits _).2 ⟨x, hx, y, hy, touch, by simpa using kind⟩)
    split
    case isTrue writes =>
      obtain ⟨x, hx, y, hy, touch, kind⟩ := (hits _).1 writes
      have meet : Conflicts later earlier := ⟨x, hx, y, hy, touch, .inl kind⟩
      simp [none, meet, eq_comm]
    case isFalse apart =>
      have free : ¬Conflicts later earlier := by
        rintro ⟨x, hx, y, hy, touch, kind⟩
        by_cases w : x.wr = true
        · exact apart ((hits _).2 ⟨x, hx, y, hy, touch, w⟩)
        · exact none ⟨x, hx, y, hy, touch, kind.resolve_left w, by simpa using w⟩
      simp [free]

theorem mem_edges_jobOf (s : State) (r : JobReq) (e : Nat × Bool) : e ∈ (s.jobOf r).edges ↔
    ∃ k ∈ s.curCtx.jobs, k.id = e.1 ∧ Conflicts r.regions k.regions ∧ (e.2 = true ↔ ReadsAfterWrite r.regions k.regions) := by
  obtain ⟨id, b⟩ := e
  refine List.mem_filterMap.trans (exists_congr fun k => and_congr_right fun _ => ?_)
  simp only [Option.map_eq_some_iff, Prod.mk.injEq, edgeFrom_eq_some]
  constructor
  · rintro ⟨_, edge, rfl, rfl⟩
    exact ⟨rfl, edge⟩
  · rintro ⟨rfl, edge⟩
    exact ⟨b, edge, rfl, rfl⟩

/-! ### The job enters -/

/-- A context with one job more, entered by one of its streams (R93, R94). -/
def Ctx.enter (x : Ctx) (sec : Bool) (j : Job) : Ctx :=
  { x with jobs := x.jobs ++ [j], tagBusy := x.tagBusy ||| tagBit j.tag
           doneJobs := x.doneJobs.filter (fun d => d.1 ≠ j.tag) }.updStream sec (fun y => { y with cp := y.cp + 1 })

theorem Ctx.updStream_jobs (x : Ctx) (sec : Bool) (f : Stream → Stream) : (x.updStream sec f).jobs = x.jobs ∧
    (x.updStream sec f).tagBusy = x.tagBusy ∧ (x.updStream sec f).tags = x.tags := by
  cases sec <;> exact ⟨rfl, rfl, rfl⟩

/-- The issuing core with the job in its scheduler. -/
theorem State.core_enterJob (s : State) (j : Job) : (s.enterJob j).core s.issue.core =
    { s.curCore with
      ctx := s.curCtx.enter s.issue.sec j
      endWrites := s.curCore.endWrites ++ [.tagClear (tagBit j.tag)] } := by
  unfold State.enterJob
  extract_lets s1 s2
  have entered : s1.core s.issue.core = { s.curCore with ctx := s.curCtx.enter s.issue.sec j } :=
    (State.core_updCtx (s.updCurCtx _) s.issue.core _).trans (congrArg (Core.updCtx · _) (s.core_updCtx s.issue.core _))
  have named : s2.core s.issue.core = { s1.core s.issue.core with
      endWrites := (s1.core s.issue.core).endWrites ++ [.tagClear (tagBit j.tag)] } := State.core_updCore s1 _ _
  rw [entered] at named
  split <;> exact named

theorem State.enterJob_issue (s : State) (j : Job) : (s.enterJob j).issue.core = s.issue.core ∧ (s.enterJob j).issue.sec = s.issue.sec ∧
    (s.enterJob j).issue.status = s.issue.status := by
  unfold State.enterJob
  extract_lets s1 s2
  split <;> exact ⟨rfl, rfl, rfl⟩

theorem State.curCore_enterJob (s : State) (j : Job) : (s.enterJob j).curCore =
    { s.curCore with
      ctx := s.curCtx.enter s.issue.sec j
      endWrites := s.curCore.endWrites ++ [.tagClear (tagBit j.tag)] } := by
  rw [State.curCore, (s.enterJob_issue j).1]
  exact s.core_enterJob j

theorem State.cur_enterJob (s : State) (j : Job) : (s.enterJob j).cur = { s.cur with cp := s.cur.cp + 1 } := by
  show ((s.enterJob j).curCore.ctx).stream (s.enterJob j).issue.sec = _
  rw [s.curCore_enterJob, (s.enterJob_issue j).2.1]
  exact Ctx.stream_updStream ..

theorem State.underWay_enterJob (s : State) {j : Job} {status : Nat} {addr : Word} (kind : j.kind = .settled status addr) :
    UnderWay (s.enterJob j) (.jobComplete s.issue.core j.id) := by
  unfold State.enterJob
  extract_lets s1 s2
  rw [kind]
  exact ⟨_, List.mem_append_right _ (.head _), Nat.lt_succ_self _⟩

/-! ### The issue -/

theorem State.issueJob_enters {s : State} {r : JobReq} (free : (s.curCtx.tagBusy ||| s.issue.tagsNamed) &&& tagBit r.tag = 0)
    (room : s.curCtx.jobs.length + Nat.max 1 s.issue.jobs ≤ 64) (below : s.cur.cp < 64) : s.issueJob r = s.enterJob (s.jobOf r) := by
  unfold State.issueJob
  extract_lets bit
  rw [if_neg (not_not.2 free), if_neg (Nat.not_lt.2 room), if_neg (Nat.not_le.2 below)]

theorem State.issueJob_used {s : State} {r : JobReq} (used : (s.curCtx.tagBusy ||| s.issue.tagsNamed) &&& tagBit r.tag ≠ 0) :
    s.issueJob r = s.raise { cause := 0x10, tval := r.tag.setWidth 64 } := if_pos used

theorem State.issueJob_full {s : State} {r : JobReq} (free : (s.curCtx.tagBusy ||| s.issue.tagsNamed) &&& tagBit r.tag = 0)
    (full : 64 < s.curCtx.jobs.length + Nat.max 1 s.issue.jobs) : s.issueJob r = s.holdFor .scheduler := by
  unfold State.issueJob
  extract_lets bit
  rw [if_neg (not_not.2 free), if_pos full]

/-- A request of the instruction's tag, class and bits whose job has the footprint of its kind. -/
structure State.Asks (s : State) (r : JobReq) (tag : BitVec 6) (cls : BitVec 3) (span nt : Bool) : Prop where
  tag : r.tag = tag
  cls : r.cls = cls
  bits : (∀ st ad, r.kind ≠ .settled st ad) → r.span = span ∧ r.nt = nt
  footprint : Footprint (s.jobOf r)

theorem State.asks_settled (s : State) (tag : BitVec 6) (cls : BitVec 3) (span nt : Bool) (status : Nat) (addr : Word) :
    s.Asks (settledReq tag cls status addr) tag cls span nt :=
  ⟨rfl, rfl, fun other => absurd rfl (other status addr), rfl⟩

/-- An instruction that issues a request enters its job, raises cause 0x10, or holds (R93, R94). -/
theorem entersJob_of {s : State} {i : Instr} {tag : BitVec 6} {cls : BitVec 3} {span nt : Bool} {kind : JobKind → Prop}
    (h : ∃ r, exec i s = .next (s.issueJob r) ∧ s.Asks r tag cls span nt ∧ kind r.kind) : EntersJob s i tag cls span nt kind := by
  obtain ⟨r, run, ⟨rfl, rfl, bits, footprint⟩, kindOf⟩ := h
  rw [EntersJob, run]
  refine ⟨fun free room below => ?_, fun used handles => ?_, fun free full => ?_⟩
  · have core := s.curCore_enterJob (s.jobOf r)
    have ctx : (s.enterJob (s.jobOf r)).curCtx = s.curCtx.enter s.issue.sec (s.jobOf r) := congrArg Core.ctx core
    obtain ⟨jobs, busy, tags⟩ : (s.curCtx.enter s.issue.sec (s.jobOf r)).jobs = _ ∧ _ ∧ _ := Ctx.updStream_jobs ..
    have cur := s.cur_enterJob (s.jobOf r)
    refine ⟨_, s.jobOf r, congrArg _ (State.issueJob_enters free room below), ctx ▸ jobs, rfl, rfl, rfl, kindOf, footprint, rfl, bits,
      mem_edges_jobOf s r, ctx ▸ busy, ctx ▸ tags, (congrArg Core.endWrites core :), (congrArg Stream.cp cur :), (s.enterJob_issue _).2.2,
      fun st ad settled => s.underWay_enterJob settled, ?_, fun a => congrArg (Memory.get · a) (s.enterJob_mem _)⟩
    rw [cur]
    exact ⟨fun _ => rfl, fun _ => rfl, rfl, rfl, rfl, rfl, rfl, ⟨rfl, rfl, rfl, rfl, rfl⟩, rfl⟩
  · exact ⟨_, congrArg _ (State.issueJob_used used), s.trapTaken_raise handles _⟩
  · refine ⟨_, congrArg _ (State.issueJob_full free full), rfl, ?_, ?_, fun _ => rfl⟩
    · have ctx : (s.holdFor .scheduler).curCtx = s.curCtx.updStream s.issue.sec _ := s.ctx_updCtx _ _
      rw [ctx]
      exact (Ctx.updStream_jobs ..).1
    · rw [s.cur_holdFor]
      exact ⟨fun _ => rfl, fun _ => rfl, rfl, rfl, rfl, rfl, rfl, ⟨rfl, rfl, rfl, rfl, rfl⟩, rfl⟩

end Sys2Proof.Machine
end

section
/-! CPY, CPYD, CPYS, CTAB, EGO, EWR and TCLR as they issue (R93, R94, R99 to R101, R110, R111, R113). -/

namespace Sys2Proof.Machine

open Sys2Proof.Claims

/-! ### The checks of a copy instruction, in their order (R100, R101) -/

/-- What a copy instruction finds before its job is entered: whether its descriptor is bad, whether there is nothing to move, its
ranges where all of them translate, whether these clash, and the job that is left to ask for. -/
structure JobChecks (α : Type) where
  bad : Bool
  empty : Bool
  ranges : Option α
  clash : α → Bool
  addr : Word
  job : α → JobReq

/-- The request that the checks come to. -/
def JobChecks.request {α : Type} (k : JobChecks α) (tag : BitVec 6) (cls : BitVec 3) : JobReq :=
  if k.bad then settledReq tag cls 4 k.addr
  else if k.empty then settledReq tag cls 0 0
  else
    match k.ranges with
    | none => settledReq tag cls 1 0
    | some x => if k.clash x then settledReq tag cls 4 k.addr else k.job x

/-- The kind of the job that the checks come to: the first that holds. -/
structure JobChecks.Verdict {α : Type} (k : JobChecks α) (kind : JobKind) : Prop where
  bad : k.bad = true → kind = .settled 4 k.addr
  empty : k.bad = false → k.empty = true → kind = .settled 0 0
  absent : k.bad = false → k.empty = false → k.ranges = none → kind = .settled 1 0
  clash : ∀ x, k.bad = false → k.empty = false → k.ranges = some x → k.clash x = true → kind = .settled 4 k.addr
  moves : ∀ x, k.bad = false → k.empty = false → k.ranges = some x → k.clash x = false → kind = (k.job x).kind

theorem JobChecks.verdict_request {α : Type} (k : JobChecks α) (tag : BitVec 6) (cls : BitVec 3) : k.Verdict (k.request tag cls).kind := by
  unfold JobChecks.request
  constructor <;> intros <;> simp [*, settledReq]

theorem JobChecks.asks_request {α : Type} {k : JobChecks α} {s : State} {tag : BitVec 6} {cls : BitVec 3} {span nt : Bool}
    (job : ∀ x, s.Asks (k.job x) tag cls span nt) : s.Asks (k.request tag cls) tag cls span nt := by
  have settled := s.asks_settled tag cls span nt
  unfold JobChecks.request
  repeat' split
  · exact settled 4 _
  · exact settled 0 _
  · exact settled 1 _
  · exact settled 4 _
  · exact job _

/-- The request by the conditions that the checks decide. -/
theorem JobChecks.request_of {α : Type} (k : JobChecks α) {bad empty : Prop} [Decidable bad] [Decidable empty] (hb : k.bad = true ↔ bad)
    (he : k.empty = true ↔ empty) (tag : BitVec 6) (cls : BitVec 3) : k.request tag cls =
      if bad then settledReq tag cls 4 k.addr
      else if empty then settledReq tag cls 0 0
      else (k.ranges.map (fun x => if k.clash x then settledReq tag cls 4 k.addr else k.job x)).getD (settledReq tag cls 1 0) := by
  unfold JobChecks.request
  simp only [hb, he]
  cases k.ranges <;> rfl

theorem pair_absent {α β : Type} {x : Option α} {y : Option β} (absent : ∀ a b, x = some a → y = some b → False) :
    Option.map₂ Prod.mk x y = none := by
  rw [Option.map₂_eq_none_iff]
  cases x with
  | none => exact .inl rfl
  | some a => exact .inr (Option.eq_none_iff_forall_ne_some.2 fun b e => absent a b rfl e)

/-- An instruction that asks for what its checks come to enters that job. -/
theorem JobChecks.entersJob {α : Type} (k : JobChecks α) {s : State} {i : Instr} {tag : BitVec 6} {cls : BitVec 3} {span nt : Bool}
    {kind : JobKind → Prop} (run : exec i s = .next (s.issueJob (k.request tag cls))) (job : ∀ x, s.Asks (k.job x) tag cls span nt)
    (verdict : ∀ q, k.Verdict q → kind q) : EntersJob s i tag cls span nt kind :=
  entersJob_of ⟨_, run, JobChecks.asks_request job, verdict _ (k.verdict_request tag cls)⟩

theorem State.extent_pos (s : State) (va : Word) {len : Nat} (positive : 0 < len) (wr : Bool) :
    s.extent va len wr = (translate s.curCtx.win va len (if wr then .write else .read)).map (fun p =>
      { va := va, ia := p.1, len := len, wr := wr, attr := p.2 }) := if_neg (Nat.ne_of_gt positive)

theorem State.extent_none {s : State} {va : Word} {len : Nat} (positive : 0 < len) {wr : Bool}
    (lost : translate s.curCtx.win va len (if wr then .write else .read) = none) : s.extent va len wr = none := by
  rw [s.extent_pos va positive, lost]
  rfl

theorem State.extent_some {s : State} {va : Word} {len ia : Nat} {attr : BitVec 6} (positive : 0 < len) {wr : Bool}
    (found : translate s.curCtx.win va len (if wr then .write else .read) = some (ia, attr)) :
    s.extent va len wr = some { va := va, ia := ia, len := len, wr := wr, attr := attr } := by
  rw [s.extent_pos va positive, found]
  rfl

theorem Extent.meets_iff {x y : Extent} (hx : 0 < x.len) (hy : 0 < y.len) : x.meets y = true ↔ x.ia < y.ia + y.len ∧ y.ia < x.ia + x.len := by
  unfold Extent.meets
  simp [Nat.ne_of_gt hx, Nat.ne_of_gt hy]

theorem State.inOwnSlice_iff (s : State) (e : Extent) : s.inOwnSlice e = true ↔ regionOf e.ia = .slice s.issue.core.val := decide_eq_true_iff

/-- Two ranges clash that meet, or where the second lies outside the own slice. -/
theorem State.clash_iff (s : State) {x y : Extent} :
    (x.meets y || !s.inOwnSlice y) = true ↔ x.meets y = true ∨ regionOf y.ia ≠ .slice s.issue.core.val := by
  rw [Bool.or_eq_true, Bool.not_eq_true', ← Bool.not_eq_true, s.inOwnSlice_iff]

theorem State.clash_eq_false (s : State) {x y : Extent} (apart : x.meets y = false) (own : regionOf y.ia = .slice s.issue.core.val) :
    (x.meets y || !s.inOwnSlice y) = false := by
  rw [apart, (s.inOwnSlice_iff y).2 own]
  rfl

/-! ### CPY -/

/-- The checks of CPY: the source's hull is asked for only where it is read (R100). -/
def State.cpyChecks (s : State) (t sg : BitVec 6) (z span nt : Bool) (cls : BitVec 3) : JobChecks (Extent × Extent) :=
  let len := getBits (s.desc sg 2) 0 32
  let rows := getBits (s.desc sg 2) 32 32
  let ss := ((s.desc sg 3).extractLsb' 0 32).toInt
  let ds := ((s.desc sg 3).extractLsb' 32 32).toInt
  let sh := hullOf rows len ss
  let dh := hullOf rows len ds
  { bad := 2 ^ 40 < len * rows || (1 < rows && ds.natAbs < len)
    empty := len = 0 || rows = 0
    ranges := Option.map₂ Prod.mk
      (if z then some { va := s.desc sg 0, ia := 0, len := 0, wr := false, attr := 0 }
        else s.extent (s.desc sg 0 + BitVec.ofInt 64 sh.1) sh.2 false)
      (s.extent (s.desc sg 1 + BitVec.ofInt 64 dh.1) dh.2 true)
    clash := fun p => !z && p.1.meets p.2
    addr := s.desc sg 0
    job := fun p =>
      { tag := t, kind := .copy p.1 p.2 (s.desc sg 0) (s.desc sg 1) len rows ss ds z
        regions := (if z then [] else [p.1.region]) ++ [p.2.region], cls := cls, span := span, nt := nt } }

theorem exec_cpy (s : State) (t sg : BitVec 6) (z span nt : Bool) (cls : BitVec 3) :
    exec (.cpy t sg z span nt cls) s = .next (s.issueJob ((s.cpyChecks t sg z span nt cls).request t cls)) := by
  rw [JobChecks.request_of _ Iff.rfl Iff.rfl]
  show execCpy t sg z span nt cls s = _
  unfold execCpy State.cpyChecks
  dsimp only
  congr 4
  split
  · next x y hx hy => rw [hx, hy]; rfl
  · next absent => rw [pair_absent absent]; rfl

theorem asks_cpy (s : State) (t sg : BitVec 6) (z span nt : Bool) (cls : BitVec 3) (x : Extent × Extent) :
    s.Asks ((s.cpyChecks t sg z span nt cls).job x) t cls span nt :=
  ⟨rfl, rfl, fun _ => ⟨rfl, rfl⟩, by cases z <;> rfl⟩

theorem entersJob_cpy (s : State) (tag sg : BitVec 6) (z span nt : Bool) (cls : BitVec 3) :
    let r := fun (n : BitVec 6) => s.cur.rs (sg + n)
    let win := s.curCtx.win
    let len := getBits (r 2) 0 32
    let rows := getBits (r 2) 32 32
    let ss := ((r 3).extractLsb' 0 32).toInt
    let ds := ((r 3).extractLsb' 32 32).toInt
    let bad := 2 ^ 40 < len * rows ∨ (1 < rows ∧ ds.natAbs < len)
    let a := hullOf rows len ss
    let b := hullOf rows len ds
    EntersJob s (.cpy tag sg z span nt cls) tag cls span nt (fun k =>
      (bad → k = .settled 4 (r 0)) ∧ (¬bad → (len = 0 ∨ rows = 0) → k = .settled 0 0) ∧
      (¬bad → 0 < len → 0 < rows → translate win (r 1 + BitVec.ofInt 64 b.1) b.2 .write = none → k = .settled 1 0) ∧
      (¬bad → 0 < len → 0 < rows → z = false → translate win (r 0 + BitVec.ofInt 64 a.1) a.2 .read = none → k = .settled 1 0) ∧
      (¬bad → 0 < len → 0 < rows → ∀ ib tb, translate win (r 1 + BitVec.ofInt 64 b.1) b.2 .write = some (ib, tb) →
        (z = true → ∃ x y, k = .copy x y (r 0) (r 1) len rows ss ds true ∧ y.ia = ib ∧ y.len = b.2) ∧
        (∀ ia ta, z = false → translate win (r 0 + BitVec.ofInt 64 a.1) a.2 .read = some (ia, ta) →
          (ia < ib + b.2 → ib < ia + a.2 → k = .settled 4 (r 0)) ∧
          ((ib + b.2 ≤ ia ∨ ia + a.2 ≤ ib) → ∃ x y, k = .copy x y (r 0) (r 1) len rows ss ds false ∧ x.ia = ia ∧ x.len = a.2 ∧
            y.ia = ib ∧ y.len = b.2)))) := by
  intro r win len rows ss ds bad a b
  let k := s.cpyChecks tag sg z span nt cls
  have badIff : (2 ^ 40 < len * rows || (1 < rows && ds.natAbs < len)) = true ↔ bad := by
    simp only [Bool.or_eq_true, Bool.and_eq_true, decide_eq_true_eq]
    exact Iff.rfl
  have emptyIff : (len = 0 || rows = 0) = true ↔ len = 0 ∨ rows = 0 := by
    simp only [Bool.or_eq_true, decide_eq_true_eq]
  have good : ¬bad → k.bad = false := fun h => Bool.eq_false_iff.2 fun e => h (badIff.1 e)
  have full : 0 < len → 0 < rows → k.empty = false := fun hl hr => Bool.eq_false_iff.2 fun e => by
    have := emptyIff.1 e
    omega
  have wide : ∀ str, 0 < len → 0 < (hullOf rows len str).2 := fun str hl => Nat.lt_add_left _ hl
  have ranges : k.ranges = Option.map₂ Prod.mk (if z then some { va := r 0, ia := 0, len := 0, wr := false, attr := 0 }
    else s.extent (r 0 + BitVec.ofInt 64 a.1) a.2 false) (s.extent (r 1 + BitVec.ofInt 64 b.1) b.2 true) := rfl
  refine k.entersJob (exec_cpy s tag sg z span nt cls) (asks_cpy s tag sg z span nt cls) fun q v => ⟨fun h => v.bad (badIff.2 h),
    fun h e => v.empty (good h) (emptyIff.2 e), fun h hl hr lost => ?_, fun h hl hr hz lost => ?_, fun h hl hr ib tb found => ⟨fun hz => ?_,
    fun ia ta hz read => ?_⟩⟩
  · have absent : s.extent (r 1 + BitVec.ofInt 64 b.1) b.2 true = none := State.extent_none (wide ds hl) lost
    exact v.absent (good h) (full hl hr) (by rw [ranges, absent, Option.map₂_none_right])
  · have absent : s.extent (r 0 + BitVec.ofInt 64 a.1) a.2 false = none := State.extent_none (wide ss hl) lost
    exact v.absent (good h) (full hl hr) (by rw [ranges, hz, if_neg Bool.false_ne_true, absent, Option.map₂_none_left])
  · subst hz
    have dst : s.extent (r 1 + BitVec.ofInt 64 b.1) b.2 true = some _ := State.extent_some (wide ds hl) found
    rw [if_pos rfl, dst, Option.map₂_some_some] at ranges
    exact ⟨_, _, v.moves _ (good h) (full hl hr) ranges rfl, rfl, rfl⟩
  · subst hz
    have src : s.extent (r 0 + BitVec.ofInt 64 a.1) a.2 false = some _ := State.extent_some (wide ss hl) read
    have dst : s.extent (r 1 + BitVec.ofInt 64 b.1) b.2 true = some _ := State.extent_some (wide ds hl) found
    rw [if_neg Bool.false_ne_true, src, dst, Option.map₂_some_some] at ranges
    have meets := Extent.meets_iff (x := { va := r 0 + BitVec.ofInt 64 a.1, ia := ia, len := a.2, wr := false, attr := ta })
      (y := { va := r 1 + BitVec.ofInt 64 b.1, ia := ib, len := b.2, wr := true, attr := tb }) (wide ss hl) (wide ds hl)
    refine ⟨fun first last => v.clash _ (good h) (full hl hr) ranges (meets.2 ⟨first, last⟩), fun apart =>
      ⟨_, _, v.moves _ (good h) (full hl hr) ranges (Bool.eq_false_iff.2 fun e => ?_), rfl, rfl, rfl, rfl⟩⟩
    have lines : ia < ib + b.2 ∧ ib < ia + a.2 := meets.1 e
    omega

/-! ### CPYD -/

/-- The checks of CPYD, whose destination lies in the own slice. -/
def State.cpydChecks (s : State) (t sg : BitVec 6) (slot : BitVec 4) (span nt : Bool) (cls : BitVec 3) : JobChecks (Extent × Extent) :=
  let len := getBits (s.desc sg 2) 0 32
  let clen := getBits (s.desc sg 2) 32 32
  { bad := s.desc sg 3 ≠ 0
    empty := len = 0
    ranges := Option.map₂ Prod.mk (s.extent (s.desc sg 0) clen false) (s.extent (s.desc sg 1) len true)
    clash := fun p => p.1.meets p.2 || !s.inOwnSlice p.2
    addr := s.desc sg 0
    job := fun p =>
      { tag := t, kind := .decode p.1 p.2 len clen slot, regions := [p.1.region, p.2.region, tableRegion slot false]
        cls := cls, span := span, nt := nt } }

theorem exec_cpyd (s : State) (t sg : BitVec 6) (slot : BitVec 4) (span nt : Bool) (cls : BitVec 3) :
    exec (.cpyd t sg slot span nt cls) s = .next (s.issueJob ((s.cpydChecks t sg slot span nt cls).request t cls)) := by
  rw [JobChecks.request_of _ decide_eq_true_iff decide_eq_true_iff]
  show execCpyd t sg slot span nt cls s = _
  unfold execCpyd State.cpydChecks
  dsimp only
  congr 4
  split
  · next x y hx hy => rw [hx, hy]; rfl
  · next absent => rw [pair_absent absent]; rfl

theorem entersJob_cpyd (s : State) (tag sg : BitVec 6) (slot : BitVec 4) (span nt : Bool) (cls : BitVec 3) :
    let r := fun (n : BitVec 6) => s.cur.rs (sg + n)
    let len := getBits (r 2) 0 32
    let clen := getBits (r 2) 32 32
    let a := s.extent (r 0) clen false
    let b := s.extent (r 1) len true
    EntersJob s (.cpyd tag sg slot span nt cls) tag cls span nt (fun k =>
      (r 3 ≠ 0 → k = .settled 4 (r 0)) ∧ (r 3 = 0 → len = 0 → k = .settled 0 0) ∧
      (r 3 = 0 → 0 < len → a = none ∨ b = none → k = .settled 1 0) ∧
      (∀ x y, r 3 = 0 → 0 < len → a = some x → b = some y →
        (x.meets y = true ∨ regionOf y.ia ≠ .slice s.issue.core.val → k = .settled 4 (r 0)) ∧
        (x.meets y = false → regionOf y.ia = .slice s.issue.core.val → k = .decode x y len clen slot))) := by
  intro r len clen a b
  let k := s.cpydChecks tag sg slot span nt cls
  have good : r 3 = 0 → k.bad = false := fun h => decide_eq_false (not_not.2 h)
  have full : 0 < len → k.empty = false := fun h => decide_eq_false (Nat.ne_of_gt h)
  have ranges : k.ranges = Option.map₂ Prod.mk a b := rfl
  refine k.entersJob (exec_cpyd s tag sg slot span nt cls) (fun _ => ⟨rfl, rfl, fun _ => ⟨rfl, rfl⟩, rfl⟩) fun q v => ⟨fun h => v.bad (decide_eq_true h),
    fun h e => v.empty (good h) (decide_eq_true e), fun h more lost => v.absent (good h) (full more) (ranges.trans (Option.map₂_eq_none_iff.2 lost)),
    fun x y h more hx hy => ?_⟩
  rw [hx, hy, Option.map₂_some_some] at ranges
  exact ⟨fun clash => v.clash _ (good h) (full more) ranges (s.clash_iff.2 clash),
    fun apart own => v.moves _ (good h) (full more) ranges (s.clash_eq_false apart own)⟩

/-! ### CPYS -/

/-- The checks of CPYS over groups of four elements, two of them stored (R109), with the metadata's range between source and destination. -/
def State.cpysChecks (s : State) (t sg : BitVec 6) (e : BitVec 2) (span nt : Bool) (cls : BitVec 3) : JobChecks (Extent × Extent × Extent) :=
  let g := getBits (s.desc sg 2) 0 32
  let n := szBytes e
  { bad := getBits (s.desc sg 2) 32 32 ≠ 0 || (s.desc sg 0).toNat % n ≠ 0 || (s.desc sg 1).toNat % n ≠ 0
    empty := g = 0
    ranges := Option.map₂ Prod.mk (s.extent (s.desc sg 0) (2 * g * n) false)
      (Option.map₂ Prod.mk (s.extent (s.desc sg 3) ((g + 1) / 2) false) (s.extent (s.desc sg 1) (4 * g * n) true))
    clash := fun p => p.1.meets p.2.2 || p.2.1.meets p.2.2 || !s.inOwnSlice p.2.2
    addr := s.desc sg 0
    job := fun p =>
      { tag := t, kind := .expand p.1 p.2.1 p.2.2 g n, regions := [p.1.region, p.2.1.region, p.2.2.region]
        cls := cls, span := span, nt := nt } }

theorem triple_absent {α β γ : Type} {x : Option α} {y : Option β} {z : Option γ}
    (absent : ∀ a b c, x = some a → y = some b → z = some c → False) : Option.map₂ Prod.mk x (Option.map₂ Prod.mk y z) = none := by
  refine pair_absent fun a p hx hp => ?_
  obtain ⟨b, c, hy, hz, -⟩ := Option.map₂_eq_some_iff.1 hp
  exact absent a b c hx hy hz

theorem exec_cpys (s : State) (t sg : BitVec 6) (e : BitVec 2) (span nt : Bool) (cls : BitVec 3) :
    exec (.cpys t sg e span nt cls) s = .next (s.issueJob ((s.cpysChecks t sg e span nt cls).request t cls)) := by
  rw [JobChecks.request_of _ Iff.rfl decide_eq_true_iff]
  show execCpys t sg e span nt cls s = _
  unfold execCpys State.cpysChecks
  dsimp only
  congr 4
  split
  · next x y z hx hy hz => rw [hx, hy, hz]; rfl
  · next absent => rw [triple_absent absent]; rfl

theorem entersJob_cpys (s : State) (tag sg : BitVec 6) (e : BitVec 2) (span nt : Bool) (cls : BitVec 3) :
    let r := fun (n : BitVec 6) => s.cur.rs (sg + n)
    let n := 2 ^ e.toNat
    let g := getBits (r 2) 0 32
    let bad := getBits (r 2) 32 32 ≠ 0 ∨ (r 0).toNat % n ≠ 0 ∨ (r 1).toNat % n ≠ 0
    let a := s.extent (r 0) (2 * g * n) false
    let m := s.extent (r 3) ((g + 1) / 2) false
    let b := s.extent (r 1) (4 * g * n) true
    EntersJob s (.cpys tag sg e span nt cls) tag cls span nt (fun k =>
      (bad → k = .settled 4 (r 0)) ∧ (¬bad → g = 0 → k = .settled 0 0) ∧
      (¬bad → 0 < g → a = none ∨ m = none ∨ b = none → k = .settled 1 0) ∧
      (∀ x y z, ¬bad → 0 < g → a = some x → m = some y → b = some z →
        (x.meets z = true ∨ y.meets z = true ∨ regionOf z.ia ≠ .slice s.issue.core.val → k = .settled 4 (r 0)) ∧
        (x.meets z = false → y.meets z = false → regionOf z.ia = .slice s.issue.core.val → k = .expand x y z g n))) := by
  intro r n g bad a m b
  let k := s.cpysChecks tag sg e span nt cls
  have badIff : (getBits (r 2) 32 32 ≠ 0 || (r 0).toNat % n ≠ 0 || (r 1).toNat % n ≠ 0) = true ↔ bad := by
    simp only [Bool.or_eq_true, decide_eq_true_eq, or_assoc]
    exact Iff.rfl
  have good : ¬bad → k.bad = false := fun h => Bool.eq_false_iff.2 fun e => h (badIff.1 e)
  have full : 0 < g → k.empty = false := fun h => decide_eq_false (Nat.ne_of_gt h)
  have ranges : k.ranges = Option.map₂ Prod.mk a (Option.map₂ Prod.mk m b) := rfl
  refine k.entersJob (exec_cpys s tag sg e span nt cls) (fun _ => ⟨rfl, rfl, fun _ => ⟨rfl, rfl⟩, rfl⟩) fun q v => ⟨fun h => v.bad (badIff.2 h),
    fun h e => v.empty (good h) (decide_eq_true e), fun h more lost => v.absent (good h) (full more) ?_, fun x y z h more hx hy hz => ?_⟩
  · rw [ranges, Option.map₂_eq_none_iff, Option.map₂_eq_none_iff]
    exact lost
  · rw [hx, hy, hz, Option.map₂_some_some, Option.map₂_some_some] at ranges
    refine ⟨fun clash => v.clash _ (good h) (full more) ranges ?_, fun first second own => v.moves _ (good h) (full more) ranges ?_⟩
    · show (x.meets z || y.meets z || !s.inOwnSlice z) = true
      rw [Bool.or_assoc, Bool.or_eq_true, s.clash_iff]
      exact clash
    · show (x.meets z || y.meets z || !s.inOwnSlice z) = false
      rw [Bool.or_assoc, first, Bool.false_or]
      exact s.clash_eq_false second own

/-! ### CTAB -/

/-- The checks of CTAB, which moves 128 bytes into a table slot and clashes with nothing (R106). -/
def State.ctabChecks (s : State) (t sg : BitVec 6) (slot : BitVec 4) (cls : BitVec 3) : JobChecks Extent :=
  { bad := (s.desc sg 0).toNat % 64 ≠ 0
    empty := false
    ranges := s.extent (s.desc sg 0) 128 false
    clash := fun _ => false
    addr := s.desc sg 0
    job := fun x =>
      { tag := t, kind := .table x slot, regions := [x.region, tableRegion slot true], cls := cls, span := false, nt := false } }

theorem exec_ctab (s : State) (t sg : BitVec 6) (slot : BitVec 4) (cls : BitVec 3) :
    exec (.ctab t sg slot cls) s = .next (s.issueJob ((s.ctabChecks t sg slot cls).request t cls)) := by
  rw [JobChecks.request_of (empty := False) _ decide_eq_true_iff (by simp [State.ctabChecks]), if_neg not_false]
  show execCtab t sg slot cls s = _
  unfold execCtab State.ctabChecks
  dsimp only
  congr 3
  split
  · next x found => rw [found]; rfl
  · next lost => rw [lost]; rfl

theorem entersJob_ctab (s : State) (tag sg : BitVec 6) (slot : BitVec 4) (cls : BitVec 3) :
    let r := fun (n : BitVec 6) => s.cur.rs (sg + n)
    let win := s.curCtx.win
    EntersJob s (.ctab tag sg slot cls) tag cls false false (fun k =>
      ((r 0).toNat % 64 ≠ 0 → k = .settled 4 (r 0)) ∧
      ((r 0).toNat % 64 = 0 → translate win (r 0) 128 .read = none → k = .settled 1 0) ∧
      (∀ ia ta, (r 0).toNat % 64 = 0 → translate win (r 0) 128 .read = some (ia, ta) → ∃ x, k = .table x slot ∧ x.ia = ia ∧ x.len = 128)) := by
  intro r win
  let k := s.ctabChecks tag sg slot cls
  have good : (r 0).toNat % 64 = 0 → k.bad = false := fun h => decide_eq_false (not_not.2 h)
  have ranges : k.ranges = s.extent (r 0) 128 false := rfl
  refine k.entersJob (exec_ctab s tag sg slot cls) (fun _ => ⟨rfl, rfl, fun _ => ⟨rfl, rfl⟩, rfl⟩) fun q v => ⟨fun h => v.bad (decide_eq_true h),
    fun h lost => ?_, fun ia ta h found => ?_⟩
  · have absent : s.extent (r 0) 128 false = none := State.extent_none (by decide) lost
    exact v.absent (good h) rfl (ranges.trans absent)
  · have src : s.extent (r 0) 128 false = some _ := State.extent_some (by decide) found
    exact ⟨_, v.moves _ (good h) rfl (ranges.trans src) rfl, rfl, rfl⟩

/-! ### EGO -/

/-- The checks of EGO over the engine registers of the context (R110). -/
def State.egoChecks (s : State) (t : BitVec 6) : JobChecks (List Extent) :=
  let e := s.curCtx.e
  { bad := gatherBad e
    empty := getBits e[3] 0 32 = 0
    ranges := (gatherRegions e).mapM (fun r => s.extent r.1 r.2.1 r.2.2)
    clash := fun l => l.any (fun a => !a.wr && l.any (fun b => b.wr && a.meets b))
    addr := e[0]
    job := fun l =>
      { tag := t, kind := .gather e l, regions := l.map Extent.region, cls := e[7].extractLsb' 6 3, span := e[7].getLsbD 5
        nt := e[7].getLsbD 4 } }

theorem exec_ego (s : State) (t : BitVec 6) :
    exec (.ego t) s = .next (s.issueJob ((s.egoChecks t).request t (s.curCtx.e[7].extractLsb' 6 3))) := by
  rw [JobChecks.request_of _ Iff.rfl decide_eq_true_iff]
  show execEgo t s = _
  unfold execEgo State.egoChecks
  dsimp only
  congr 4
  split
  · next lost => rw [lost]; rfl
  · next l found => rw [found]; rfl

/-- Regions clash where one that is read meets one that is written (R101). -/
theorem gatherClash_iff (l : List Extent) : l.any (fun a => !a.wr && l.any (fun b => b.wr && a.meets b)) = true ↔
    ∃ a ∈ l, ∃ b ∈ l, a.wr = false ∧ b.wr = true ∧ a.meets b = true := by
  simp only [List.any_eq_true, Bool.and_eq_true, Bool.not_eq_true']
  constructor
  · rintro ⟨a, ha, read, b, hb, write, meets⟩
    exact ⟨a, ha, b, hb, read, write, meets⟩
  · rintro ⟨a, ha, b, hb, read, write, meets⟩
    exact ⟨a, ha, read, b, hb, write, meets⟩

theorem entersJob_ego (s : State) (tag : BitVec 6) :
    let e := s.curCtx.e
    let l := (gatherRegions e).mapM (fun r => s.extent r.1 r.2.1 r.2.2)
    EntersJob s (.ego tag) tag (e[7].extractLsb' 6 3) (e[7].getLsbD 5) (e[7].getLsbD 4) (fun k =>
      (gatherBad e = true → k = .settled 4 e[0]) ∧ (gatherBad e = false → getBits e[3] 0 32 = 0 → k = .settled 0 0) ∧
      (gatherBad e = false → 0 < getBits e[3] 0 32 → l = none → k = .settled 1 0) ∧
      (∀ x, gatherBad e = false → 0 < getBits e[3] 0 32 → l = some x →
        ((∃ a ∈ x, ∃ b ∈ x, a.wr = false ∧ b.wr = true ∧ a.meets b = true) → k = .settled 4 e[0]) ∧
        ((∀ a ∈ x, ∀ b ∈ x, a.wr = false → b.wr = true → a.meets b = false) → k = .gather e x))) := by
  intro e l
  let k := s.egoChecks tag
  have full : 0 < getBits e[3] 0 32 → k.empty = false := fun h => decide_eq_false (Nat.ne_of_gt h)
  have ranges : k.ranges = l := rfl
  have asks : ∀ x, s.Asks (k.job x) tag (e[7].extractLsb' 6 3) (e[7].getLsbD 5) (e[7].getLsbD 4) := fun _ => ⟨rfl, rfl, fun _ => ⟨rfl, rfl⟩, rfl⟩
  refine k.entersJob (exec_ego s tag) asks fun q v => ⟨fun h => ?_, fun h nothing => ?_, fun h more lost => ?_, fun x h more found =>
    ⟨fun clash => ?_, fun apart => ?_⟩⟩
  · exact v.bad h
  · exact v.empty h (decide_eq_true nothing)
  · exact v.absent h (full more) (ranges.trans lost)
  · exact v.clash x h (full more) (ranges.trans found) ((gatherClash_iff x).2 clash)
  refine v.moves x h (full more) (ranges.trans found) ?_
  refine Bool.eq_false_iff.2 fun clash => ?_
  obtain ⟨a, ha, b, hb, read, write, meets⟩ := (gatherClash_iff x).1 clash
  rw [apart a ha b hb read write] at meets
  cases meets

/-! ### EWR and TCLR -/

theorem execEwr_writes (s : State) (e : BitVec 4) (a : BitVec 6) (imm : BitVec 14) : ∃ t, exec (.ewr e a imm) s = .next t ∧
    t.curCore.endWrites = s.curCore.endWrites ++ [.engine s.issue.sec e (s.cur.rs a + imm.signExtend 64)] ∧
    SameRegs s.cur t.cur ∧ SameCtx s.curCtx t.curCtx ∧ SameMemory s t := by
  have frame := LaneFrame.updCurCore false s (fun k =>
    { k with endWrites := k.endWrites ++ [.engine s.issue.sec e (s.cur.rs a + imm.signExtend 64)] }) rfl
  exact ⟨_, rfl, congrArg Core.endWrites (s.curCore_updCurCore _), frame.sameRegs, frame.ctx, frame.sameMemory⟩

theorem State.endWrites_updCurCtx (s : State) (f : Ctx → Ctx) : (s.updCurCtx f).curCore.endWrites = s.curCore.endWrites :=
  (congrArg Core.endWrites (s.core_updCtx s.issue.core f) :)

theorem State.endWrites_emit (s : State) (lat : Nat) (d : Dest) : (s.emit lat d).curCore.endWrites = s.curCore.endWrites :=
  s.endWrites_updCurCtx _

theorem execTclr_returns (s : State) (d a : BitVec 6) : ∃ t, exec (.tclr d a) s = .next t ∧
    t.cur.inflight = s.cur.inflight ++ [{ due := s.cur.sc + 2, dest := .scalar d (s.curCtx.tags &&& s.cur.rs a) }] ∧
    t.curCore.endWrites = s.curCore.endWrites ++ [.tagClear (s.curCtx.tags &&& s.cur.rs a)] ∧ t.curCtx.tags = s.curCtx.tags ∧
    SameRegs s.cur t.cur ∧ SameMemory s t := by
  let v := s.curCtx.tags &&& s.cur.rs a
  let s1 := s.emit 2 (.scalar d v)
  let s2 := s1.updCurCtx (fun x => x.observe s.issue.sec v)
  have frame := ((LaneFrame.emit false s 2 (.scalar d v)).trans (.observe false s1 v)).trans (.clearTagsAtEnd false s2 v)
  have core : (s2.clearTagsAtEnd v).curCore = { s2.curCore with endWrites := s2.curCore.endWrites ++ [.tagClear v] } := s2.curCore_updCurCore _
  have ctx : (s2.clearTagsAtEnd v).curCtx = s1.curCtx.observe s.issue.sec v := (congrArg Core.ctx core).trans (s1.curCtx_updCurCtx _)
  have flight : (s2.clearTagsAtEnd v).cur.inflight = s1.cur.inflight :=
    (congrArg (fun x : Ctx => (x.stream s.issue.sec).inflight) ctx).trans (Ctx.inflight_observe ..)
  have ends : s2.curCore.endWrites = s.curCore.endWrites := (s1.endWrites_updCurCtx _).trans (s.endWrites_emit 2 _)
  exact ⟨_, rfl, flight.trans (congrArg Stream.inflight (s.cur_emit 2 _)), (congrArg Core.endWrites core).trans (congrArg (· ++ _) ends),
    frame.ctx.tags.1, frame.sameRegs, frame.sameMemory⟩

theorem landEndWrites_tagClear {s : State} {c : CoreId} {m : Word} (only : (s.core c).endWrites = [.tagClear m]) :
    ((s.landEndWrites c).ctx c).tags = (s.ctx c).tags &&& ~~~m ∧ ((s.landEndWrites c).ctx c).tagBusy = (s.ctx c).tagBusy ∧
      ((s.landEndWrites c).core c).endWrites = [] ∧
      ∀ i : Fin 64, ((s.landEndWrites c).ctx c).tagStatus[i] = if ((s.ctx c).tags &&& m).getLsbD i.val then 0 else (s.ctx c).tagStatus[i] := by
  have lands : s.landEndWrites c = (s.updCore c (fun k => { k with endWrites := [] })).updCtx c (fun x => x.clearTags m) := by
    unfold State.landEndWrites
    rw [only]
    rfl
  have core : (s.landEndWrites c).core c = { s.core c with endWrites := [], ctx := (s.ctx c).clearTags m } := by
    rw [lands, State.core_updCtx, State.core_updCore]
    rfl
  have ctx : (s.landEndWrites c).ctx c = (s.ctx c).clearTags m := congrArg Core.ctx core
  rw [ctx, core]
  exact ⟨rfl, rfl, rfl, fun i => by simp [Ctx.clearTags]⟩

/-- Settles O23: each instruction enters the job that its checks come to, EWR writes and TCLR clears at the end of the cycle. -/
theorem copyJobsIssue : Obligations.CopyJobsIssue := by
  intro s tag sg cls span nt r lo hi win
  exact ⟨fun z => entersJob_cpy s tag sg z span nt cls, fun _ _ _ => rfl, fun slot => entersJob_cpyd s tag sg slot span nt cls,
    fun e => entersJob_cpys s tag sg e span nt cls, fun slot => entersJob_ctab s tag sg slot cls, entersJob_ego s tag, execEwr_writes s,
    execTclr_returns s, fun c m only => landEndWrites_tagClear only⟩

end Sys2Proof.Machine
end
